-- ==== Sys2Proof/Word.lean ====
section
/-!
DEFINITION. The word types of the device (R14, R521) and the one container of the state: a sparse map in canonical form.
-/

namespace Sys2Proof

/-- A register of a page, a scalar register, a lane value: 64 bits (R117, R145, R521). -/
abbrev Word := BitVec 64

/-- A byte of the device memory (R14). -/
abbrev Byte := BitVec 8

/-- A sparse map from keys to values: keys strictly rising, no entry equal to the default of the map. -/
abbrev SMap (α : Type) := List (Nat × α)

end Sys2Proof
end

