-- ==== Sys2Proof/Config.lean ====
section
/-!
DEFINITION. What the part fixes (figures of the spec) and the free values: opaque constants that no proof can see into,
for what the spec leaves open or takes from published cryptography.
-/

namespace Sys2Proof.Config

/-- Cores of the device (R20). -/
abbrev nCores : Nat := 32
/-- Vaults of the device (R20). -/
abbrev nVaults : Nat := 64

/-! ### Bases of the address map (R519) -/
/-- First byte after the stacked DRAM. -/
abbrev dramEnd : Nat := 0x003000000000
/-- First byte after the DRAM hole (R182). -/
abbrev holeEnd : Nat := 0x004000000000
/-- Tile store windows: core c at base + c × 0x0100_0000 (R107). -/
abbrev tileBase : Nat := 0x004000000000
/-- End of the tile store region. -/
abbrev tileEnd : Nat := 0x004020000000
/-- Window of one core's tile store. -/
abbrev tileWindow : Nat := 0x01000000
/-- Size of the data region of a tile store (R112). -/
abbrev tileData : Nat := 0x6F0000
/-- Offset of the instruction region (R112). -/
abbrev instrRegion : Nat := 0x700000
/-- Backed bytes of a tile store (R107). -/
abbrev tileBacked : Nat := 0x800000
/-- Hot-row store slot data (R254). -/
abbrev hotBase : Nat := 0x004100000000
/-- End of the hot-row store region. -/
abbrev hotEnd : Nat := 0x004104000000
/-- Accumulator banks (R519, R520). -/
abbrev accBase : Nat := 0x004200000000
/-- End of the accumulator-bank region. -/
abbrev accEnd : Nat := 0x004204000000
/-- Register pages (R519). -/
abbrev pageBase : Nat := 0x007F00000000
/-- End of the register-page region. -/
abbrev pageEnd : Nat := 0x007F10000000
/-- Bundles that the instruction ring holds (R112). -/
abbrev ringBundles : Nat := 32768

/-! ### Free values -/

/-- A byte that the spec calls undefined: the outputs of a failed lookup (R253) or collective (R343). -/
opaque freeByte : Nat → BitVec 8
/-- A nonce of the device's random source (R315, R402). -/
opaque freeNonce : Nat → BitVec 256
/-- A session ticket (R402, R424). -/
opaque freeTicket : Nat → BitVec 128
/-- A 32-bit key that the device hands to a host for RDMA (R402, R404). -/
opaque freeKey : Nat → BitVec 32
/-- The temperature that a record carries for a unit (R452). -/
opaque freeTemp : Nat → BitVec 12
/-- The rail voltage that a record carries for a unit (R452). -/
opaque freeVolt : Nat → BitVec 16
/-- The member at which an adaptive collective starts a chunk's ring order, from the link loads (R344). -/
opaque freeRingStart : Nat → Nat
/-- The order in which a checkpoint or a unit picks among choices the spec leaves open: a spare page (R205). -/
opaque freeChoice : Nat → Nat

/-- What an SRAM checker does with three or more flips in a word, which R196 leaves open: it reports the word (none), or takes it for a
correctable one and leaves these flips. -/
opaque sramBeyond : BitVec 72 → Option (BitVec 72)

/-- The value that a faulty datapath leaves in an entry (R442, outcome 5): by a counter and the entry. -/
opaque faultyEntry : Nat → Nat → BitVec 56

/-- The measurements M0, M1 and M5 of an attestation report (R508): SHA-384 of contents that the model does not hold as bytes, by
the number of the measurement and what the model keeps of the contents. -/
opaque measurement : Nat → List (BitVec 8) → BitVec 384
/-- The payload that a firmware update finds in its buffer when no command carries it: version, signature and digest outcomes (R507). -/
opaque freeImage : Nat → BitVec 32 × Bool × Bool
/-- The load staging area and the device buffers with no job loaded: base and size (R404). -/
opaque stagingBase : Nat
/-- Its size in bytes. -/
opaque stagingSize : Nat

/-- The 8 KiB of a base record, by those of its bytes that the model holds: the others are trims, keys and signatures (R494). -/
opaque baseRecord : List (BitVec 8) → List (BitVec 8)

/-- The certificate chain of the device as AUTH sends it: base record and CA certificate (R315, R494). -/
opaque certChain : List (BitVec 8)
/-- SHA-384 of a byte string (a published function; kept abstract). -/
opaque sha384 : List (BitVec 8) → BitVec 384
/-- The Ed25519 signature of a digest by the device's key (R499). -/
opaque signEd : BitVec 384 → BitVec 512
/-- The ML-DSA-65 signature of a digest by the device's key (R499), as bytes. -/
opaque signMl : BitVec 384 → List (BitVec 8)

end Sys2Proof.Config
end

