-- ==== Sys2Proof/Syntax.lean ====
section
/-!
DEFINITION. The commands of the block: one constructor of Instr per row of spec/opcode_table.json, in the table's order,
and the plain-data operands they carry (slot fields, descriptors, messages, readings).
-/

namespace Sys2Proof

/-! ### Unit numbers (R20, R534) -/
/-- A core, 0 to 31. -/
abbrev CoreId := Fin 32
/-- A vault, 0 to 63. -/
abbrev VaultId := Fin 64
/-- A port: FAB0 to FAB7 are 0 to 7, TWIN is 8. -/
abbrev PortId := Fin 9
/-- An exchange engine, 0 to 7. -/
abbrev EngineId := Fin 8
/-- A host port, 0 or 1. -/
abbrev HostPortId := Fin 2
/-- A Campion pair: cores p and p + 16 (R170). -/
abbrev PairId := Fin 16
/-- The half of an array: 0 whole, 1 left, 2 right (R93, R454). -/
abbrev HalfId := Fin 3

/-! ### Slots of a bundle (R140 to R159) -/

/-- The header of a bundle (R141). -/
structure Header where
  hver : BitVec 3
  rsvd : BitVec 3
  brk : Bool
  v : Bool
  deriving DecidableEq, Repr

/-- The scalar and control slot (R146). -/
structure ScalarSlot where
  op : BitVec 5
  sd : BitVec 5
  sa : BitVec 5
  imm : BitVec 25
  deriving DecidableEq, Repr

/-- The matrix slot (R149). -/
structure MatrixSlot where
  op : BitVec 4
  arr : BitVec 2
  tgt : BitVec 2
  shape : BitVec 2
  wmode : BitVec 2
  afmt : BitVec 1
  offA : BitVec 2
  offW : BitVec 2
  chain : BitVec 2
  grp : BitVec 2
  keep : BitVec 1
  sa : BitVec 5
  sw : BitVec 5
  sacc : BitVec 5
  v : BitVec 11
  segs : BitVec 2
  rsvd : BitVec 14
  deriving DecidableEq, Repr

/-- The vector slot (R151). -/
structure VectorSlot where
  op : BitVec 6
  a : BitVec 5
  b : BitVec 5
  c : BitVec 5
  d : BitVec 5
  mask : BitVec 3
  rnd : BitVec 2
  fmt : BitVec 5
  ntag : BitVec 5
  cls : BitVec 2
  imm : BitVec 21
  deriving DecidableEq, Repr

/-- The move slot (R156). -/
structure MoveSlot where
  op : BitVec 4
  q : BitVec 2
  sa : BitVec 5
  sb : BitVec 5
  sc : BitVec 5
  sd : BitVec 5
  te : BitVec 1
  tok : BitVec 6
  imm : BitVec 15
  deriving DecidableEq, Repr

/-- The sync slot (R159): the operation and the 28 bits below it. -/
structure SyncSlot where
  op : BitVec 4
  body : BitVec 28
  deriving DecidableEq, Repr

/-- A bundle: its header and five slots (R140). -/
structure Bundle where
  hdr : Header
  scalar : ScalarSlot
  matrix : MatrixSlot
  vector : VectorSlot
  move : MoveSlot
  sync : SyncSlot
  deriving DecidableEq, Repr

/-- The fields of a vector operation other than its code (R151). -/
structure VFields where
  a : BitVec 5
  b : BitVec 5
  c : BitVec 5
  d : BitVec 5
  mask : BitVec 3
  rnd : BitVec 2
  fmt : BitVec 5
  ntag : BitVec 5
  cls : BitVec 2
  imm : BitVec 21
  deriving DecidableEq, Repr

/-- The fields of a move operation other than its code (R156). -/
structure MFields where
  q : BitVec 2
  sa : BitVec 5
  sb : BitVec 5
  sc : BitVec 5
  sd : BitVec 5
  te : BitVec 1
  tok : BitVec 6
  imm : BitVec 15
  deriving DecidableEq, Repr

/-! ### Descriptors: eight 64-bit words (R240, R262, R281, R336, R358, R371) -/

/-- A 64-byte descriptor. -/
structure Desc where
  w0 : Word
  w1 : Word
  w2 : Word
  w3 : Word
  w4 : Word
  w5 : Word
  w6 : Word
  w7 : Word
  deriving DecidableEq, Repr

/-! ### Faults and readings that come from the environment -/

/-- Where a fault of an array shows, and what it does to the value there (R95, R102, R103). -/
inductive FaultSite where
  /-- The segment sum that arrives at a fold stage differs by `delta` from the exact one. -/
  | sum (delta : Int)
  /-- The rounded significand of a fold differs by `delta`. -/
  | fold (delta : Int)
  /-- Bit `bit` of an exponent is flipped on a register or bus, or in an adder. -/
  | exponent (bit : Nat)
  /-- A part that both halves share fails: the array's control or its queue. -/
  | shared
  /-- The accumulator bank fails at the entry of the result. -/
  | bank
  deriving DecidableEq, Repr

/-- A fault of an array during a pass (R104): the vector, the logical column and the place in the fold order, segment × k + slot (R79), of the
value it reaches, and its site; in a replay `nth` is the place in the chain of the pass that meets it. -/
structure ArrayFault where
  vector : Nat
  column : Nat
  segment : Nat
  site : FaultSite := .sum 1
  nth : Nat := 0
  deriving DecidableEq, Repr

/-- What a read of a granule meets on top of the errors that stand in it: flips in symbols 0 to 35 and in the metadata byte,
and whether every reissue of its command failed (R190 to R195). -/
structure Disturb where
  syms : List (Nat × BitVec 16)
  mdata : BitVec 8
  cmdFail : Bool
  deriving DecidableEq, Repr

/-- What a check of a unit other than an array finds during an operation (R436): nothing, a control-parity error, a mismatch that the
second execution does not repeat, or one that recurs, with the lane it names. -/
inductive UnitFault where
  | none
  | parity
  | transient (lane : BitVec 8)
  | recurs (lane : BitVec 8)
  deriving DecidableEq, Repr

/-- A unit outside the cores that Campion tests (R439). -/
inductive TestUnit where
  | rowUnit (v : VaultId)
  | teasel (u : Fin 4)
  | exchange (e : EngineId)
  | platform (k : Fin 8)
  deriving DecidableEq, Repr

/-- A 64-bit word of an on-die SRAM (R196, R210), by its number in its SRAM: a tile store, an accumulator bank, the slots and the
directory of a hot-row slice, the buffers of the row units, Teasel units and exchange engines, and the caches of the platform cluster. -/
inductive SramWord where
  | tile (c : CoreId) (word : Nat)
  | acc (phys : Fin 128) (entry : Nat)
  | hot (v : VaultId) (word : Nat)
  | dir (v : VaultId) (word : Nat)
  | buffer (u : TestUnit) (word : Nat)
  | sharedCache (word : Nat)
  deriving DecidableEq, Repr

/-- What has flipped in an SRAM since the word was last read (R196, R197): `len` adjacent physical cells of the word's interleave group
from cell `pos` on, copies of the mark of its granule, and copies of the clean bits of the two entries of a directory word. -/
structure SramBurst where
  pos : Nat := 0
  len : Nat := 0
  mark : BitVec 3 := 0
  cleanLo : BitVec 3 := 0
  cleanHi : BitVec 3 := 0
  deriving DecidableEq, Repr

/-- An increment that reaches a token counter (R160): the next signal of a core, or a completion notice. -/
inductive TokenArrival where
  | signal (src : CoreId)
  | notice (dst : CoreId) (tok : BitVec 6)
  deriving DecidableEq, Repr

/-! ### The loaded program (what the device checks and uses of a program binary) -/

/-- A table descriptor's eight words (R220, R276). -/
abbrev TableDesc := Desc

/-- An owner-map entry's two words (R226). -/
structure OwnerEntry where
  w0 : Word
  w1 : Word
  deriving DecidableEq, Repr

/-- A feature of the program (R233). -/
structure Feature where
  table : Nat
  maxBags : Nat
  maxIdx : Nat
  maxLen : Nat
  weighted : Bool
  ownerRows : Nat
  ownerPos : Nat
  ownerBags : Nat
  deriving DecidableEq, Repr

/-- A range of device memory: base and size in bytes. -/
structure Range where
  base : Nat
  size : Nat
  deriving DecidableEq, Repr

/-- A memory window of the program: a range, and whether move engines may write it (R130, R225). -/
structure MemWindow where
  base : Nat
  size : Nat
  mvWrite : Bool
  deriving DecidableEq, Repr

/-- The bundle image of one core: its place in device memory and its bundles (R112, R144). -/
structure CoreImage where
  core : CoreId
  base : Nat
  bundles : List (BitVec 256)
  deriving DecidableEq, Repr

/-- A micro-batch slot (R388): CAP and the optional BCAP. -/
structure MicroSlot where
  cap : Nat
  bcap : Option Nat
  deriving DecidableEq, Repr

/-- A replica region (R363 and the text before it): start, pages and the axes of its replica set. -/
structure ReplicaRegion where
  base : Nat
  pages : Nat
  axes : BitVec 4
  deriving DecidableEq, Repr

/-- An initial image that the program loads. -/
structure InitImage where
  base : Nat
  bytes : List Byte
  deriving DecidableEq, Repr

/-- What the device reads of a program binary when it loads it (R6, R144, R172, R219 to R233, R275 to R278, R300, R321, R335, R355,
R363, R384, R388, R421). -/
structure Program where
  grade : BitVec 8
  generation : Nat
  jobId : Word
  nD : Nat
  nP : Nat
  nT : Nat
  nS : Nat
  torus : Bool
  testWindows : Bool
  detReq : Bool
  selectors : List Word
  images : List CoreImage
  init : List InitImage
  windows : List MemWindow
  groupWindows : List Range
  hostWindows : List Range
  tables : List TableDesc
  ownerMap : List OwnerEntry
  features : List Feature
  replThreshold : Nat
  depth : Nat
  slots : List MicroSlot
  barriers : List (List (Nat × CoreId))
  groupBase : Nat
  groups : List Desc
  replicas : List ReplicaRegion
  bitIdentical : Bool
  digestPeriod : Option Nat
  ckptSet : List Range
  staging : List Range
  ingestRings : List Range
  mirror : Option Range
  journalPages : Nat
  telemetry : Option Range
  telemetryEntries : Nat
  xchWindows : List (Word × Word)
  twinRank : Option Nat
  inboxBytes : Nat
  firstStep : BitVec 32
  redoStep : Option (BitVec 32)
  platWindows : List (Nat × Nat × BitVec 6)
  deriving DecidableEq, Repr

/-! ### Messages between devices (chapters 07 to 09) -/

/-- A count message (R243). -/
structure CountMsg where
  descId : BitVec 16
  batch : BitVec 32
  requester : Nat
  owner : Nat
  table : Nat
  u : Nat
  p : Nat
  bo : Nat
  deriving DecidableEq, Repr

/-- A position entry of a payload (R245). -/
structure PosEntry where
  ord : Nat
  bag : Nat
  pos : Nat
  deriving DecidableEq, Repr

/-- A lookup payload (R245); the weights, in entry order, are there for a weighted sum only. -/
structure PayloadMsg where
  descId : BitVec 16
  batch : BitVec 32
  requester : Nat
  u : Nat
  p : Nat
  rows : List Nat
  entries : List PosEntry
  weights : List (BitVec 32)
  deriving DecidableEq, Repr

/-- One record of a response (R247): the bag or position, its elements as stored bits, and whether each is marked. -/
structure RespRecord where
  key : Nat
  elems : List Word
  psn : List Bool
  deriving DecidableEq, Repr

/-- A lookup response: partials, raw rows, or a failure with its code (R246, R247); `fp32` tells that PFMT is FP32. -/
structure RespMsg where
  descId : BitVec 16
  batch : BitVec 32
  owner : Nat
  fail : Option (BitVec 8)
  fp32 : Bool
  records : List RespRecord
  deriving DecidableEq, Repr

/-- A prefetch message (R239). -/
structure PrefetchMsg where
  table : Nat
  batch : BitVec 32
  rows : List Nat
  deriving DecidableEq, Repr

/-- One record of a contribution message (R284); `len` is the length of the bag that a bag-mode record names, which R270 needs at the
owner and for which the layout of R284 has no place. -/
structure ContribRec where
  key : Nat
  len : Nat
  nf : Bool
  elems : List Word
  psn : List Bool
  deriving DecidableEq, Repr

/-- A contribution message (R284); `bag` is RET. DESIGN CHOICE (log 128): DESC_ID is that of the lookup, by which the owner of a bag-mode
message finds the payload of R285. -/
structure ContribMsg where
  descId : BitVec 16
  batch : BitVec 32
  source : Nat
  table : Nat
  bag : Bool
  sbase : BitVec 32
  records : List ContribRec
  deriving DecidableEq, Repr

/-- An end marker (R288). -/
structure EndMarker where
  table : Nat
  step : BitVec 32
  source : Nat
  count : Nat
  deriving DecidableEq, Repr

/-- What the job agrees on at a seal (R288 step 5): E(s), and the exact totals. -/
structure SealTotals where
  emax : Option Int
  q : List Int
  rows : Nat
  nfRows : Nat
  deriving DecidableEq, Repr

/-- A HELLO packet (R314). -/
structure HelloPkt where
  gen : Nat
  grade : BitVec 8
  scanel : Nat
  jobId : Word
  rank : BitVec 11
  port : Nat
  topoSig : BitVec 32
  deriving DecidableEq, Repr

/-- What the AUTH exchange shows (R315): the peer's nonce, whether chains and signatures verify, the peer's key digest, whether it is the
same identity as before a retrain. -/
structure AuthPkt where
  nonce : BitVec 256
  verifies : Bool
  keyDigest : BitVec 384
  sameKey : Bool
  deriving DecidableEq, Repr

/-- A packet header (R317). -/
structure PktHead where
  typ : BitVec 4
  vc : BitVec 3
  dl : Bool
  src : BitVec 10
  dst : BitVec 10
  seq : BitVec 12
  len : BitVec 4
  psn : BitVec 5
  tag : BitVec 15
  off : BitVec 32
  crc : BitVec 32
  deriving DecidableEq, Repr

/-- A packet as it stands on a link (R317): its header and its payload. -/
structure Frame where
  head : PktHead
  payload : List Byte
  deriving DecidableEq, Repr

/-- A control packet as it arrives (R317): the port it comes in by, and its bytes as fields. -/
structure Arrival where
  port : PortId
  frame : Frame
  deriving DecidableEq, Repr

/-- One use of a barrier group (R346): the group and the generation. -/
structure BarrierUse where
  grp : BitVec 4
  gen : BitVec 32
  deriving DecidableEq, Repr

/-- A row record as the host delivers it (R229, R230): the number of the fetch that it answers and the record's bytes. -/
structure TierImage where
  seq : Nat
  bytes : List Byte
  deriving DecidableEq, Repr

/-- What a DATA packet carries for the operation it belongs to, for which R317 gives no field: the operation, the CRC of the first packet of
a collective (R343); the bytes of the payload that are written, `size` of them from byte `skew` on; for a partial of a collective the axis,
the chunk, the first element and how many members have folded it; for a gathered piece axis 4 and its member in `chunk`; `last` ends a PUT
or a piece, and the last packet of a PUT carries the peer's token. -/
structure Carried where
  opStep : BitVec 32
  opDesc : BitVec 16
  opCrc : Option (BitVec 32)
  skew : Nat
  size : Nat
  chunk : Nat
  first : Nat
  axis : Nat
  folds : Nat
  last : Bool
  rtok : Option (BitVec 5 × BitVec 6)
  deriving DecidableEq, Repr

/-- A DATA packet (R317, R318). -/
structure Packet where
  frame : Frame
  use : Carried
  deriving DecidableEq, Repr

/-- What a GRANT says beside its header, whose TAG names the space (R331): its size, and the lookup or the collective it is for. -/
structure GrantBody where
  size : Nat
  lookup : Bool
  opStep : BitVec 32
  opDesc : BitVec 16
  deriving DecidableEq, Repr

/-- A grant (R331): landing space at a peer for a lookup payload or for a segment of a collective. -/
structure GrantPkt where
  peer : Nat
  tag : Nat
  size : Nat
  lookup : Bool
  opStep : BitVec 32
  opDesc : BitVec 16
  deriving DecidableEq, Repr

/-! ### Host link (chapter 12) -/

/-- An SHL message as it arrives (R400): the host port, the fields of its header but TYPE, which the command gives, its reserved bits
(bytes 3 and 24 to 27), and its body as bytes. -/
structure ShlHead where
  port : HostPortId
  ver : BitVec 8
  flags : BitVec 8
  rsvd : BitVec 40
  len : BitVec 32
  seq : BitVec 32
  sid : BitVec 32
  tag : Word
  crc : BitVec 32
  body : List Byte
  deriving DecidableEq, Repr

/-- The body of BUF_OPEN (R404), and whether its reserved bits are zero. -/
structure BufBody where
  buf : BitVec 8
  kind : BitVec 8
  addr : Word
  size : Nat
  rkey : BitVec 32
  rsvdOk : Bool
  deriving DecidableEq, Repr

/-- The body of an XFER (R417). -/
structure XferBody where
  xid : BitVec 32
  src : BitVec 8
  srcOff : Nat
  dst : BitVec 8
  dstOff : Nat
  len : Nat
  qp : Nat
  deriving DecidableEq, Repr

/-- The body of LOAD (R421): where the binary and placement lie, the seed, the flag, and what the device finds there. -/
structure LoadBody where
  buf : BitVec 8
  binOff : Nat
  binLen : Nat
  plOff : Nat
  plLen : Nat
  seed : Word
  det : Bool
  program : Program
  placement : List (BitVec 384)
  binDigest : BitVec 384
  deriving DecidableEq, Repr

/-- An agent that reaches register pages (R522). -/
inductive Agent where
  | management
  | platformM
  | platformS
  | session (sid : BitVec 32)
  deriving DecidableEq, Repr

/-- What an access of a platform processor does: a load, a store, or a cache-block operation of Zicbom (R489, R490). -/
inductive PlatOp where
  | load
  | store
  | clean
  | inval
  | flush
  deriving DecidableEq, Repr

/-- An access of a platform processor to device memory (R491): mode 0 user, 1 supervisor, 3 machine. -/
structure PlatAccess where
  cpu : Fin 8
  mode : BitVec 2
  op : PlatOp
  addr : Nat
  len : Nat
  data : List Byte
  deriving DecidableEq, Repr

/-- Whether an access is a store. -/
def PlatAccess.write (x : PlatAccess) : Bool := x.op == .store

/-- A firmware image as boot or an update finds it (R501). -/
structure FwImage where
  version : BitVec 32
  sigOk : Bool
  digestOk : Bool
  deriving DecidableEq, Repr

/-- A base record of the part record (R494), with the outcome of its checks (R495). -/
structure BaseRecord where
  serial : Word
  grade : BitVec 8
  fwmin : BitVec 32
  amap : List Byte
  vpart : Nat
  slack : Nat
  ptcut : Nat
  pkDigest : BitVec 384
  valid : Bool
  deriving DecidableEq, Repr

/-- The payload of an update (R506, R507). -/
inductive UpdateData where
  | image (i : FwImage)
  | record (r : BaseRecord)
  deriving DecidableEq, Repr

/-- What a boot meets (R499, R501, R503): whether the PUF seed is reconstructed, whether the images of slots A and B read back intact, and
whether an image, once started, fails to reach ready. -/
structure BootFinds where
  pufOk : Bool
  okA : Bool
  okB : Bool
  hangA : Bool
  hangB : Bool
  deriving DecidableEq, Repr

/-- A lab or debug token (R510). -/
structure Token where
  serial : Word
  scope : BitVec 8
  limit : Nat
  sigOk : Bool
  deriving DecidableEq, Repr

/-- The network configuration of a host port (R493). -/
structure NetConfig where
  addr : BitVec 128
  v6 : Bool
  prefixLen : Nat
  gateway : BitVec 128
  vlan : Option (BitVec 12)
  deriving DecidableEq, Repr

/-- One sample of the package sensors for a Tansy period (R465, R468): package power and each core's array power in units of
2^-10 W, which cores stayed in one phase, and which had a vector held back. -/
structure TansySample where
  pkg : Nat
  core : List Nat
  steady : List Bool
  held : List Bool
  deriving DecidableEq, Repr

/-- A command of the block: one row of the opcode table each. -/
inductive Instr where
  | instructionStreamFill (c : CoreId)
  | instructionFetch (c : CoreId) (uncorrectable : Bool)
  | bundleIssue (c : CoreId) (fault : UnitFault)
  | nop (c : CoreId)
  | addi (c : CoreId) (sd sa : BitVec 5) (imm : BitVec 25)
  | add (c : CoreId) (sd sa sb : BitVec 5)
  | sub (c : CoreId) (sd sa sb : BitVec 5)
  | and (c : CoreId) (sd sa sb : BitVec 5)
  | or (c : CoreId) (sd sa sb : BitVec 5)
  | xor (c : CoreId) (sd sa sb : BitVec 5)
  | shli (c : CoreId) (sd sa : BitVec 5) (imm : BitVec 25)
  | shri (c : CoreId) (sd sa : BitVec 5) (imm : BitVec 25)
  | movi (c : CoreId) (sd : BitVec 5) (imm : BitVec 25)
  | shlor (c : CoreId) (sd sa : BitVec 5) (imm : BitVec 25)
  | mul (c : CoreId) (sd sa sb : BitVec 5)
  | sld (c : CoreId) (sd sa : BitVec 5) (imm : BitVec 25)
  | sst (c : CoreId) (sd sa : BitVec 5) (imm : BitVec 25)
  | cmplt (c : CoreId) (sd sa sb : BitVec 5)
  | cmpeq (c : CoreId) (sd sa sb : BitVec 5)
  | jmp (c : CoreId) (imm : BitVec 25)
  | bz (c : CoreId) (sa : BitVec 5) (imm : BitVec 25)
  | bnz (c : CoreId) (sa : BitVec 5) (imm : BitVec 25)
  | loop (c : CoreId) (sd : BitVec 5) (imm : BitVec 25)
  | stepset (c : CoreId) (sa : BitVec 5)
  | stepinc (c : CoreId)
  | phase (c : CoreId) (imm : BitVec 25)
  | testwin (c : CoreId)
  | trap (c : CoreId) (imm : BitVec 25)
  | endProgram (c : CoreId)
  | pass (c : CoreId) (m : MatrixSlot)
  | weightBroadcast (c : CoreId) (arr : Fin 4) (half : HalfId) (row : Fin 128)
  | passComplete (c : CoreId) (arr : Fin 4) (half : HalfId) (fault : Option ArrayFault)
  | chainReplay (c : CoreId) (arr : Fin 4) (half : HalfId) (fault : Option ArrayFault)
  | arrayArbitration (c : CoreId) (arr : Fin 4) (half : HalfId) (agree otherMismatch : Bool)
  | iadd (c : CoreId) (f : VFields)
  | isub (c : CoreId) (f : VFields)
  | icmp (c : CoreId) (f : VFields)
  | imin (c : CoreId) (f : VFields)
  | imax (c : CoreId) (f : VFields)
  | vecAnd (c : CoreId) (f : VFields)
  | vecOr (c : CoreId) (f : VFields)
  | vecXor (c : CoreId) (f : VFields)
  | shl (c : CoreId) (f : VFields)
  | shr (c : CoreId) (f : VFields)
  | sel (c : CoreId) (f : VFields)
  | fadd (c : CoreId) (f : VFields)
  | fsub (c : CoreId) (f : VFields)
  | fmul (c : CoreId) (f : VFields)
  | fma (c : CoreId) (f : VFields)
  | fmin (c : CoreId) (f : VFields)
  | fmax (c : CoreId) (f : VFields)
  | fcmp (c : CoreId) (f : VFields)
  | fabs (c : CoreId) (f : VFields)
  | fneg (c : CoreId) (f : VFields)
  | frcp (c : CoreId) (f : VFields)
  | frsq (c : CoreId) (f : VFields)
  | fsqrt (c : CoreId) (f : VFields)
  | fexp2 (c : CoreId) (f : VFields)
  | flog2 (c : CoreId) (f : VFields)
  | cvt (c : CoreId) (f : VFields)
  | vld (c : CoreId) (f : VFields)
  | vst (c : CoreId) (f : VFields)
  | pack (c : CoreId) (f : VFields)
  | packx (c : CoreId) (f : VFields)
  | unpack (c : CoreId) (f : VFields)
  | rsum (c : CoreId) (f : VFields)
  | rssq (c : CoreId) (f : VFields)
  | rmax (c : CoreId) (f : VFields)
  | rmin (c : CoreId) (f : VFields)
  | bcast (c : CoreId) (f : VFields)
  | rot (c : CoreId) (f : VFields)
  | ilv (c : CoreId) (f : VFields)
  | dilv (c : CoreId) (f : VFields)
  | ard (c : CoreId) (f : VFields)
  | awr (c : CoreId) (f : VFields)
  | adrn (c : CoreId) (f : VFields)
  | sard (c : CoreId) (f : VFields)
  | copy (c : CoreId) (f : MFields)
  | scopy (c : CoreId) (f : MFields)
  | transferComplete (c : CoreId) (q : Fin 4)
  | gather (c : CoreId) (q : Fin 4)
  | openVersion (c : CoreId) (q : Fin 4)
  | publish (c : CoreId) (q : Fin 4)
  | lookup (c : CoreId) (d : Desc) (poisoned : Bool)
  | pin (c : CoreId) (d : Desc) (poisoned : Bool)
  | importRows (c : CoreId) (d : Desc) (poisoned : Bool)
  | exportRows (c : CoreId) (d : Desc) (poisoned : Bool)
  | grad (c : CoreId) (d : Desc) (poisoned : Bool)
  | sealBank (c : CoreId) (d : Desc) (poisoned : Bool)
  | applyBank (c : CoreId) (d : Desc) (poisoned : Bool)
  | commit (c : CoreId) (d : Desc) (poisoned : Bool)
  | snap (c : CoreId) (d : Desc) (poisoned : Bool)
  | put (c : CoreId) (e : EngineId) (adaptive : Bool) (d : Desc) (poisoned : Bool)
  | reduceScatter (c : CoreId) (e : EngineId) (adaptive : Bool) (d : Desc) (poisoned : Bool)
  | allGather (c : CoreId) (e : EngineId) (adaptive : Bool) (d : Desc) (poisoned : Bool)
  | allReduce (c : CoreId) (e : EngineId) (adaptive : Bool) (d : Desc) (poisoned : Bool)
  | exchangeComplete (step : BitVec 32) (descId : BitVec 16)
  | wait (c : CoreId) (tok : BitVec 6) (consume src : Bool) (imm : BitVec 20)
  | signal (c : CoreId) (tok : BitVec 6) (dst : BitVec 5) (inc : BitVec 16)
  | bar (c : CoreId) (grp : BitVec 4)
  | tset (c : CoreId) (tok : BitVec 6) (val : BitVec 20)
  | claim (c : CoreId) (ctr : BitVec 4) (sd : BitVec 5)
  | wset (c : CoreId) (ctr : BitVec 4) (sa : BitVec 5)
  | tokenIncrement (a : TokenArrival)
  | waitTimeout (c : CoreId)
  | barrierTimeout (c : CoreId)
  | rendezvousTimeout (c : CoreId)
  | barrierArrivalPacket (a : Arrival) (grp : BitVec 4) (gen : BitVec 32)
  | barrierReleasePacket (a : Arrival) (u : BarrierUse)
  | seqCtrlResume (c : CoreId)
  | seqCtrlStart (c : CoreId)
  | vrefuseSet (c : CoreId)
  | pairDue (p : PairId)
  | testWindowEnd (p : PairId) (forcedCore : Option CoreId) (sigEqual : Bool) (parityCore : Option CoreId)
  | forcedTestWindow (c : CoreId)
  | testOverdue (p : PairId)
  | campionUnitTest (u : TestUnit) (pass : Bool)
  | referenceRecompute (p : PairId) (unit : Fin 5) (sub : BitVec 4) (coreOk partnerOk coreRerunOk partnerRerunOk : Bool)
  | vaultRead (addr : Nat) (first second : Disturb)
  | vaultWrite (addr : Nat) (data : List Byte) (psn pathBad : Bool) (merge : Disturb)
  | commandPathTimeout (v : VaultId) (die : Fin 8)
  | detectionSummary (v : VaultId)
  | dramScrubRead (v : VaultId) (first second : Disturb)
  | sramScrubRead (w : SramWord) (b : SramBurst)
  | refresh (v : VaultId) (die : Fin 8) (bank : Fin 32)
  | dramTempSample (v : VaultId) (temps : List (BitVec 11))
  | selfTestComplete (v : VaultId) (checkersOk : Bool) (failing : List (Fin 8 × Fin 32 × Nat))
  | vltInjArm (v : VaultId) (val : Word)
  | ringEntryRead (sid : BitVec 32) (ring : Fin 64)
  | entryReread (sid : BitVec 32) (ring : Fin 64)
  | batchValidation (sid : BitVec 32) (ring : Fin 64)
  | prefetchMessage (m : PrefetchMsg)
  | countMessage (m : CountMsg)
  | grantPacket (a : Arrival) (g : GrantBody)
  | lookupPayload (m : PayloadMsg) (e : EngineId) (fault : UnitFault)
  | tierFetchComplete (table : Nat) (lidx : Nat) (image : TierImage)
  | tierFetchTimeout (table : Nat) (lidx : Nat)
  | backgroundTierFetch (table : Nat)
  | lookupResponse (m : RespMsg)
  | lookupComplete (batch : BitVec 32) (descId : BitVec 16)
  | bankOpen (table : Nat) (step : BitVec 32)
  | contributionMessage (m : ContribMsg)
  | endMarker (m : EndMarker)
  | sealDecision (table : Nat) (step : BitVec 32) (t : SealTotals)
  | applyComplete (table : Nat) (step : BitVec 32)
  | bankClear (table : Nat) (step : BitVec 32)
  | signalDetect (p : PortId)
  | trainLock (p : PortId) (lanesBad : BitVec 12) (peerWidth : BitVec 2) (laneGen : Nat)
  | trainTimeout (p : PortId)
  | helloPacket (a : Arrival) (h : HelloPkt)
  | authPacket (a : Arrival) (x : AuthPkt)
  | linkAck (p : PortId) (seq : BitVec 12)
  | linkNak (p : PortId) (seq : BitVec 12)
  | creditReturn (p : PortId) (vc : BitVec 3) (dl : Bool) (n : Nat)
  | linkRetrain (p : PortId) (errLanes : BitVec 12)
  | dataPacket (p : PortId) (k : Packet)
  | packetTransit (p : PortId) (f : Frame)
  | releasePacket (p : PortId) (f : Frame) (credits : Nat)
  | donePacket (a : Arrival) (step : BitVec 32) (descId : BitVec 16)
  | failPacket (a : Arrival) (step : BitVec 32) (descId : BitVec 16) (code : BitVec 8)
  | linkDown (p : PortId)
  | creditTimeout (p : PortId) (vc : BitVec 3) (dl : Bool)
  | linkAbsentTimeout (p : PortId)
  | fabRetrain (p : PortId)
  | digestPageCrc (page : Nat)
  | digestCompare (region : Nat) (peers : List (BitVec 64)) (diffPages : List (Nat × Nat × BitVec 8))
  | mirrorPageSend
  | checkpointCommit
  | journalApply
  | hostCheckpointStream
  | shlHello (h : ShlHead) (versions : BitVec 3) (nonce : BitVec 256)
  | shlAuth (h : ShlHead) (verifies : Bool) (level certLevel : Nat)
  | attach (h : ShlHead) (sid : BitVec 32) (ticket : BitVec 128)
  | detach (h : ShlHead)
  | bufOpen (h : ShlHead) (b : BufBody)
  | bufClose (h : ShlHead) (buf : BitVec 8)
  | ringOpen (h : ShlHead) (ring : Fin 64) (buf : BitVec 8) (off n qp : Nat)
  | ringClose (h : ShlHead) (ring : Fin 64)
  | evtOpen (h : ShlHead) (buf : BitVec 8) (off n : Nat)
  | xferIn (h : ShlHead) (b : XferBody)
  | xferOut (h : ShlHead) (b : XferBody)
  | xferComplete (sid xid : BitVec 32) (data : List Byte)
  | resolveResend (h : ShlHead) (xid : BitVec 32)
  | resolveAbort (h : ShlHead) (xid : BitVec 32)
  | tierSrc (h : ShlHead) (table first last : Nat) (buf : BitVec 8) (hoff stride : Nat)
  | ckptDest (h : ShlHead) (buf : BitVec 8) (off : Nat)
  | load (h : ShlHead) (b : LoadBody)
  | jobStart (h : ShlHead)
  | jobStop (h : ShlHead)
  | jobCtrlReset (h : ShlHead)
  | regRd (h : ShlHead) (page off n : Nat)
  | regWr (h : ShlHead) (page off : Nat) (vals : List Word)
  | rdmaWrite (sid : BitVec 32) (buf : BitVec 8) (off : Nat) (data : List Byte)
  | rdmaRead (sid : BitVec 32) (qp : Nat) (pageOff : Nat)
  | doorbell (sid : BitVec 32) (ring : Fin 64) (p : Word)
  | eventConsumerWrite (sid : BitVec 32) (c : Word)
  | qpError (sid : BitVec 32)
  | sessionExpiry (sid : BitVec 32)
  | hostRetrain (p : HostPortId)
  | errorRingDelivery
  | unitHistoryWrite (flashOk : Bool)
  | unitHistoryRetry (flashOk : Bool)
  | permanentClassification (uclass : BitVec 4) (uinst : BitVec 12) (loc : BitVec 48) (code : BitVec 8)
  | tansyPeriod (m : TansySample)
  | capUnattainable
  | mgCapWrite (a : Agent) (w : BitVec 11)
  | rtCapWrite (a : Agent) (w : BitVec 11)
  | alertCapWrite (a : Agent) (w : BitVec 11)
  | capAlertAssert
  | capAlertDeassert
  | droopCut (c : CoreId)
  | droopCutEnd (c : CoreId)
  | droopRecord
  | vappliedWrite (a : Agent) (mv : BitVec 16)
  | voltageNotApplied
  | marginMeasurement (slackPs : Nat)
  | logicTempSample (temps : List (BitVec 11))
  | thermalTrip
  | coolantLossStop
  | resume
  | stopExpired
  | rstNAssert
  | coldReset (f : BootFinds) (pos : BitVec 4)
  | bootRomStart
  | bootWatchdog
  | warmReset (f : BootFinds)
  | jobReset
  | coreReset (c : CoreId)
  | pltRstCores (a : Agent) (cores : BitVec 32)
  | pltRstWarm (a : Agent)
  | pltRstJob (a : Agent)
  | pldmFirmwareUpdate (u : UpdateData) (len : Nat)
  | fwuStart (a : Agent) (val : Word) (u : UpdateData)
  | fwuAbort (a : Agent)
  | firmwareUpdateComplete
  | attestationRequest (nonce : BitVec 256)
  | attStart (a : Agent) (val : Word)
  | networkConfigWrite (p : HostPortId) (n : NetConfig)
  | operatorRootWrite (roots : List (BitVec 384))
  | tokenWrite (t : Option Token)
  | pldmPlatformMonitoring
  | coreclkLoss
  | sdrefLoss (k : Fin 4)
  | powerLoss
  | jtagBypass
  | jtagIdcode
  | jtagSamplePreload (pattern : List Bool)
  | jtagExtest
  | jtagDebug (read : Option (Nat × Nat)) (halt : Option (Fin 8 × Bool))
  | tapReset
  | errStatWrite (a : Agent) (page : Nat) (val : Word) (setSame : BitVec 9)
  | errForceGo (a : Agent) (page : Nat) (val : Word)
  | ctrlPclr (a : Agent) (page : Nat)
  | errRecRead (a : Agent) (page : Nat)
  | progRead (a : Agent) (page : Nat)
  | readClear (a : Agent) (page off : Nat)
  | registerWrite (a : Agent) (page off : Nat) (val : Word)
  | coreclkReturn (f : BootFinds) (pos : BitVec 4)
  | powerOn
  | hostLinkUp (p : HostPortId)
  | hostLinkDown (p : HostPortId)
  | congestionNotificationPacket (p : HostPortId)
  | priorityFlowControlFrame (p : HostPortId) (quanta : BitVec 16)
  | platformAccess (a : PlatAccess)
  | pinImportExportComplete (descId : BitVec 16) (tok : BitVec 6) (c : CoreId)
  deriving DecidableEq, Repr

end Sys2Proof
end

