-- ==== Sys2Proof/Decode.lean ====
section
/-!
DEFINITION. The command word of the table (no row gives bits), and the 256-bit bundle of chapter 05: its layout both ways (R140 to
R159) and the encodings that are reserved whatever the registers hold (R18, R142, R151, R573).
-/

namespace Sys2Proof

/-- The command that a word spells: no row of the opcode table gives bits, so none. -/
def decodeTableWord (_nbits _w : Nat) : Option Instr := none

/-! ### The bundle word -/

/-- The `len` bits of a bundle from bit `lo`. -/
abbrev bitsAt (w : BitVec 256) (lo len : Nat) : BitVec len := w.extractLsb' lo len

/-- The header (R141). -/
def decodeHeader (w : BitVec 8) : Header :=
  ⟨w.extractLsb' 5 3, w.extractLsb' 2 3, w.getLsbD 1, w.getLsbD 0⟩

/-- The scalar and control slot (R146). -/
def decodeScalar (w : BitVec 40) : ScalarSlot :=
  ⟨w.extractLsb' 35 5, w.extractLsb' 30 5, w.extractLsb' 25 5, w.extractLsb' 0 25⟩

/-- The matrix slot (R149). -/
def decodeMatrix (w : BitVec 64) : MatrixSlot :=
  ⟨w.extractLsb' 60 4, w.extractLsb' 58 2, w.extractLsb' 56 2, w.extractLsb' 54 2, w.extractLsb' 52 2, w.extractLsb' 51 1,
   w.extractLsb' 49 2, w.extractLsb' 47 2, w.extractLsb' 45 2, w.extractLsb' 43 2, w.extractLsb' 42 1, w.extractLsb' 37 5,
   w.extractLsb' 32 5, w.extractLsb' 27 5, w.extractLsb' 16 11, w.extractLsb' 14 2, w.extractLsb' 0 14⟩

/-- The vector slot (R151). -/
def decodeVector (w : BitVec 64) : VectorSlot :=
  ⟨w.extractLsb' 58 6, w.extractLsb' 53 5, w.extractLsb' 48 5, w.extractLsb' 43 5, w.extractLsb' 38 5, w.extractLsb' 35 3,
   w.extractLsb' 33 2, w.extractLsb' 28 5, w.extractLsb' 23 5, w.extractLsb' 21 2, w.extractLsb' 0 21⟩

/-- The move slot (R156). -/
def decodeMove (w : BitVec 48) : MoveSlot :=
  ⟨w.extractLsb' 44 4, w.extractLsb' 42 2, w.extractLsb' 37 5, w.extractLsb' 32 5, w.extractLsb' 27 5, w.extractLsb' 22 5,
   w.extractLsb' 21 1, w.extractLsb' 15 6, w.extractLsb' 0 15⟩

/-- The sync slot (R159). -/
def decodeSync (w : BitVec 32) : SyncSlot := ⟨w.extractLsb' 28 4, w.extractLsb' 0 28⟩

/-- The slots of a bundle (R140). -/
def decodeBundle (w : BitVec 256) : Bundle :=
  ⟨decodeHeader (bitsAt w 0 8), decodeScalar (bitsAt w 8 40), decodeMatrix (bitsAt w 48 64), decodeVector (bitsAt w 112 64),
   decodeMove (bitsAt w 176 48), decodeSync (bitsAt w 224 32)⟩

/-- The bits of a header (R141). -/
def encodeHeader (h : Header) : BitVec 8 :=
  h.hver ++ h.rsvd ++ BitVec.ofBool h.brk ++ BitVec.ofBool h.v

/-- The bits of a scalar slot (R146). -/
def encodeScalar (x : ScalarSlot) : BitVec 40 := x.op ++ x.sd ++ x.sa ++ x.imm

/-- The bits of a matrix slot (R149). -/
def encodeMatrix (x : MatrixSlot) : BitVec 64 :=
  x.op ++ x.arr ++ x.tgt ++ x.shape ++ x.wmode ++ x.afmt ++ x.offA ++ x.offW ++ x.chain ++ x.grp ++ x.keep ++ x.sa ++ x.sw ++
    x.sacc ++ x.v ++ x.segs ++ x.rsvd

/-- The bits of a vector slot (R151). -/
def encodeVector (x : VectorSlot) : BitVec 64 :=
  x.op ++ x.a ++ x.b ++ x.c ++ x.d ++ x.mask ++ x.rnd ++ x.fmt ++ x.ntag ++ x.cls ++ x.imm

/-- The bits of a move slot (R156). -/
def encodeMove (x : MoveSlot) : BitVec 48 :=
  x.op ++ x.q ++ x.sa ++ x.sb ++ x.sc ++ x.sd ++ x.te ++ x.tok ++ x.imm

/-- The bits of a sync slot (R159). -/
def encodeSync (x : SyncSlot) : BitVec 32 := x.op ++ x.body

/-- The bits of a bundle (R140). -/
def encodeBundle (b : Bundle) : BitVec 256 :=
  encodeSync b.sync ++ encodeMove b.move ++ encodeVector b.vector ++ encodeMatrix b.matrix ++ encodeScalar b.scalar ++
    encodeHeader b.hdr

/-! ### No-operation slots and bundles of one operation -/

/-- A slot with every bit zero (R142). -/
def nopScalar : ScalarSlot := ⟨0, 0, 0, 0⟩
/-- A slot with every bit zero (R142). -/
def nopMatrix : MatrixSlot := ⟨0, 0, 0, 0, 0, 0, 0, 0, 0, 0, 0, 0, 0, 0, 0, 0, 0⟩
/-- A slot with every bit zero (R142). -/
def nopVector : VectorSlot := ⟨0, 0, 0, 0, 0, 0, 0, 0, 0, 0, 0⟩
/-- A slot with every bit zero (R142). -/
def nopMove : MoveSlot := ⟨0, 0, 0, 0, 0, 0, 0, 0, 0⟩
/-- A slot with every bit zero (R142). -/
def nopSync : SyncSlot := ⟨0, 0⟩

/-- The header of a bundle without a breakpoint (R141, R167). -/
def plainHeader (v : Bool) : Header := ⟨0b011, 0, false, v⟩

/-- A bundle whose only operation is a scalar one. -/
def scalarBundle (x : ScalarSlot) : Bundle := ⟨plainHeader false, x, nopMatrix, nopVector, nopMove, nopSync⟩
/-- A bundle whose only operation is a matrix one. -/
def matrixBundle (x : MatrixSlot) : Bundle := ⟨plainHeader false, nopScalar, x, nopVector, nopMove, nopSync⟩
/-- A bundle whose only operation is a vector one. -/
def vectorBundle (x : VectorSlot) : Bundle := ⟨plainHeader false, nopScalar, nopMatrix, x, nopMove, nopSync⟩
/-- A bundle whose only operation is a move one. -/
def moveBundle (x : MoveSlot) : Bundle := ⟨plainHeader false, nopScalar, nopMatrix, nopVector, x, nopSync⟩
/-- A bundle whose only operation is a sync one; a CLAIM is variable (R166, R167). -/
def syncBundle (x : SyncSlot) : Bundle :=
  ⟨plainHeader (x.op == 5), nopScalar, nopMatrix, nopVector, nopMove, x⟩

/-- A vector operation as its slot. -/
def VFields.slot (f : VFields) (op : BitVec 6) : VectorSlot :=
  ⟨op, f.a, f.b, f.c, f.d, f.mask, f.rnd, f.fmt, f.ntag, f.cls, f.imm⟩

/-- A move operation as its slot. -/
def MFields.slot (f : MFields) (op : BitVec 4) : MoveSlot :=
  ⟨op, f.q, f.sa, f.sb, f.sc, f.sd, f.te, f.tok, f.imm⟩

/-! ### Formats (R152) -/

/-- Lane formats: FP32, INT32, Z56, L64 (R118). -/
def laneFormats : List Nat := [0x00, 0x06, 0x07, 0x08]
/-- Formats with one element a lane: FP32 to INT32, Z56 and L64 (R120, R152). -/
def elementFormats : List Nat := [0, 1, 2, 3, 4, 5, 6, 7, 8]
/-- SB and MX formats (R153). -/
def blockFormats : List Nat := [0x09, 0x0A, 0x0B, 0x0C, 0x0D, 0x0E, 0x0F, 0x10, 0x11, 0x12]

/-! ### What each operation uses -/

/-- The fields of a scalar operation that may be non-zero (R146): SD, SA, and the number of low bits of IMM that must be zero with
the number of low bits it may use. -/
structure ScalarUse where
  sd : Bool
  sa : Bool
  /-- IMM is in use from this bit (20 for an SB operand, else 0). -/
  immLo : Nat
  /-- IMM is in use below this bit. -/
  immHi : Nat
  deriving DecidableEq, Repr

/-- The table of R146. -/
def scalarUse (op : Nat) : Option ScalarUse :=
  match op with
  | 0x00 => some ⟨false, false, 0, 0⟩
  | 0x01 => some ⟨true, true, 0, 25⟩
  | 0x02 | 0x03 | 0x04 | 0x05 | 0x06 | 0x0B | 0x0E | 0x0F => some ⟨true, true, 20, 25⟩
  | 0x07 | 0x08 => some ⟨true, true, 0, 6⟩
  | 0x09 => some ⟨true, false, 0, 25⟩
  | 0x0A | 0x0C | 0x0D => some ⟨true, true, 0, 25⟩
  | 0x10 => some ⟨false, false, 0, 25⟩
  | 0x11 | 0x12 => some ⟨false, true, 0, 25⟩
  | 0x13 => some ⟨true, false, 0, 25⟩
  | 0x14 => some ⟨false, true, 0, 0⟩
  | 0x15 | 0x17 | 0x19 => some ⟨false, false, 0, 0⟩
  | 0x16 | 0x18 => some ⟨false, false, 0, 8⟩
  | _ => none

/-- `pos` when the condition holds: the lowest bit of an offending field (R573). -/
def offends (cond : Bool) (pos : Nat) : List Nat := if cond then [pos] else []

/-- The offending fields of a header (R141). -/
def headerBad (h : Header) : List Nat := offends (h.hver != 0b011) 5 ++ offends (h.rsvd != 0) 2

/-- The offending fields of a scalar slot (R146). -/
def scalarBad (x : ScalarSlot) : List Nat :=
  match scalarUse x.op.toNat with
  | none => [35]
  | some u =>
    offends (!u.sd && x.sd != 0) 30 ++ offends (!u.sa && x.sa != 0) 25 ++
      offends (x.imm.toNat % 2 ^ u.immLo != 0) 0 ++ offends (x.imm.toNat / 2 ^ u.immHi != 0) u.immHi

/-- The offending fields of a matrix slot (R142, R149). -/
def matrixBad (x : MatrixSlot) : List Nat :=
  if x.op = 0 then
    if x = nopMatrix then []
    else
      offends (x.arr != 0) 58 ++ offends (x.tgt != 0) 56 ++ offends (x.shape != 0) 54 ++ offends (x.wmode != 0) 52 ++
        offends (x.afmt != 0) 51 ++ offends (x.offA != 0) 49 ++ offends (x.offW != 0) 47 ++ offends (x.chain != 0) 45 ++
        offends (x.grp != 0) 43 ++ offends (x.keep != 0) 42 ++ offends (x.sa != 0) 37 ++ offends (x.sw != 0) 32 ++
        offends (x.sacc != 0) 27 ++ offends (x.v != 0) 16 ++ offends (x.segs != 0) 14 ++ offends (x.rsvd != 0) 0
  else if x.op = 1 then
    offends (x.tgt == 3) 56 ++ offends (x.shape == 3) 54 ++ offends (x.offA == 3) 49 ++ offends (x.offW == 3) 47 ++
      offends (x.keep == 1 && x.sw != 0) 32 ++ offends (x.rsvd != 0) 0
  else [60]

/-- What a vector operation uses of its slot (R151 to R155). -/
structure VectorUse where
  /-- Bits of A that name a register: 5, 3 (a mask register) or 0. -/
  a : Nat
  b : Bool
  c : Bool
  d : Nat
  /-- The bits of IMM that the operation names. -/
  imm : Nat
  fmts : List Nat
  /-- Writes the tile store: CLASS may be non-zero and MASK must be m0 (R154). -/
  store : Bool
  /-- RND 0b11 is permitted (R155). -/
  sr : Bool
  /-- Narrows nothing: RND must be 0b00 (R155). -/
  exact : Bool
  /-- May carry a norm tag (R125). -/
  tag : Bool
  deriving DecidableEq, Repr

/-- The table of R153. -/
def vectorUse (op : Nat) : Option VectorUse :=
  match op with
  | 0x00 => some ⟨0, false, false, 0, 0, [0], false, false, true, false⟩
  | 0x01 | 0x02 | 0x04 | 0x05 | 0x06 | 0x07 | 0x08 => some ⟨5, true, true, 0, 0, [6, 8], false, false, true, true⟩
  | 0x03 => some ⟨3, true, true, 0, 0x7, [6, 8], false, false, true, false⟩
  | 0x09 | 0x0A => some ⟨5, true, false, 0, 0x3F, [6, 8], false, false, true, true⟩
  | 0x0B => some ⟨5, true, true, 3, 0, [6, 8], false, false, true, true⟩
  | 0x10 | 0x11 | 0x12 | 0x14 | 0x15 => some ⟨5, true, true, 0, 0, [0, 7], false, false, false, true⟩
  | 0x13 => some ⟨5, true, true, 5, 0, [0, 7], false, false, false, true⟩
  | 0x16 => some ⟨3, true, true, 0, 0x7, [0, 7], false, false, true, false⟩
  | 0x17 | 0x18 => some ⟨5, true, false, 0, 0, [0, 7], false, false, false, true⟩
  | 0x1C | 0x1D | 0x1E | 0x1F | 0x20 => some ⟨5, true, false, 0, 0, [0], false, false, false, true⟩
  | 0x24 => some ⟨5, true, false, 0, 0x1F, laneFormats, false, false, false, true⟩
  | 0x28 => some ⟨5, true, false, 0, 0x1FFFFF, elementFormats, false, false, false, true⟩
  | 0x29 => some ⟨5, true, true, 5, 0x1FFFFF, elementFormats, true, true, false, true⟩
  | 0x2C => some ⟨5, true, true, 5, 0x8000, blockFormats, true, true, false, true⟩
  | 0x2D => some ⟨5, true, true, 5, 0x1F8000, blockFormats, true, true, false, true⟩
  | 0x2E => some ⟨5, true, false, 0, 0x8000, blockFormats, false, false, true, true⟩
  | 0x30 | 0x31 | 0x32 | 0x33 => some ⟨5, true, false, 0, 0xF, [7], false, false, true, true⟩
  | 0x34 | 0x35 => some ⟨5, true, false, 0, 0xFF, [0], false, false, true, false⟩
  | 0x36 => some ⟨5, true, true, 0, 0, [0], false, false, true, false⟩
  | 0x37 => some ⟨5, true, true, 0, 0x1, [0], false, false, true, false⟩
  | 0x38 | 0x39 => some ⟨5, false, true, 0, 0, [7], false, false, true, true⟩
  | 0x3A => some ⟨0, true, true, 5, 0xFFFF, [0, 1, 2, 3, 4, 5, 6, 7], true, true, false, true⟩
  | 0x3C => some ⟨5, true, false, 0, 0xFFFF, [0], true, false, true, false⟩
  | _ => none

/-- The lowest set bit of a number below 2^28, for the position of an offending part of a field. -/
def lowestBit (n : Nat) : Nat := ((List.range 28).find? fun i => n.testBit i).getD 0

/-- The bit where an unused stretch of IMM begins: the boundaries of the parts of IMM that R153 names (0, 1, 3, 4, 5, 6, 8, 15, 16). -/
def immFieldStart (used bad : Nat) : Nat :=
  let b := lowestBit bad
  (([0, 1, 3, 4, 5, 6, 8, 15, 16].filter fun p => p ≤ b && (p == 0 || used.testBit (p - 1))).foldl max 0)

/-- The result format of a vector operation, for the rule on RND (R155). -/
def vectorResultFmt (x : VectorSlot) : Nat :=
  match x.op.toNat with
  | 0x24 => x.imm.toNat % 32
  | 0x28 => x.imm.toNat / 2 ^ 16
  | 0x2E => if x.imm.getLsbD 15 then 7 else 0
  | _ => x.fmt.toNat

/-- The offending fields of a vector slot (R142, R151 to R155). -/
def vectorBad (x : VectorSlot) : List Nat :=
  match vectorUse x.op.toNat with
  | none => [58]
  | some u =>
    let fmt := x.fmt.toNat
    let imm := x.imm.toNat
    let lane := imm / 2 ^ 16
    let used := if x.op = 0x24 ∧ (fmt = 8 ∨ imm % 32 = 8) then 0x1FFFFF else u.imm
    let stray := imm - (imm &&& used)
    offends (x.a.toNat / 2 ^ u.a != 0) (53 + u.a) ++ offends (!u.b && x.b != 0) 48 ++ offends (!u.c && x.c != 0) 43 ++
      offends (x.d.toNat / 2 ^ u.d != 0) (38 + u.d) ++
      offends ((u.store || x.op == 0) && x.mask != 0) 35 ++
      offends (x.rnd != 0 && (u.exact || vectorResultFmt x == 7)) 33 ++ offends (x.rnd == 3 && !u.sr) 33 ++
      offends (!u.fmts.contains fmt) 28 ++
      offends (x.ntag != 0 && (!u.tag || x.ntag.toNat < 16)) 23 ++
      offends (!u.store && x.cls != 0) 21 ++
      offends (stray != 0) (immFieldStart used stray) ++
      offends (x.op == 0x24 && !laneFormats.contains (imm % 32)) 0 ++
      offends ((x.op == 0x28 || x.op == 0x29) && (!laneFormats.contains lane || (lane == 8) != (fmt == 8))) 16 ++
      offends ((x.op == 0x03 || x.op == 0x16) && decide (5 < imm % 8)) 0 ++
      offends (decide (0x30 ≤ x.op.toNat ∧ x.op.toNat ≤ 0x33) && (imm % 16 == 0 || decide (8 < imm % 16))) 0

/-- The offending fields of a move slot (R156, R157). -/
def moveBad (x : MoveSlot) : List Nat :=
  let transfer := decide (1 ≤ x.op.toNat ∧ x.op.toNat ≤ 3)
  let xchg := x.op == 5 || x.op == 6
  if 6 < x.op.toNat then [44]
  else
    offends (!transfer && x.q != 0) 42 ++ offends (x.op == 0 && x.sa != 0) 37 ++
      offends (!transfer && x.sb != 0) 32 ++ offends (!(x.op == 1 || x.op == 2) && x.sc != 0) 27 ++
      offends (x.op != 2 && x.sd != 0) 22 ++ offends (!transfer && x.te != 0) 21 ++
      offends ((!transfer || x.te == 0) && x.tok != 0) 15 ++
      offends (!xchg && x.imm != 0) 0 ++ offends (xchg && decide (8 ≤ x.imm.toNat)) 3

/-- The bit where the field of a sync slot that holds an unused bit begins: after a used bit, or where R159 begins a field of some
operation. -/
def syncFieldStart (used bad : Nat) : Nat :=
  let b := lowestBit bad
  ((List.range 28).filter fun p => p ≤ b && ([0, 5, 17, 19, 20, 21, 22, 24].contains p || used.testBit (p - 1))).foldl max 0

/-- The bits below OP that a sync operation uses (R159). -/
def syncUsed (x : SyncSlot) : Nat :=
  match x.op.toNat with
  | 1 => if x.body.getLsbD 20 then 0xFF0001F else 0xFFFFFFF
  | 2 => 0xFFEFFFF
  | 3 => 0xF000000
  | 4 => 0xFCFFFFF
  | 5 | 6 => 0xFF80000
  | _ => 0

/-- The offending fields of a sync slot (R159). -/
def syncBad (x : SyncSlot) : List Nat :=
  let n := x.body.toNat
  let stray := n - (n &&& syncUsed x)
  if 6 < x.op.toNat then [28]
  else offends (stray != 0) (syncFieldStart (syncUsed x) stray) ++ offends (x.op == 2 && n % 2 ^ 16 == 0) 0

/-! ### The slot that a reserved encoding names (R573) -/

/-- The slots of a bundle with their SLOT codes and their offending fields, in the order of R573. -/
def slotFindings (b : Bundle) : List (Nat × List Nat) :=
  [(1, headerBad b.hdr), (2, scalarBad b.scalar), (3, matrixBad b.matrix), (4, vectorBad b.vector), (5, moveBad b.move),
   (6, syncBad b.sync)]

/-- Whether a bundle with TESTWIN holds any other operation (R170). -/
def testwinShared (b : Bundle) : Bool :=
  b.scalar.op == 0x17 && (b.matrix.op != 0 || b.vector.op != 0 || b.move.op != 0 || b.sync.op != 0)

/-- The reserved encoding of a bundle, as SLOT and DETAIL: the offending slot with the lowest SLOT code and its lowest field, then
the rule of the whole bundle (R170, R573). -/
def reservedEncoding (b : Bundle) : Option (Nat × Nat) :=
  match (slotFindings b).find? fun f => !f.2.isEmpty with
  | some (slot, fields) => some (slot, fields.foldl min 64)
  | none => if testwinShared b then some (0, 0) else none

/-- Whether a bundle holds a variable operation: CLAIM or XCHGA (R166). -/
def isVariable (b : Bundle) : Bool := b.sync.op == 5 || b.move.op == 6

/-- Whether the bundle breaks the V-mark rule (R167). -/
def vmarkBad (b : Bundle) : Bool := b.hdr.v != isVariable b

/-- The general registers that the slots of a bundle write, s0 left out (R143, R145). -/
def scalarDests (b : Bundle) : List (BitVec 5) :=
  let sc := if [0x01, 0x02, 0x03, 0x04, 0x05, 0x06, 0x07, 0x08, 0x09, 0x0A, 0x0B, 0x0C, 0x0E, 0x0F, 0x13].contains b.scalar.op.toNat
    then [b.scalar.sd] else []
  let sy := if b.sync.op = 5 then [b.sync.body.extractLsb' 19 5] else []
  (sc ++ sy).filter (· != 0)

end Sys2Proof
end

