-- ==== Sys2Proof/Machine/Sparse.lean ====
section
/-!
DEFINITION. Reading and writing a sparse map (keys strictly rising, no entry equal to the map's default), bytes and words in the
little-endian order of R14, and small list helpers.
-/

namespace Sys2Proof.Machine

/-- The entry of a key; the default when the key is not listed. -/
def mget {α : Type} (d : α) : SMap α → Nat → α
  | [], _ => d
  | (k, v) :: m, i => if k = i then v else mget d m i

/-- The map without a key. -/
def mdel {α : Type} : SMap α → Nat → SMap α
  | [], _ => []
  | (k, v) :: m, i => if k = i then mdel m i else (k, v) :: mdel m i

/-- The map with an entry put before the first greater key. -/
def mins {α : Type} : SMap α → Nat → α → SMap α
  | [], i, x => [(i, x)]
  | (k, v) :: m, i, x => if i < k then (i, x) :: (k, v) :: m else (k, v) :: mins m i x

/-- The map with one entry set; an entry equal to the default is not listed. -/
def mset {α : Type} [DecidableEq α] (d : α) (m : SMap α) (i : Nat) (x : α) : SMap α :=
  if x = d then mdel m i else mins (mdel m i) i x

/-- The map with one entry changed by a function. -/
def mmod {α : Type} [DecidableEq α] (d : α) (m : SMap α) (i : Nat) (f : α → α) : SMap α :=
  mset d m i (f (mget d m i))

/-- Whether a map is in canonical form: keys strictly rising, no entry equal to the default. -/
def mwf {α : Type} [DecidableEq α] (d : α) : SMap α → Bool
  | [] => true
  | [(_, v)] => decide (v ≠ d)
  | (k, v) :: (k', v') :: m => decide (v ≠ d) && decide (k < k') && mwf d ((k', v') :: m)

/-! ### Bytes and words (R14) -/

/-- A number from bytes, the first the least significant. -/
def fromBytes : List Byte → Nat
  | [] => 0
  | b :: bs => b.toNat + 256 * fromBytes bs

/-- The low `n` bytes of a number, the least significant first. -/
def toBytes : Nat → Nat → List Byte
  | 0, _ => []
  | n + 1, x => BitVec.ofNat 8 (x % 256) :: toBytes n (x / 256)

/-- The bits of a number from `lo`, `len` of them. -/
def nbits (x lo len : Nat) : Nat := x / 2 ^ lo % 2 ^ len

/-- A field of a word. -/
abbrev fld {w : Nat} (x : BitVec w) (lo len : Nat) : Nat := nbits x.toNat lo len

/-- Element `i` of a list of elements of `w` bits packed low first (R39, R48). -/
def packedElem (bytes : List Byte) (w i : Nat) : Nat := nbits (fromBytes bytes) (w * i) w

/-- Elements of `w` bits packed low first into a number (R39, R48). -/
def packElems (w : Nat) : List Nat → Nat
  | [] => 0
  | x :: xs => x % 2 ^ w + 2 ^ w * packElems w xs

/-- A signed number from `w` bits. -/
def signed (w x : Nat) : Int := if x % 2 ^ w < 2 ^ (w - 1) then (x % 2 ^ w : Nat) else (x % 2 ^ w : Nat) - (2 ^ w : Nat)

/-- The `w`-bit pattern of an integer. -/
def unsigned (w : Nat) (x : Int) : Nat := (x % (2 ^ w : Nat)).toNat

/-- Consecutive runs of `n` elements. `fuel` bounds the runs. -/
def chunksOf {α : Type} (n : Nat) : Nat → List α → List (List α)
  | 0, _ => []
  | _, [] => []
  | f + 1, x :: xs => (x :: xs).take n :: chunksOf n f ((x :: xs).drop n)

/-- The element at a position, or a default. -/
abbrev nth {α : Type} (l : List α) (i : Nat) (d : α) : α := l[i]?.getD d

/-- The list with the element at a position replaced (unchanged beyond its end). -/
abbrev setAt {α : Type} (l : List α) (i : Nat) (x : α) : List α := l.set i x

/-- Whether two ranges share a byte. -/
def rangesOverlap (a n b m : Nat) : Bool := decide (0 < n) && decide (0 < m) && decide (a < b + m) && decide (b < a + n)

/-- A counter that stops at its largest value (R58, R216). -/
def satAdd (w : Nat) (x : BitVec w) (n : Nat) : BitVec w := BitVec.ofNat w (min (x.toNat + n) (2 ^ w - 1))

end Sys2Proof.Machine
end

