-- ==== Sys2Proof/Machine/Ecc.lean ====
section
/-!
DEFINITION. The DRAM code RS(36,32) over GF(2^16) (R190, R191), the SEC-DED code of the on-die SRAMs by the flips of a word (R196), the
test words of their checkers (R208), and the CRCs of the device.
-/

namespace Sys2Proof.Machine

/-! ### GF(2^16) with x^16 + x^12 + x^3 + x + 1 (R190) -/

/-- Multiplication by α = 2. -/
def gfDouble (x : Nat) : Nat := if x < 2 ^ 15 then 2 * x else (2 * x) ^^^ 0x1100B

/-- Multiplication, `fuel` bits of the second factor from its lowest. -/
def gfMulGo : Nat → Nat → Nat → Nat → Nat
  | 0, _, _, acc => acc
  | f + 1, a, b, acc => gfMulGo f (gfDouble a) (b / 2) (if b % 2 = 1 then acc ^^^ a else acc)

/-- Multiplication in the field. -/
def gfMul (a b : Nat) : Nat := gfMulGo 16 a b 0

/-- α to a power, by doublings. -/
def gfPow : Nat → Nat
  | 0 => 1
  | n + 1 => gfDouble (gfPow n)

/-- x^(2^n - 1) with the power x^(2^n) carried, for the inverse. -/
def gfInvGo : Nat → Nat → Nat → Nat
  | 0, _, acc => acc
  | n + 1, sq, acc => let sq' := gfMul sq sq; gfInvGo n sq' (gfMul acc sq')

/-- The inverse of a non-zero element: x^(2^16 - 2). -/
def gfInv (x : Nat) : Nat := gfInvGo 15 x 1

/-- A polynomial, its coefficient of x^0 first, times (x + a). -/
def polyTimes (g : List Nat) (a : Nat) : List Nat := List.zipWith (· ^^^ ·) (0 :: g) (g.map (gfMul a) ++ [0])

/-- The generator g = (x + 1)(x + α)(x + α^2)(x + α^3), coefficient of x^0 first (R190). -/
def rsGenerator : List Nat := (List.range 4).foldl (fun g k => polyTimes g (gfPow k)) [1]

/-- The remainder of a polynomial modulo g, one coefficient further: r·x + d·x^4 mod g. -/
def rsShift (r : List Nat) (d : Nat) : List Nat :=
  let f := d ^^^ r.getD 3 0
  List.zipWith (fun x g => x ^^^ gfMul f g) (0 :: r.take 3) (rsGenerator.take 4)

/-- rs_encode: the check symbols p[0] to p[3] of the data symbols d[0] to d[31] (R190). -/
def rsEncode (d : List Nat) : List Nat := d.reverse.foldl rsShift [0, 0, 0, 0]

/-- The codeword of the data symbols: position j holds p[j], position 4 + i holds d[i] (R190). -/
def codeword (d : List Nat) : List Nat := rsEncode d ++ d

/-- The data symbols of a granule: symbol i is bits [16i + 15 : 16i] (R190). -/
def dataSymbols (bytes : List (BitVec 8)) : List Nat :=
  (List.range 32).map fun i => (bytes.getD (2 * i) 0).toNat + 256 * (bytes.getD (2 * i + 1) 0).toNat

/-- Syndrome S_k of an error pattern: positions 0 to 35 and their values (R190). -/
def syndrome (e : List (Nat × Nat)) (k : Nat) : Nat :=
  e.foldl (fun acc (p, v) => acc ^^^ gfMul v (gfPow (p * k))) 0

/-- What the decoder finds in a word (R191): nothing, a correction of at most two symbols, or an uncorrectable word. -/
inductive RsResult where
  | clean
  | corrected (fix : List (Nat × Nat))
  | uncorrectable
  deriving DecidableEq, Repr

/-- The positions of a word. -/
def rsPositions : List Nat := List.range 36

/-- The decoder of R191 on the four syndromes. -/
def rsDecode (s0 s1 s2 s3 : Nat) : RsResult :=
  if s0 = 0 ∧ s1 = 0 ∧ s2 = 0 ∧ s3 = 0 then .clean
  else
    match rsPositions.find? fun j =>
      let a := gfPow j
      s0 != 0 && s1 == gfMul s0 a && s2 == gfMul s1 a && s3 == gfMul s2 a with
    | some j => .corrected [(j, s0)]
    | none =>
      let d := gfMul s1 s1 ^^^ gfMul s0 s2
      let p := gfMul s1 s2 ^^^ gfMul s0 s3
      let q := gfMul s1 s3 ^^^ gfMul s2 s2
      if d = 0 then .uncorrectable
      else
        match rsPositions.filter fun j =>
          let a := gfPow j
          gfMul d (gfMul a a) ^^^ gfMul p a ^^^ q == 0 with
        | [i, j] =>
          let a := gfPow i
          let b := gfPow j
          let ej := gfMul (s1 ^^^ gfMul a s0) (gfInv (a ^^^ b))
          .corrected [(i, s0 ^^^ ej), (j, ej)]
        | _ => .uncorrectable

/-- One pattern XORed onto another, zero values dropped. -/
def patternXor (a b : List (Nat × Nat)) : List (Nat × Nat) :=
  (rsPositions.map fun p => (p, (a ++ b).foldl (fun acc (q, v) => if q = p then acc ^^^ v else acc) 0)).filter fun x => x.2 != 0

/-- The decoder on an error pattern. The code is linear, so the pattern decides. -/
def rsOfPattern (e : List (Nat × Nat)) : RsResult := rsDecode (syndrome e 0) (syndrome e 1) (syndrome e 2) (syndrome e 3)

/-- The decoder on a received word: its syndromes are c(α^k) (R190, R191). -/
def rsReceive (c : List Nat) : RsResult := rsOfPattern (c.zipIdx.map fun (v, p) => (p, v))

/-- XOR a pattern onto the 64 data bytes of a granule: position 4 + i holds data symbol i (R190). -/
def applyPattern (bytes : List (BitVec 8)) (e : List (Nat × Nat)) : List (BitVec 8) :=
  bytes.zipIdx.map fun (b, n) =>
    let v := e.foldl (fun acc (p, x) => if p = 4 + n / 2 then acc ^^^ x else acc) 0
    b ^^^ BitVec.ofNat 8 (nbits v (8 * (n % 2)) 8)

/-- The majority of the three copies in a metadata byte (R192). -/
def metaMark (m : BitVec 8) : Bool := decide (2 ≤ (m.getLsbD 0).toNat + (m.getLsbD 1).toNat + (m.getLsbD 2).toNat)

/-- The metadata byte that a mark is stored as (R192). -/
def metaByte (p : Bool) : BitVec 8 := if p then 7 else 0

/-! ### The SRAM code (R196) -/

/-- What the SEC-DED checker finds in a word (R196): nothing, a word that it corrects, with the flips that are left after its correction,
or an uncorrectable word. -/
inductive SramResult where
  | clean
  | corrected (left : BitVec 72)
  | uncorrectable
  deriving DecidableEq, Repr

/-- The number of flipped bits. -/
def flipCount (e : BitVec 72) : Nat := ((List.range 72).map fun i => (e.getLsbD i).toNat).sum

/-- The checker on the flips of a word (R196): one is corrected, two are detected. The spec states no outcome for three or more: the free
value decides there. -/
def secded (e : BitVec 72) : SramResult :=
  if e = 0 then .clean
  else match flipCount e with
    | 1 => .corrected 0
    | 2 => .uncorrectable
    | _ => match Config.sramBeyond e with
      | some left => .corrected left
      | none => .uncorrectable

/-! ### The checkers' test words (R208) -/

/-- The codeword that the RS tests start from. -/
def testCodeword : List Nat := codeword ((List.range 32).map fun i => 257 * i + 1)

/-- A word with a pattern XORed onto it. -/
def flipSymbols (c : List Nat) (e : List (Nat × Nat)) : List Nat :=
  c.zipIdx.map fun (v, p) => e.foldl (fun v (q, x) => if q = p then v ^^^ x else v) v

/-- The RS decoder on its test words (R208): a clean word, an error in each position, in (0, 35) and (17, 18), and three symbols. -/
def rsSelfTest : Bool :=
  rsReceive testCodeword == .clean &&
    (rsPositions.all fun p => rsReceive (flipSymbols testCodeword [(p, 0x8001)]) == .corrected [(p, 0x8001)]) &&
    ([(0, 35), (17, 18)].all fun (p, q) =>
      rsReceive (flipSymbols testCodeword [(p, 0x8001), (q, 0x0101)]) == .corrected [(p, 0x8001), (q, 0x0101)]) &&
    rsReceive (flipSymbols testCodeword [(0, 1), (1, 1), (2, 1)]) == .uncorrectable

/-- The metadata vote on its test words (R208): with one copy flipped the mark stays, with two it is the flipped one. -/
def metaSelfTest : Bool :=
  [true, false].all fun p => ([1, 2, 4].all fun f => metaMark (metaByte p ^^^ f) == p) &&
    [3, 5, 6].all fun f => metaMark (metaByte p ^^^ f) == !p

/-- The SRAM checker on its test words (R208): a flip in every position, and a double one. -/
def sramSelfTest : Bool :=
  ((List.range 72).all fun i => secded (BitVec.twoPow 72 i) == .corrected 0) && secded 3 == .uncorrectable

/-! ### CRCs -/

/-- CRC-64, ECMA-182 polynomial, most significant bit first: `n` shifts. -/
def crc64Shift : Nat → Nat → Nat
  | 0, c => c
  | n + 1, c => crc64Shift n (if c < 2 ^ 63 then 2 * c else (2 * c - 2 ^ 64) ^^^ 0x42F0E1EBA9EA3693)

/-- CRC-64 of bytes: initial value 0, no reflection, no final exclusive-or (R364). -/
def crc64 (bytes : List (BitVec 8)) : BitVec 64 :=
  BitVec.ofNat 64 (bytes.foldl (fun c b => crc64Shift 8 (c ^^^ (b.toNat * 2 ^ 56))) 0)

/-- CRC-32C, reflected: `n` shifts. -/
def crc32Shift : Nat → Nat → Nat
  | 0, c => c
  | n + 1, c => crc32Shift n (if c % 2 = 1 then (c / 2) ^^^ 0x82F63B78 else c / 2)

/-- CRC-32C of bytes (the published Castagnoli CRC). -/
def crc32c (bytes : List (BitVec 8)) : BitVec 32 :=
  BitVec.ofNat 32 ((bytes.foldl (fun c b => crc32Shift 8 (c ^^^ b.toNat)) 0xFFFFFFFF) ^^^ 0xFFFFFFFF)

end Sys2Proof.Machine
end

