-- ==== Sys2Proof/Machine/State.lean ====
section
/-!
DEFINITION. The state of the device as plain data. Every register, buffer, queue, counter, mode and pin that the spec names stands
here; the default of each field is its value right after reset (the spec's where it gives one, else the value a log entry names).
-/

namespace Sys2Proof.Machine

/-! ### Reasons to stop -/

/-- No command of this block stops the machine: a fault of the spec is a record and a refused operation (R452, R457), a next state.
The type therefore has no constructor, and no meaning raises it. -/
inductive Fault where
  deriving DecidableEq, Repr

/-- Why a command has no meaning. -/
inductive Refusal where
  /-- Raised by an arm of exec alone: the command of that mnemonic has no meaning yet. Safe: nothing is claimed of it. -/
  | notModelled (mnemonic : String)
  deriving DecidableEq, Repr

/-! ### Small parts -/

/-- A byte with the poison mark of the data it belongs to (R111, R200). -/
abbrev PByte := Byte × Bool

/-- One lane of a vector register: 64 bits and a poison bit (R117). -/
structure Lane where
  val : Word := 0
  psn : Bool := false
  deriving DecidableEq, Repr

/-- A side accumulator (R125, R126): SSQ and AMAX in Z56, NF, and whether a poisoned lane has been added. -/
structure SideAcc where
  ssq : Word := 0
  amax : Word := 0
  nf : BitVec 32 := 0
  psn : Bool := false
  deriving DecidableEq, Repr

/-- NUM_CNT (R58), and the events of the cycle in which it last counted (R59). -/
structure NumCnt where
  nonfin : BitVec 32 := 0
  sat : BitVec 32 := 0
  lastAt : Nat := 0
  nonfinNow : Nat := 0
  satNow : Nat := 0
  deriving DecidableEq, Repr

/-- SEQ_EXC (R177). -/
structure Exc where
  bundle : BitVec 32 := 0
  slot : BitVec 3 := 0
  detail : BitVec 8 := 0
  cause : BitVec 8 := 0
  deriving DecidableEq, Repr

/-- SEQ_STAT.STATE (R138). -/
inductive SeqState where
  | idle
  | running
  | holding
  | window
  | halted
  deriving DecidableEq, Repr

/-- The hold bits of SEQ_STAT (R138, R139). -/
structure Holds where
  fetch : Bool := false
  sync : Bool := false
  desc : Bool := false
  move : Bool := false
  vec : Bool := false
  mat : Bool := false
  deriving DecidableEq, Repr

/-- A fetched bundle (R134): its number, bits, and whether it came poisoned or uncorrectable (R136). -/
structure Fetched where
  num : Nat
  bits : BitVec 256
  bad : Bool
  deriving DecidableEq, Repr

/-- The parameters of a pass as its bundle captured them (R88, R143, R150). -/
structure PassParams where
  half : Nat
  shape : Nat
  wmode : Nat
  afmt : Nat
  offA : Int
  offW : Int
  chain : Nat
  grp : Nat
  keep : Bool
  v : Nat
  segs : Nat
  aSig : Nat
  aExp : Nat
  aPitch : Nat
  wSig : Nat
  wExp : Nat
  accBase : Nat
  accStride : Nat
  deriving DecidableEq, Repr

/-- How a pass ended (R104, R105): its results stand, it consumed poison, or a residue mismatch failed it. -/
inductive PassStatus where
  | ok
  | poison
  | residue
  deriving DecidableEq, Repr

/-- A tile in the tile store: the starts of its significands and exponents, and its weight mode (R150). -/
abbrev TileSource := Nat × Nat × Nat

/-- The sources of the weights in the left and the right columns of an array (R442): each half may have loaded its own tile (R93). -/
abbrev TileSources := Option TileSource × Option TileSource

/-- A pass that has been issued (R96, R101): its issue number, its bundle, whether its first vector has entered (it has left the queue),
whether its last result has been written, its status, and the sources of the weights that its vectors meet once it has started. -/
structure Pass where
  seq : Nat
  bundle : BitVec 32
  par : PassParams
  started : Bool := false
  fin : Bool := false
  status : PassStatus := .ok
  met : TileSources := (none, none)
  deriving DecidableEq, Repr

/-- A register of a cell (R74, R102): the weight significands of its slots in one byte, SB4 widened, and beside it the residue modulo 15
of each. -/
structure CellReg where
  sig : Byte := 0
  res : List Nat := []
  deriving DecidableEq, Repr

/-- A physical row of cells. -/
abbrev CellRow := List CellReg

/-- What the fold stages of one segment and slot hold, by physical column (R75, R105): the exponent of the weight block, and whether one of
its significands or its exponent is poisoned. -/
structure StageSet where
  exps : SMap (List PByte) := []
  /-- Poison of the significands, by physical row and column. -/
  psn : SMap (List Bool) := []
  deriving DecidableEq, Repr

/-- A target of an array: the array whole or one half (R93), with its passes and the next tile on its way: the shadow registers of its cells
(R74), and the pending sets of its fold stages, at most two, the older first (R75). The stationary registers `active`, the active set `stage`,
their weight mode and the source of the tile stand at the half that the columns belong to, whichever target loaded them. -/
structure HalfUnit where
  passes : List Pass := []
  chainOpen : Bool := false
  chainLen : Nat := 0
  failed : Bool := false
  recurred : Bool := false
  fault : Option ArrayFault := none
  tile : Option TileSource := none
  /-- The sources in force before the oldest chain began: a replay starts from them (R101). -/
  chainTile : TileSources := (none, none)
  shadow : SMap CellRow := []
  pend : List StageSet := []
  active : SMap CellRow := []
  stage : StageSet := {}
  actMode : Nat := 0
  /-- The status of the pass of this target that completed last (R105). -/
  lastStatus : PassStatus := .ok
  deriving DecidableEq, Repr

/-- An array of a core, by logical index (R20, R96): its targets, whether it refuses passes (R443), the start slot of its latest ramp
(R472) and the cycle of the last vector admitted (R471). -/
structure ArrayUnit where
  halves : SMap HalfUnit := []
  refuse : Bool := false
  rampStart : Option Nat := none
  lastVector : Option Nat := none
  deriving DecidableEq, Repr

/-- The kinds of transfer of a move engine (R129, R156, R358). -/
inductive TransferKind where
  | copy
  | scopy
  | gather
  | openV
  | publish
  deriving DecidableEq, Repr

/-- A transfer in its queue (R129 to R131), with the register values its bundle captured. -/
structure Transfer where
  kind : TransferKind
  src : Nat
  dst : Nat
  rows : Nat
  rowLen : Nat
  srcPitch : Nat
  dstPitch : Nat
  desc : Desc
  te : Bool
  tok : BitVec 6
  seq : Nat
  bundle : BitVec 32
  ran : Bool
  deriving DecidableEq, Repr

/-- A tile store write that has issued and waits (R84, R101, R114). -/
structure HeldWrite where
  seq : Nat
  addr : Nat
  bytes : List PByte
  deriving DecidableEq, Repr

/-- A SIGNAL whose increment has not left the core (R161). -/
structure Signal where
  seq : Nat
  dst : Nat
  tok : BitVec 6
  inc : BitVec 16
  deriving DecidableEq, Repr

/-- A descriptor in one of a core's 64 places (R133, R157): eng is the exchange engine of an XCHG or XCHGA, `addr` where it was read, `cycle`
when it was sent, `step` the core's step register then. -/
structure PlacedDesc where
  desc : Desc
  psn : Bool
  eng : Option (Nat × Bool)
  seq : Nat
  addr : Nat
  cycle : Nat
  step : BitVec 32
  bundle : BitVec 32
  deriving DecidableEq, Repr

/-- A core (R20, chapters 03 to 05). -/
structure Core where
  sregs : SMap Word := []
  sReady : SMap Nat := []
  vregs : SMap (List Lane) := []
  vReady : SMap Nat := []
  masks : SMap (BitVec 256) := []
  mReady : SMap Nat := []
  side : SMap SideAcc := []
  tokens : SMap (BitVec 32) := []
  /-- The increments that reached each counter in cycle `incAt` (R160), and the counter whose overflow waits for the core's next bundle
  (R162). -/
  incs : SMap Nat := []
  incAt : Nat := 0
  overflow : Option Nat := none
  step : BitVec 32 := 0
  pc : BitVec 32 := 0
  st : SeqState := .idle
  exc : Exc := {}
  waitTmo : BitVec 32 := 0x000F4240
  vrefuse : Bool := false
  brkEn : Bool := false
  brkSkip : Bool := false
  fill : BitVec 32 := 0
  ringLo : BitVec 32 := 0
  fetched : List Fetched := []
  earliest : Nat := 0
  /-- The cycle in which the core issued its last bundle (R135), and the bundle that it holds at (R139); none while fetch has not given it. -/
  issuedAt : Option Nat := none
  heldAt : Option Bundle := none
  phase : BitVec 8 := 0
  seqNo : Nat := 0
  queues : SMap (List Transfer) := []
  descs : List PlacedDesc := []
  heldWrites : List HeldWrite := []
  signals : List Signal := []
  waitStart : Option Nat := none
  barWait : Option (BitVec 4 × BitVec 32) := none
  barLate : List (BitVec 4 × BitVec 32) := []
  twCount : Nat := 0
  twHere : Bool := false
  preWindow : SeqState := .idle
  /-- The cycle in which the running window began (R171), the step at it, and whether a forced window has begun since the pair was due. -/
  winStart : Option Nat := none
  winStep : BitVec 32 := 0
  winForced : Bool := false
  /-- The step at which the core's last passing window began (R440). -/
  lastPass : BitVec 32 := 0
  numCnt : NumCnt := {}
  arrays : SMap ArrayUnit := []
  droopCut : Bool := false
  deriving DecidableEq, Repr

/-! ### Error records and register pages -/

/-- An error record (R452). -/
structure Rec where
  code : BitVec 8
  kind : BitVec 3
  uclass : BitVec 4
  uinst : BitVec 12
  step : BitVec 32 := 0
  opid : Word := 0
  time : Word := 0
  addr : BitVec 48 := 0
  count : BitVec 32 := 1
  detail : BitVec 32 := 0
  temp : BitVec 12 := 0
  volt : BitVec 16 := 0
  rank : BitVec 10 := 0
  rseq : BitVec 32 := 0
  deriving DecidableEq, Repr

/-- The common header of a register page (R524 to R533). -/
structure Page where
  errStat : BitVec 9 := 0
  errEn : BitVec 7 := 0x7F
  forceCode : BitVec 8 := 0
  errRec : List Word := []
  lastKind : BitVec 3 := 0
  op : BitVec 8 := 0
  failed : Bool := false
  done : Bool := false
  active : Bool := false
  pos : Nat := 0
  tot : Nat := 0
  t0 : Word := 0
  disabled : Bool := false
  deriving DecidableEq, Repr

/-- What an agent last latched of a page: words 1 to 7 of ERR_REC, PROG_POS and PROG_TOT (R531, R532). -/
structure Snapshot where
  errRec : List Word := []
  pos : Word := 0
  tot : Word := 0
  deriving DecidableEq, Repr

/-! ### Vaults -/

/-- A remap word (R203). -/
structure RemapWord where
  source : BitVec 3
  spare : BitVec 4
  page : BitVec 13
  bank : BitVec 5
  die : BitVec 3
  deriving DecidableEq, Repr

/-- A directory entry of a hot-row slice (R255) and the three copies of its clean bit (R198). -/
structure HotEntry where
  valid : Bool := false
  pin : Bool := false
  need : BitVec 3 := 0
  age : BitVec 3 := 0
  tag : BitVec 15 := 0
  clean : BitVec 3 := 0
  deriving DecidableEq, Repr

/-- VLT_INJ (R218). -/
structure Inject where
  arm : Bool := false
  mode : BitVec 3 := 0
  sym0 : BitVec 6 := 0
  sym1 : BitVec 6 := 0
  sym2 : BitVec 6 := 0
  granule : BitVec 32 := 0
  deriving DecidableEq, Repr

/-- A vault: controller, row unit and hot-row slice (chapters 06 to 08). -/
structure Vault where
  scrubAct : Bool := false
  stFail : Bool := false
  stDone : Bool := false
  remapFull : Bool := false
  otstop : Bool := false
  rmode : BitVec 2 := 0
  hotdie : BitVec 3 := 0
  temp : BitVec 11 := 0
  retry : BitVec 16 := 0
  ue : BitVec 16 := 0
  ce : BitVec 32 := 0
  passes : BitVec 32 := 0
  interval : BitVec 8 := 0x0C
  scrubEn : Bool := true
  scrubPos : Nat := 0
  inj : Inject := {}
  remap : List RemapWord := []
  /-- Spare pages, by die and number, that were found failing (R204, R209): no word names them again. -/
  badSpares : List (Nat × Nat) := []
  row : Nat := 0
  temps : List (Nat × Nat) := []
  refreshPtr : SMap Nat := []
  dir : SMap HotEntry := []
  hit : BitVec 32 := 0
  miss : BitVec 32 := 0
  pfDrop : BitVec 32 := 0
  pinRej : BitVec 16 := 0
  applied : BitVec 32 := 0
  nfrow : BitVec 16 := 0
  clip : BitVec 16 := 0
  hwm : BitVec 32 := 0
  ledUsed : BitVec 32 := 0
  numCnt : NumCnt := {}
  sliceOff : Bool := false
  detWindow : Nat := 0
  detCount : Nat := 0
  detSkipped : Nat := 0
  detFirst : Option (BitVec 12 × BitVec 48) := none
  detDies : BitVec 8 := 0
  lastRead : Option (List PByte) := none
  deriving DecidableEq, Repr

/-! ### Embedding, ledger and exchange -/

/-- A Teasel unit's counters (R267, R307). -/
structure Teasel where
  rejects : BitVec 16 := 0
  descFlt : BitVec 16 := 0
  clip : BitVec 32 := 0
  nfval : BitVec 32 := 0
  deriving DecidableEq, Repr

/-- One feature's part of an accepted batch (R234). -/
structure Part where
  offsets : List Nat
  rows : List Nat
  weights : List (BitVec 32)
  deriving DecidableEq, Repr

/-- An accepted batch (R236, R237): its step and its parts in feature order. -/
structure Batch where
  step : BitVec 32
  parts : List Part
  micro : List Nat
  session : BitVec 32
  deriving DecidableEq, Repr

/-- A lookup at its requester (R240 to R253). -/
structure Lookup where
  descId : BitVec 16
  batch : BitVec 32
  desc : Desc
  core : Nat
  unit : Nat
  waiting : List Nat
  granted : List Nat
  resps : List (Nat × List RespRecord)
  outDone : Bool
  closed : Bool
  deriving DecidableEq, Repr

/-- A SEAL, APPLY or COMMIT whose token is still to be added: the unit that took it, the core and token, and its identity. -/
structure LedgerTok where
  unit : Nat
  core : Nat
  tok : BitVec 6
  descId : BitVec 16
  deriving DecidableEq, Repr

/-- A ledger bank's bookkeeping in the row and Teasel units (R277 to R297, R302, R303); the head and slots lie in device memory.
`used` gives each row's slot + 1 by local index; `ran` tells that the slots have been applied, `applied` that the APPLY completed. -/
structure Bank where
  step : BitVec 32 := 0
  state : BitVec 3 := 0
  decided : Bool := false
  decide : BitVec 2 := 0
  xs : Int := 0
  xn : Int := 0
  k : Word := 0
  trows : Nat := 0
  used : SMap Nat := []
  capFault : Bool := false
  late : Bool := false
  markers : List (Nat × Nat) := []
  got : SMap Nat := []
  sent : SMap Nat := []
  ed : Option Int := none
  sealIssued : Bool := false
  sealTok : Option LedgerTok := none
  /-- This device's part of the totals, formed when the bank was sealed (R288). -/
  totals : SealTotals := ⟨none, [], 0, 0⟩
  /-- The APPLYs that have not completed, oldest first. -/
  applies : List LedgerTok := []
  ran : Bool := false
  applied : Bool := false
  committed : Bool := false
  deriving DecidableEq, Repr

/-- A descriptor that waits for its unit, the core that sent it and when (GRAD and SEAL for their bank R282, R286; SNAP R371; a lookup
R242). -/
structure WaitingDesc where
  core : Nat
  desc : Desc
  sent : Nat
  deriving DecidableEq, Repr

/-- A payload whose reads wait at its owner (R230, R248, R252), the engine that received it, and what its pooling will meet (R436). -/
structure WaitingPayload where
  msg : PayloadMsg
  eng : Nat
  fault : UnitFault
  deriving DecidableEq, Repr

/-- A scale source of a job: X_t for the step named (R274). -/
structure Scale where
  step : BitVec 32
  x : Int
  deriving DecidableEq, Repr

/-- A PIN, IMPORT or EXPORT that its unit has accepted (R262): its descriptor, the unit, the step register that its record names (R453), and
whether its writes have been made. -/
structure RowJob where
  descId : BitVec 16
  tok : BitVec 6
  core : Nat
  table : Nat
  desc : Desc
  unit : Nat
  step : BitVec 32
  ran : Bool
  deriving DecidableEq, Repr

/-- A COMMIT that waits for its step's applies (R302). -/
structure CommitWait where
  step : BitVec 32
  crec : Nat
  tok : LedgerTok
  deriving DecidableEq, Repr

/-- A value of a collective on its way (R338, R342): Z56 bits, or a sum of L64 integers in two's complement, wide enough for every group. -/
structure XLane where
  val : BitVec 128 := 0
  psn : Bool := false
  deriving DecidableEq, Repr

/-- An exchange operation in progress (R336 to R345). -/
structure XOp where
  step : BitVec 32
  descId : BitVec 16
  desc : Desc
  core : Nat
  eng : Nat
  adaptive : Bool
  /-- 1 PUT, 2 reduce-scatter, 3 all-gather, 4 all-reduce. -/
  kind : Nat
  /-- Index of the current axis in the list of selected axes; the number of axes when the reduction is over. -/
  stage : Nat
  lo : Nat
  len : Nat
  /-- This member's current values, element lo first. -/
  vals : List XLane
  /-- Elements of this member's own chunk that are final in the current stage. -/
  got : SMap (Option XLane)
  /-- Packets of partials that arrived before their stage began. -/
  early : List Packet
  /-- Elements that this member has begun, folded, forwarded or kept in the current stage. -/
  handled : Nat
  /-- Packets that wait for a grant, with the member each goes to and the marks of its bytes (R341). -/
  outbox : List (Nat × Packet × List Bool)
  /-- Whether this member's first packet, which carries the CRC of R343, has left. -/
  sentCrc : Bool
  /-- Group ranks whose gathered piece has been written. -/
  gathered : List Nat
  gathering : Bool
  written : Bool
  /-- Segments that ring predecessors are still to be granted, as rank and number (R341). -/
  owed : List (Nat × Nat)
  deriving DecidableEq, Repr

/-- A message, or a packet, that leaves the device (R329): the destination rank, or the port for link packets. -/
inductive OutMsg where
  | count (dst : Nat) (m : CountMsg)
  | payload (dst : Nat) (m : PayloadMsg)
  | response (dst : Nat) (m : RespMsg)
  | prefetch (dst : Nat) (m : PrefetchMsg)
  | contrib (dst : Nat) (m : ContribMsg)
  | marker (dst : Nat) (m : EndMarker)
  | grant (dst : Nat) (g : GrantPkt)
  | release (dst : Nat) (credits : Nat)
  | done (dst : Nat) (step : BitVec 32) (descId : BitVec 16)
  | fail (dst : Nat) (step : BitVec 32) (descId : BitVec 16) (code : BitVec 8)
  | barArrive (dst : Nat) (grp : BitVec 4) (gen : BitVec 32)
  | barRelease (dst : Nat) (grp : BitVec 4) (gen : BitVec 32)
  | data (dst : Nat) (k : Packet)
  | transit (port : Nat) (f : Frame)
  | hello (port : Nat) (h : HelloPkt)
  | auth (port : Nat) (nonce : BitVec 256) (chain : List Byte)
  | authSign (port : Nat) (ed : BitVec 512) (ml : List Byte)
  | ack (port : Nat) (seq : BitVec 12)
  | nak (port : Nat) (seq : BitVec 12)
  | credit (port : Nat) (vc : BitVec 3) (dl : Bool) (n : Nat)
  | retrain (port : Nat)
  | sealReduce (table : Nat) (step : BitVec 32) (t : SealTotals)
  | digest (region : Nat) (d : BitVec 64)
  | digestBlocks (region : Nat) (blocks : List (BitVec 64))
  | digestCrcs (region block : Nat) (crcs : List (BitVec 64))
  | digestPage (region page : Nat) (bytes : List PByte)
  deriving DecidableEq, Repr

/-- A grant that this device holds (R341), and the bytes of it that are used. -/
structure HeldGrant where
  grant : GrantPkt
  used : Nat
  deriving DecidableEq, Repr

/-- What landing space a tag names (R331, R332). -/
inductive LandingUse where
  | lookupPayload (requester : Nat) (batch : BitVec 32) (descId : BitVec 16)
  | lookupResponse (owner : Nat) (batch : BitVec 32) (descId : BitVec 16)
  | collective (pred : Nat) (step : BitVec 32) (descId : BitVec 16)
  deriving DecidableEq, Repr

/-- A reservation: the source it is held for, its size, its use; `dead` when its operation failed (R332), `spent` when a segment of the
reduction buffer has been folded (R341). -/
structure Landing where
  src : Nat
  size : Nat
  use : LandingUse
  dead : Bool
  spent : Bool := false
  deriving DecidableEq, Repr

/-- What waits for a free reservation tag (R332): the payload space of a count, the response space of a grant. -/
inductive TagWait where
  | count (m : CountMsg)
  | grant (g : GrantPkt)
  deriving DecidableEq, Repr

/-- FAB_STAT.STATE (R313, R353). -/
inductive LinkState where
  | down
  | train
  | hello
  | auth
  | up
  | foreign
  | held
  | quarantine
  deriving DecidableEq, Repr

/-- A packet in the replay buffer of a port, or the packets of a message (R320): `count` of them, the first one's SEQ. -/
structure ReplayEntry where
  seq : BitVec 12
  count : Nat
  msg : OutMsg
  times : Nat
  deriving DecidableEq, Repr

/-- A fabric port or the twin port (R310 to R330, R349, R352, R353). -/
structure Port where
  upTmo : BitVec 16 := 0x003C
  credTmo : BitVec 8 := 0x64
  maxgen : BitVec 2 := 0b11
  maxw : BitVec 2 := 0
  migr : Bool := false
  en : Bool := true
  st : LinkState := .down
  since : Nat := 0
  gen : BitVec 2 := 0
  width : BitVec 2 := 0
  lanebad : BitVec 12 := 0
  /-- Lanes of groups that are dropped (R312, R320, R449), and the lane generation of the last training. -/
  dropped : BitVec 12 := 0
  laneGen : BitVec 2 := 0
  peer : BitVec 10 := 0
  peerHello : Option HelloPkt := none
  peerKey : Option (BitVec 384) := none
  /-- The nonce that this device sent in the last AUTH exchange (R315). -/
  nonce : BitVec 256 := 0
  crc : BitVec 16 := 0
  replayCnt : BitVec 16 := 0
  discard : BitVec 16 := 0
  retrain : BitVec 8 := 0
  late : BitVec 8 := 0
  txSeq : BitVec 12 := 0
  rxSeq : BitVec 12 := 0
  replay : List ReplayEntry := []
  credits : SMap Nat := []
  stalled : SMap Nat := []
  waiting : List (Nat × OutMsg) := []
  discWindow : Nat := 0
  discCount : Nat := 0
  discKinds : List (BitVec 8) := []
  discRetrain : Bool := false
  laneErr : List Nat := []
  numCnt : NumCnt := {}
  deriving DecidableEq, Repr

/-! ### Checkpoints and digests -/

/-- A checkpoint in progress (R371 to R375): its form (1 journaled, 2 direct, 3 to host storage), its pages in ascending order and how many
of them have been sent. -/
structure Ckpt where
  step : BitVec 32
  form : Nat
  pages : List Nat
  sent : Nat
  headerSent : Bool
  ctok : Option (Nat × BitVec 6)
  deriving DecidableEq, Repr

/-- A digest point whose regions are still compared (R364, R365): the page CRCs of an older one, the regions left, those whose digest has
been announced, whether a region has differed, and the divergence records written. -/
structure Digest where
  step : BitVec 32
  crcs : SMap (BitVec 64)
  left : List Nat
  announced : List Nat
  differs : Bool
  records : Nat
  deriving DecidableEq, Repr

/-- A page image in a copy buffer (R372, R374). -/
structure PageCopy where
  page : Nat
  bytes : List PByte
  deriving DecidableEq, Repr

/-- CKP_STAT and DIG_STAT (R377) and the engine's own state. -/
structure Mirror where
  cstep : BitVec 32 := 0xFFFFFFFF
  state : BitVec 4 := 0
  astep : BitVec 32 := 0xFFFFFFFF
  diverge : BitVec 16 := 0
  mismatch : Bool := false
  dirty : SMap Bool := []
  pend : SMap Bool := []
  digPend : SMap Bool := []
  pageCrc : SMap (BitVec 64) := []
  copies : List PageCopy := []
  ckpt : Option Ckpt := none
  /-- Digest points in comparison, oldest first; the page CRCs of the last one are in pageCrc. -/
  digests : List Digest := []
  /-- The step and outcome of the last digest point that has one: 1 agreed, 2 diverged. -/
  dagree : Option (BitVec 32 × Nat) := none
  waitingSnaps : List WaitingDesc := []
  deriving DecidableEq, Repr

/-! ### Host link -/

/-- A buffer of a session (R404): kinds 1 device-in, 2 device-out, 3 host-source, 4 host-destination. -/
structure Buffer where
  kind : Nat
  addr : Nat
  size : Nat
  rkey : BitVec 32
  deriving DecidableEq, Repr

/-- An ingest ring (R406 to R410): `base` is the device address of slot 0; `held` tells that the entry at C waits for its step. -/
structure Ring where
  base : Nat
  n : Nat
  qp : Nat
  cons : BitVec 32 := 0
  prod : BitVec 32 := 0
  rereads : Nat := 0
  rereadAt : Option Nat := none
  stopped : Bool := false
  held : Bool := false
  /-- Images that wait for validation (R410): index, FTAG, STEP, address, length. -/
  image : List (BitVec 32 × BitVec 32 × BitVec 32 × Nat × Nat) := []
  closing : Bool := false
  deriving DecidableEq, Repr

/-- The event ring of a session (R414). -/
structure EvtRing where
  buf : BitVec 8
  off : Nat
  n : Nat
  prod : Nat := 0
  cons : Nat := 0
  deriving DecidableEq, Repr

/-- An event (R414, R415): type, status and the fields of its body. -/
inductive EventBody where
  | batch (ring : Nat) (index ftag step : BitVec 32) (total : Nat) (entries : List Word)
  | step (step : BitVec 32) (rank : Nat)
  | xfer (xid : BitVec 32) (moved : Nat) (poisonAt : Option Nat)
  | fault (r : Rec)
  /-- 1 loaded, 2 started, 3 stopped, 4 reset, 5 halted. -/
  | job (kind : Nat) (step : BitVec 32)
  deriving DecidableEq, Repr

/-- An event entry with its number and status (R414). -/
structure Event where
  eseq : Nat
  status : BitVec 8
  body : EventBody
  deriving DecidableEq, Repr

/-- A bulk transfer of a session (R417): its direction, the device range and the host range, whether it has started, and for an OUT
transfer how far its data went; the bytes moved of an IN transfer are its segments that have been placed. -/
structure Xfer where
  xid : BitVec 32
  out : Bool
  qp : Nat
  dev : Nat
  hbuf : BitVec 8
  hoff : Nat
  len : Nat
  started : Bool
  moved : Nat
  poisonAt : Option Nat
  inDoubt : Bool
  deriving DecidableEq, Repr

/-- The state of a session (R403). -/
inductive SessState where
  | opening
  | attached
  | detached
  | closed
  deriving DecidableEq, Repr

/-- A session (R399). -/
structure Session where
  port : Nat := 0
  version : Nat := 0
  level : Nat := 0
  st : SessState := .closed
  ticket : BitVec 128 := 0
  doorKey : BitVec 32 := 0
  rxSeq : BitVec 32 := 0
  txSeq : BitVec 32 := 0
  /-- The transcript that both sides sign: HELLO and its reply (R402). -/
  hello : List Byte := []
  bufs : SMap (Option Buffer) := []
  rings : SMap (Option Ring) := []
  evt : Option EvtRing := none
  /-- Events that the host has not consumed, oldest first; the first ones stand in the ring, the others wait (R416). -/
  events : List Event := []
  eseq : Nat := 0
  xfers : List Xfer := []
  detachedAt : Nat := 0
  deriving DecidableEq, Repr

/-- What the host ports send (R400, R414, R417): replies, events, data, reads. -/
inductive HostMsg where
  | helloReply (sid : BitVec 32) (version : Nat) (nonce : BitVec 256) (chain : List Byte)
  | authReply (sid : BitVec 32) (ticket : BitVec 128) (level : Nat) (key : BitVec 32) (ed : BitVec 512) (ml : List Byte)
  | attachReply (sid : BitVec 32) (ticket : BitVec 128) (rings : List (Nat × BitVec 32 × Nat)) (oldest : Nat) (inDoubt : List (BitVec 32))
  | ok (sid : BitVec 32) (tag : Word)
  | key (sid : BitVec 32) (tag : Word) (key : BitVec 32)
  | fail (sid : BitVec 32) (tag : Word) (code : BitVec 8)
  | values (sid : BitVec 32) (tag : Word) (vals : List Word)
  | event (sid : BitVec 32) (gen : Nat) (e : Event)
  | data (sid xid : BitVec 32) (qp : Nat) (buf : BitVec 8) (off : Nat) (bytes : List Byte)
  | pull (sid xid : BitVec 32) (qp : Nat) (buf : BitVec 8) (off len : Nat)
  | tierRead (sid : BitVec 32) (buf : BitVec 8) (off len : Nat) (table lidx seq : Nat)
  | readBack (sid : BitVec 32) (qp : Nat) (val : Word)
  | remoteAccess (sid : BitVec 32)
  | ckptPage (sid : BitVec 32) (addr : Nat) (crc : BitVec 64) (bytes : List PByte)
  | ckptTrailer (sid : BitVec 32) (bytes : List Byte)
  deriving DecidableEq, Repr

/-- A host port (R397, R398, R430, R431). -/
structure HostPort where
  grace : BitVec 16 := 0x0258
  vmask : BitVec 3 := 0b111
  mode : BitVec 2 := 0
  pfc : Bool := false
  en : Bool := true
  link : BitVec 2 := 0
  rmode : BitVec 2 := 0
  dbflt : BitVec 16 := 0
  notrdy : BitVec 16 := 0
  reread : BitVec 16 := 0
  indoubt : BitVec 8 := 0
  expired : BitVec 8 := 0
  cnps : Nat := 0
  paused : BitVec 16 := 0
  deriving DecidableEq, Repr

/-- A tier source (R419). -/
structure TierSource where
  sid : BitVec 32
  table : Nat
  first : Nat
  last : Nat
  buf : BitVec 8
  hoff : Nat
  stride : Nat
  deriving DecidableEq, Repr

/-- A tier fetch in progress (R230 to R232): the batch of the latest prefetch that waits on it, and its sequence number (R393). -/
structure Fetch where
  table : Nat
  lidx : Nat
  start : Nat
  prefetch : Option (BitVec 32)
  seq : Nat
  deriving DecidableEq, Repr

/-- A loaded job (R421, R378, R395). -/
structure Job where
  prog : Program
  seed : Word
  det : Bool
  rank : Nat
  placement : List (BitVec 384)
  digest : BitVec 384
  started : Bool := false
  stopping : Bool := false
  /-- The stop at the next step boundary is a halt (R289, R366), not a requested stop (R421) or the stop of R451. -/
  haltNext : Bool := false
  stopped : Bool := false
  /-- When a requested start began to wait for its ports (R349). -/
  startAt : Option Nat := none
  halted : Bool := false
  redo : Option (BitVec 32) := none
  nextStep : BitVec 32 := 0
  lastCommit : Option (BitVec 32) := none
  deriving DecidableEq, Repr

/-! ### Integrity, power, platform -/

/-- A Campion pair (R170, R171, R437, R438). -/
structure Pair where
  due : Bool := false
  dueAt : Nat := 0
  start : Nat := 0
  overdueSent : Bool := false
  mismatch : Bool := false
  deriving DecidableEq, Repr

/-- An entry of the unit history (R444). -/
structure HistEntry where
  ptime : Nat
  unit : BitVec 16
  ekind : BitVec 8
  ecode : BitVec 8
  count : BitVec 32
  loc : BitVec 48
  deriving DecidableEq, Repr

/-- An action of R449 that waits for a reset. -/
inductive Action where
  | amendArray (phys : Nat)
  | withdraw
  | remapPage (vault die bank page : Nat)
  | sliceOff (vault : Nat)
  | spareRow (unit : BitVec 16)
  | hostPortOff (p : Nat)
  | cpuOff (k : Nat)
  deriving DecidableEq, Repr

/-- Campion, unit history and INT_STAT (chapter 13). -/
structure Integrity where
  pairs : SMap Pair := []
  windows : BitVec 32 := 0
  mismatch : BitVec 8 := 0
  forced : BitVec 8 := 0
  overdue : BitVec 8 := 0
  history : List HistEntry := []
  histPending : List HistEntry := []
  /-- The device time of the last event, and the units and places it has been counted for (R457). -/
  noted : Word × List (BitVec 16 × Nat) := (0, [])
  failingSince : Option Nat := none
  uhfail : Bool := false
  perm : BitVec 16 := 0
  unremap : BitVec 16 := 0
  svc : Bool := false
  withdrawn : Bool := false
  lab : Bool := false
  actions : List Action := []
  campionTransient : BitVec 32 := 0
  spareRows : SMap Nat := []
  deriving DecidableEq, Repr

/-- TNS_STAT.STOPSRC (R487). -/
inductive StopSrc where
  | none
  | coolant
  | logic
  | dram
  deriving DecidableEq, Repr

/-- The Tansy controller (chapter 14). -/
structure Tansy where
  mgCap : BitVec 11 := 0x47E
  rtCap : BitVec 11 := 0x4B0
  alertCap : BitVec 11 := 0x190
  droop : BitVec 16 := 0
  tjmax : BitVec 11 := 0
  stopSrc : StopSrc := .none
  halt : Bool := false
  stop : Bool := false
  tlim : Bool := false
  pwr : BitVec 12 := 0
  ecap : BitVec 11 := 0x47E
  adder : BitVec 8 := 0
  vapplied : BitVec 16 := 0
  vreq : BitVec 16 := 0
  est : SMap Nat := []
  allow : SMap Nat := []
  /-- The budget allowances that were in force before those of `allow`, and the cycle from which the latter are (R469). -/
  allowOld : SMap Nat := []
  allowFrom : Nat := 0
  /-- The thermal limit on the headroom of the arrays, in units of 2^-10 W (R477), and the headroom of the last period. -/
  thermal : Option Int := none
  lastH : Int := 0
  /-- The alert cap counts from the assertion until the first period after its end (R467). -/
  alertHeld : Bool := false
  stopAt : Nat := 0
  /-- Causes that the stop in force has met, and the cycle of the latest low sample of COOL_OK (R480, R481). -/
  causes : List StopSrc := []
  coolLowAt : Option Nat := none
  droopSecond : Nat := 0
  droopCuts : Nat := 0
  allOneSince : Option Nat := none
  /-- The samples of the package power of the last 1 ms, oldest first: 100 at most (R465, R487), and their sum. -/
  pwrHist : List Nat := []
  pwrLast : Nat := 0
  /-- The windows of device time, a second and a minute long, of the last records of R466 and R473 (R570). -/
  lastUnattainable : Option Nat := none
  lastNotApplied : Option Nat := none
  deriving DecidableEq, Repr

/-- PLT_STAT.STAGE (R515). -/
inductive Stage where
  | rom
  | identity
  | verify
  | dramInit
  | osStart
  | ready
  | recovery
  deriving DecidableEq, Repr

/-- A boot-selector copy (R502). -/
structure Selector where
  sseq : BitVec 32 := 0
  slot : Bool := false
  trial : Bool := false
  tries : BitVec 8 := 0
  deriving DecidableEq, Repr

/-- An amendment of the part record (R496). -/
structure Amendment where
  kind : BitVec 8
  grade : BitVec 8
  amap : List Byte
  deriving DecidableEq, Repr

/-- An update in progress (R506, R507). -/
structure Update where
  data : UpdateData
  len : Nat
  sid : Option (BitVec 32)
  deriving DecidableEq, Repr

/-- A margin-history entry (R475). -/
structure MarginEntry where
  ptime : Nat
  vreq : BitVec 16
  adder : BitVec 8
  slack : BitVec 16
  temp : BitVec 16
  deriving DecidableEq, Repr

/-- The array map of a full part: every array enabled at its own index (DESIGN CHOICE, log 6: the part the model starts from). -/
def fullMap : List Byte := (List.range 128).map fun p => BitVec.ofNat 8 (0x80 + p % 4)

/-- The base record the model starts from (DESIGN CHOICE, log 6: an SCP-3128 with every array enabled). -/
def defaultRecord : BaseRecord :=
  ⟨1, 0x01, 0, fullMap, 750, 0, 0, 0, true⟩

/-- The on-package flash (R492 to R510): what the model keeps of each region. -/
structure Flash where
  sel0 : Selector := {}
  sel1 : Option Selector := none
  base : BaseRecord := defaultRecord
  /-- An accepted record that takes effect at the next warm or cold reset (R498). -/
  nextBase : Option BaseRecord := none
  amends : List Amendment := []
  torn : Bool := false
  imgA : Option FwImage := some ⟨1, true, true⟩
  imgB : Option FwImage := none
  roots : List (BitVec 384) := []
  net0 : Option NetConfig := none
  net1 : Option NetConfig := none
  token : Option Token := none
  margins : List MarginEntry := []
  deriving DecidableEq, Repr

/-- A platform processor (R489): an RV64GCV hart with vectors of 512 bits; its control and status registers, the 16 physical memory
protection entries among them, stand under their published numbers. -/
structure Hart where
  pc : Word := 0
  mode : BitVec 2 := 3
  x : SMap Word := []
  f : SMap Word := []
  v : SMap (BitVec 512) := []
  csrs : SMap Word := []
  deriving DecidableEq, Repr

/-- A line of the shared cache of the cluster (R20, R489, R490): a granule with its mark, whether it differs from the DRAM, and the cores
whose own caches hold it. The caches are coherent, so the bytes stand once. -/
structure CacheLine where
  bytes : List Byte
  psn : Bool
  dirty : Bool
  l2 : BitVec 8
  deriving DecidableEq, Repr

/-- The platform cluster (chapter 15). -/
structure Platform where
  fwver : BitVec 32 := 0
  stage : Stage := .rom
  slot : Bool := false
  trial : Bool := false
  fallback : Bool := false
  noid : Bool := false
  pending : Bool := false
  fwuSrc : BitVec 48 := 0
  fwuBuf : BitVec 8 := 0
  fwuTarget : BitVec 8 := 0
  fwuLen : BitVec 32 := 0
  fwuResult : BitVec 2 := 0
  nonce0 : Word := 0
  nonce1 : Word := 0
  nonce2 : Word := 0
  nonce3 : Word := 0
  attBuf : BitVec 8 := 0
  attOff : BitVec 48 := 0
  attResult : BitVec 2 := 0
  update : Option Update := none
  windows : List (Nat × Nat × BitVec 6) := []
  cpus : BitVec 8 := 0xFF
  cpuHalted : BitVec 8 := 0
  harts : SMap Hart := []
  cache : SMap (Option CacheLine) := []
  bootStart : Option Nat := none
  romStarted : Bool := false
  net0 : Option NetConfig := none
  net1 : Option NetConfig := none
  /-- What the last boot met, and whether it has left a slot that failed (R503). -/
  finds : BootFinds := ⟨true, true, true, false, false⟩
  fellBack : Bool := false
  jtagUnlock : Bool := false
  lastLoad : Option (Option (List PByte)) := none
  deriving DecidableEq, Repr

/-- A TAP instruction (R553). -/
inductive TapInstr where
  | bypass
  | idcode
  | samplePreload
  | extest
  | debug
  deriving DecidableEq, Repr

/-- The pins and the TAP (chapter 17). -/
structure Pins where
  powered : Bool := true
  rstN : Bool := true
  coolOk : Bool := true
  capAlertN : Bool := true
  thermtripN : Bool := true
  pos : BitVec 4 := 0
  i2cAddr : BitVec 7 := 0x40
  coreclk : Bool := true
  sdref : BitVec 4 := 0xF
  /-- IEEE 1149.1 selects IDCODE when the TAP resets (R553). -/
  tap : TapInstr := .idcode
  tdo : BitVec 32 := 0
  boundary : List Bool := []
  drive : Option (List Bool) := none
  deriving DecidableEq, Repr

/-- What the management interface, register reads and the TAP have answered, oldest first (R508, R521, R551, R553). -/
inductive MgmtMsg where
  | attestation (report : List Byte)
  | refused
  | sensors (tj dramT pwr ecap vreq : Nat)
  | platformEvent (r : Rec)
  | tapRead (val : Option Word)
  | updateResult (ok : Bool)
  /-- What a register read of an agent returned. -/
  | regValue (a : Agent) (page off : Nat) (val : Word)
  deriving DecidableEq, Repr

/-- A reset that waits (R482, R512): 1 core, 2 job, 3 warm. -/
structure Waiting where
  warm : Bool := false
  job : Bool := false
  cores : BitVec 32 := 0
  deriving DecidableEq, Repr

/-- A barrier group at run time (R163, R346): its generation and the arrivals of the current one. -/
structure Barrier where
  gen : BitVec 32 := 0
  arrived : List Nat := []
  ranks : List Nat := []
  deriving DecidableEq, Repr

/-- The device. -/
structure State where
  /-- Array cycles since the last cold reset (R570). -/
  cycle : Nat := 0
  /-- The queue of commands that wait, first in first out (the block's input). -/
  pending : List Instr := []
  /-- MODEL's own field: the counter that the free values of Config are applied to. -/
  fresh : Nat := 0
  /-- Bytes of the DRAM, the tile stores and the hot-row slots, by device address (R519). -/
  mem : SMap Byte := []
  /-- Poison marks by granule number, address div 64 (R111, R192, R197). -/
  marks : SMap Bool := []
  /-- Symbol errors that stand in stored DRAM granules, by granule number (R190, R218). -/
  errs : SMap (List (Nat × BitVec 16)) := []
  /-- Flipped bits of stored metadata bytes, and of the mark copies of tile stores and hot-row slots, by granule number (R192, R197, R218). -/
  metaErrs : SMap (BitVec 8) := []
  /-- Flipped bits that stand in the code words of on-die SRAMs, by the number that sramKey gives a word (R196). -/
  sramErrs : SMap (BitVec 72) := []
  /-- Accumulator entries by physical array × 65,536 + entry (R81). -/
  acc : SMap Word := []
  cores : SMap Core := []
  workCtrs : SMap (BitVec 32) := []
  barriers : SMap Barrier := []
  vaults : SMap Vault := []
  teasels : SMap Teasel := []
  tierTmo : BitVec 32 := 0x00989680
  job : Option Job := none
  batches : List Batch := []
  /-- Steps whose batch has been accepted in this job (R412). -/
  accepted : List (BitVec 32) := []
  lookups : List Lookup := []
  /-- Forwarded lookups that found the 64 places of their unit taken (R242). -/
  lookupQueue : List WaitingDesc := []
  counts : List CountMsg := []
  /-- Payloads that an owner keeps until the commit of their step (R285), and those whose reads wait (R230, R252). -/
  payloads : List PayloadMsg := []
  waitingPayloads : List WaitingPayload := []
  banks : SMap Bank := []
  /-- By table, one more than the latest step whose apply has begun in this job (R252). -/
  begun : SMap Nat := []
  /-- Every presence bit of every tiered table has been found set: the bitmaps are not read any more (R231). -/
  tierDone : Bool := false
  scales : SMap (Option Scale) := []
  waitingGrads : List WaitingDesc := []
  waitingFolds : List ContribMsg := []
  waitingMarkers : List EndMarker := []
  commitWait : List CommitWait := []
  rowJobs : List RowJob := []
  fetches : List Fetch := []
  fetchSeq : Nat := 0
  xops : List XOp := []
  xwin : SMap (Word × Word) := []
  landings : SMap (Option Landing) := []
  tagWait : List TagWait := []
  grants : List HeldGrant := []
  inbox : SMap Nat := []
  /-- Messages that wait for inbox credits (R331), oldest first: the destination, the size, the message. -/
  outWait : List (Nat × Nat × OutMsg) := []
  ports : SMap Port := []
  fabOut : List OutMsg := []
  mirror : Mirror := {}
  hports : SMap HostPort := []
  sessions : SMap Session := []
  nextSid : BitVec 32 := 1
  hostOut : List HostMsg := []
  tierSources : List TierSource := []
  ckptDest : Option (BitVec 32 × BitVec 8 × Nat) := none
  /-- JOB_DET (R386). -/
  late : BitVec 32 := 0
  errRing : List Rec := []
  rseq : BitVec 32 := 0
  pages : SMap Page := []
  snaps : SMap Snapshot := []
  integ : Integrity := {}
  tns : Tansy := {}
  plt : Platform := {}
  flash : Flash := {}
  pins : Pins := {}
  mgmtOut : List MgmtMsg := []
  waitingReset : Waiting := {}
  /-- Array map and effective grade in force (R3, R496, R536). -/
  amap : List Byte := fullMap
  grade : BitVec 8 := 0x01
  /-- Powered-on time in ms at the last cold reset (R444). -/
  ptime0 : Nat := 0
  deriving DecidableEq, Repr

/-- The device right after reset. -/
def State.reset : State := {}

end Sys2Proof.Machine
end

