-- ==== Sys2Proof/Machine/Ops.lean ====
section
/-!
DEFINITION. The named operations over the state that every family shares: reading and changing one unit, time, error records, events,
halting a core, token counters and stops.
-/

namespace Sys2Proof.Machine

/-! ### One unit of the state -/

/-- Core c. -/
def State.core (s : State) (c : Nat) : Core := mget {} s.cores c
/-- The state with core c changed. -/
def State.modCore (s : State) (c : Nat) (f : Core → Core) : State := { s with cores := mmod {} s.cores c f }
/-- Vault v. -/
def State.vault (s : State) (v : Nat) : Vault := mget {} s.vaults v
/-- The state with vault v changed. -/
def State.modVault (s : State) (v : Nat) (f : Vault → Vault) : State := { s with vaults := mmod {} s.vaults v f }
/-- Teasel unit u. -/
def State.teasel (s : State) (u : Nat) : Teasel := mget {} s.teasels u
/-- The state with Teasel unit u changed. -/
def State.modTeasel (s : State) (u : Nat) (f : Teasel → Teasel) : State := { s with teasels := mmod {} s.teasels u f }
/-- Port p: FAB0 to FAB7, then TWIN. -/
def State.port (s : State) (p : Nat) : Port := mget {} s.ports p
/-- The state with port p changed. -/
def State.modPort (s : State) (p : Nat) (f : Port → Port) : State := { s with ports := mmod {} s.ports p f }
/-- Host port p. -/
def State.hport (s : State) (p : Nat) : HostPort := mget {} s.hports p
/-- The state with host port p changed. -/
def State.modHport (s : State) (p : Nat) (f : HostPort → HostPort) : State := { s with hports := mmod {} s.hports p f }
/-- The session of a SID. -/
def State.session (s : State) (sid : BitVec 32) : Session := mget {} s.sessions sid.toNat
/-- The state with a session changed. -/
def State.modSession (s : State) (sid : BitVec 32) (f : Session → Session) : State :=
  { s with sessions := mmod {} s.sessions sid.toNat f }
/-- Ledger bank of table t for the step: two banks a table, by the step's parity (R277). -/
def bankKey (t : Nat) (step : BitVec 32) : Nat := 2 * t + step.toNat % 2
/-- The bookkeeping of a bank. -/
def State.bank (s : State) (t : Nat) (step : BitVec 32) : Bank := mget {} s.banks (bankKey t step)
/-- The state with a bank's bookkeeping changed. -/
def State.modBank (s : State) (t : Nat) (step : BitVec 32) (f : Bank → Bank) : State :=
  { s with banks := mmod {} s.banks (bankKey t step) f }
/-- The common part of register page p. -/
def State.page (s : State) (p : Nat) : Page := mget {} s.pages p
/-- The state with register page p changed. -/
def State.modPage (s : State) (p : Nat) (f : Page → Page) : State := { s with pages := mmod {} s.pages p f }
/-- Campion pair p. -/
def State.pair (s : State) (p : Nat) : Pair := mget {} s.integ.pairs p
/-- The state with a Campion pair changed. -/
def State.modPair (s : State) (p : Nat) (f : Pair → Pair) : State :=
  { s with integ := { s.integ with pairs := mmod {} s.integ.pairs p f } }
/-- Array `a` of a core, by logical index. -/
def Core.array (k : Core) (a : Nat) : ArrayUnit := mget {} k.arrays a
/-- The core with an array changed. -/
def Core.modArray (k : Core) (a : Nat) (f : ArrayUnit → ArrayUnit) : Core := { k with arrays := mmod {} k.arrays a f }
/-- Target `h` of an array: 0 whole, 1 left, 2 right. -/
def ArrayUnit.half (u : ArrayUnit) (h : Nat) : HalfUnit := mget {} u.halves h
/-- The array with a target changed. -/
def ArrayUnit.modHalf (u : ArrayUnit) (h : Nat) (f : HalfUnit → HalfUnit) : ArrayUnit :=
  { u with halves := mmod {} u.halves h f }
/-- The state with one target of an array changed. -/
def State.modHalf (s : State) (c a h : Nat) (f : HalfUnit → HalfUnit) : State :=
  s.modCore c fun k => k.modArray a fun u => u.modHalf h f
/-- One target of an array. -/
def State.half (s : State) (c a h : Nat) : HalfUnit := ((s.core c).array a).half h
/-- Transfer queue q of a core (R129). -/
def Core.queue (k : Core) (q : Nat) : List Transfer := mget [] k.queues q
/-- The core with a transfer queue replaced. -/
def Core.setQueue (k : Core) (q : Nat) (l : List Transfer) : Core := { k with queues := mset [] k.queues q l }

/-! ### Registers of a core -/

/-- Scalar register r: s0 reads as zero (R145). -/
def Core.sreg (k : Core) (r : BitVec 5) : Word := if r = 0 then 0 else mget 0 k.sregs r.toNat
/-- A write of scalar register r: s0 ignores it (R145). -/
def Core.setSreg (k : Core) (r : BitVec 5) (x : Word) : Core :=
  if r = 0 then k else { k with sregs := mset 0 k.sregs r.toNat x }
/-- 256 lanes of zero. -/
def zeroLanes : List Lane := List.replicate 256 {}
/-- Vector register r: 256 lanes (R117). -/
def Core.vreg (k : Core) (r : BitVec 5) : List Lane := mget zeroLanes k.vregs r.toNat
/-- A write of a vector register. -/
def Core.setVreg (k : Core) (r : BitVec 5) (x : List Lane) : Core :=
  { k with vregs := mset zeroLanes k.vregs r.toNat x }
/-- Mask register r: m0 reads as all ones (R117). -/
def Core.mreg (k : Core) (r : Nat) : BitVec 256 := if r = 0 then BitVec.allOnes 256 else mget 0 k.masks r
/-- A write of a mask register: m0 ignores it (R117). -/
def Core.setMreg (k : Core) (r : Nat) (x : BitVec 256) : Core :=
  if r = 0 then k else { k with masks := mset 0 k.masks r x }
/-- Token counter t (R158). -/
def Core.token (k : Core) (t : Nat) : BitVec 32 := mget 0 k.tokens t
/-- A write of a token counter. -/
def Core.setToken (k : Core) (t : Nat) (x : BitVec 32) : Core := { k with tokens := mset 0 k.tokens t x }

/-! ### Condition of the device -/

/-- Powered, out of reset, not tripped, with its clock (R479, R512, R546): management answers. -/
def State.clocked (s : State) : Bool := s.pins.powered && s.pins.rstN && s.pins.thermtripN && s.pins.coreclk
/-- The blocks run: not in recovery (R504), and the boot ROM does not wait for COOL_OK (R548). -/
def State.live (s : State) : Bool := s.clocked && s.plt.stage != .recovery && (s.plt.romStarted || s.pins.coolOk)
/-- A stop or a halt of chapter 14 is in force (R480, R482). -/
def State.stopped (s : State) : Bool := s.tns.stop || s.tns.halt
/-- Device time in ns since the last cold reset: an array cycle is 1.25 ns (R570). -/
def State.nowNs (s : State) : Nat := s.cycle * 5 / 4
/-- Array cycles of a number of microseconds. -/
abbrev cyclesOfUs (us : Nat) : Nat := 800 * us
/-- Powered-on time in ms (R444). -/
def State.ptime (s : State) : Nat := s.ptime0 + s.cycle / 800000
/-- Whether a program is loaded. -/
def State.loaded (s : State) : Bool := s.job.isSome
/-- The program, when a job is loaded. -/
def State.prog (s : State) : Option Program := s.job.map (·.prog)
/-- Whether the job runs: started and neither stopped nor halted. -/
def State.jobRuns (s : State) : Bool :=
  match s.job with
  | some j => j.started && !j.stopped && !j.halted
  | none => false
/-- The device's rank in the job; 0 with none (R452). -/
def State.rank (s : State) : Nat := match s.job with | some j => j.rank | none => 0
/-- The job seed (R60). -/
def State.seed (s : State) : Nat := match s.job with | some j => j.seed.toNat | none => 0
/-- The last committed step + 1 (R452). -/
def State.nextStep (s : State) : BitVec 32 :=
  match s.job with
  | some j => match j.lastCommit with | some c => c + 1 | none => j.nextStep
  | none => 0

/-! ### Arrays in force (R3, R4, R454) -/

/-- The physical array number of logical array `a` of core c, when the map in force enables one (R494, R536). -/
def State.physArray (s : State) (c a : Nat) : Option Nat :=
  (List.range 4).findSome? fun i =>
    let b := nth s.amap (4 * c + i) 0
    if b.getLsbD 7 && fld b 0 2 == a then some (4 * c + i) else none

/-- The logical indices that are enabled on a core. -/
def State.enabledArrays (s : State) (c : Nat) : List Nat := (List.range 4).filter fun a => (s.physArray c a).isSome

/-- The window table that the monitor writes at boot (R491): machine mode reads and writes the whole map (DESIGN CHOICE, log 106: the monitor owns
the table, and the spec gives no entries). An entry is base, size in bytes and bits: 0 read, 1 write, 2 C, 3 user, 4 supervisor,
5 machine mode. -/
def bootWindows : List (Nat × Nat × BitVec 6) := [(0, 2 ^ 48, 0b100011)]

/-! ### Error records (R452 to R457) -/

/-- KIND of a code (R455, R456, R485, R514). -/
def kindOf (code : Nat) : Nat :=
  if code < 0x10 then 2
  else if 0x30 ≤ code ∧ code ≤ 0x7B then 3
  else match code with
    | 0x13 => 1
    | 0x16 => 6
    | 0x18 | 0x1A | 0x21 | 0x22 | 0x23 | 0x24 | 0x25 | 0x26 | 0x93 | 0x95 => 4
    | 0x19 | 0x1B | 0x1F | 0x20 | 0x2A | 0x2B | 0x2C => 5
    | 0x27 | 0x28 | 0x29 | 0x96 | 0x9A => 3
    | 0x80 | 0x81 | 0x82 | 0x83 | 0x84 | 0x87 | 0x89 | 0x8A | 0x8B => 5
    | 0x92 | 0x94 | 0x97 | 0x98 | 0x99 => 5
    | _ => 0

/-- Whether a code is allocated (R455). -/
def codeAllocated (code : Nat) : Bool :=
  decide (0x01 ≤ code ∧ code ≤ 0x2C) || decide (0x30 ≤ code ∧ code ≤ 0x39) || decide (0x40 ≤ code ∧ code ≤ 0x47) ||
    decide (0x50 ≤ code ∧ code ≤ 0x5B) || decide (0x60 ≤ code ∧ code ≤ 0x67) || decide (0x70 ≤ code ∧ code ≤ 0x7B) ||
    decide (0x80 ≤ code ∧ code ≤ 0x8B) || decide (0x90 ≤ code ∧ code ≤ 0x9B)

/-- OPID of a bundle (R453). -/
def opidBundle (c : Nat) (b : BitVec 32) : Word := BitVec.ofNat 64 (2 ^ 62 + c * 2 ^ 32 + b.toNat)
/-- OPID of a descriptor (R453). -/
def opidDesc (id : BitVec 16) (step : BitVec 32) : Word := BitVec.ofNat 64 (2 ^ 63 + step.toNat * 2 ^ 16 + id.toNat)
/-- OPID of a host operation (R453). -/
def opidHost (sid : BitVec 32) (x : Nat) : Word := BitVec.ofNat 64 (3 * 2 ^ 62 + sid.toNat % 2 ^ 16 * 2 ^ 32 + x % 2 ^ 32)

/-- The core of a unit, when the unit belongs to a core (R454). -/
def coreOfUnit (uclass uinst : Nat) : Option Nat :=
  match uclass with
  | 1 | 4 => some uinst
  | 2 | 5 => some (uinst / 16)
  | 3 => some (uinst / 4)
  | _ => none

/-- The register page of a unit (R454, R534). -/
def pageOfUnit (uclass uinst : Nat) : Nat :=
  match coreOfUnit uclass uinst with
  | some c => 0x20 + c
  | none =>
    match uclass with
    | 6 => 0x40 + uinst / 8
    | 7 => 0x40 + uinst
    | 8 => 0x08 + uinst
    | 9 => 0x10 + uinst
    | 0xA => 0x1A + uinst
    | 0xB => 0x01
    | 0xC => if uinst = 0 then 3 else if uinst = 1 then 2 else 0
    | _ => 0

/-- What a record says beyond its time, step and number. -/
structure RecInfo where
  code : Nat
  uclass : Nat
  uinst : Nat
  addr : Nat := 0
  opid : Word := 0
  count : Nat := 1
  detail : Nat := 0

/-- The record of the current cycle for an event (R452). -/
def State.record (s : State) (i : RecInfo) : Rec :=
  { code := BitVec.ofNat 8 i.code, kind := BitVec.ofNat 3 (kindOf i.code), uclass := BitVec.ofNat 4 i.uclass,
    uinst := BitVec.ofNat 12 i.uinst,
    step := match coreOfUnit i.uclass i.uinst with | some c => (s.core c).step | none => s.nextStep,
    opid := i.opid, time := BitVec.ofNat 64 s.nowNs, addr := BitVec.ofNat 48 i.addr, count := BitVec.ofNat 32 i.count,
    detail := BitVec.ofNat 32 i.detail, temp := Config.freeTemp s.fresh, volt := Config.freeVolt s.fresh,
    rank := BitVec.ofNat 10 s.rank, rseq := s.rseq }

/-- Write an error record: it enters the error ring (R452, R457). -/
def State.emit (s : State) (i : RecInfo) : State :=
  { s with errRing := s.errRing ++ [s.record i], rseq := s.rseq + 1, fresh := s.fresh + 1 }

/-- The device address of bundle b in the instruction region of core c (R107, R112). -/
def bundleAddr (c : Nat) (b : BitVec 32) : Nat :=
  Config.tileBase + c * Config.tileWindow + Config.instrRegion + 32 * (b.toNat % Config.ringBundles)

/-- A precise bite record (R202): unit, operation, first poisoned place and their number. -/
def State.bite (s : State) (uclass uinst : Nat) (opid : Word) (addr count : Nat) : State :=
  s.emit { code := 0x13, uclass := uclass, uinst := uinst, opid := opid, addr := addr, count := count }

/-! ### Events to host sessions (R414 to R416) -/

/-- Events of a session that stand in its ring. -/
def Session.written (x : Session) : Nat := match x.evt with | some ev => ev.prod - ev.cons | none => 0

/-- The generation of index i of a ring of n entries (R406). -/
def generation (n i : Nat) : Nat := i / n % 65535 + 1

/-- Waiting events go into the ring of an attached session while it has room (R416); `n` bounds them. -/
def writeEvents (s : State) (sid : Nat) : Nat → State
  | 0 => s
  | n + 1 =>
    let x : Session := mget {} s.sessions sid
    match x.evt, x.events[x.written]? with
    | some ev, some e =>
      if x.st = .attached ∧ x.written < ev.n then
        writeEvents { s with
          sessions := mset {} s.sessions sid { x with evt := some { ev with prod := ev.prod + 1 } }
          hostOut := s.hostOut ++ [.event (BitVec.ofNat 32 sid) (generation ev.n ev.prod) e] } sid n
      else s
    | _, _ => s

/-- An event for one session: it gets its number, and is written or waits (R414, R416). -/
def State.postTo (s : State) (sid : Nat) (status : Nat) (body : EventBody) : State :=
  let x : Session := mget {} s.sessions sid
  if x.st ≠ .attached ∧ x.st ≠ .detached then s
  else
    let x := { x with eseq := x.eseq + 1, events := x.events ++ [⟨x.eseq, BitVec.ofNat 8 status, body⟩] }
    writeEvents { s with sessions := mset {} s.sessions sid x } sid x.events.length

/-- An event for every session with an event ring. -/
def State.postAll (s : State) (status : Nat) (body : EventBody) : State :=
  ((s.sessions.filter fun x => x.2.evt.isSome).map (·.1)).foldl (fun t sid => t.postTo sid status body) s

/-- A JOB event (R415): 1 loaded, 2 started, 3 stopped, 4 reset, 5 halted. -/
def State.jobEvent (s : State) (kind : Nat) : State := s.postAll 0 (.job kind s.nextStep)

/-! ### Exceptions of a core (R173 to R177) -/

/-- Halt core c with a cause at bundle b (R173): STATE and PC, SEQ_EXC, and the exception record; `pc` is b, or the next bundle for a
TRAP. A core inside a window halts when the window ends. A core that is already halted keeps its exception. -/
def State.haltCore (s : State) (c : Nat) (cause slot detail : Nat) (b pc : BitVec 32) : State :=
  let k := s.core c
  if k.st = .halted then s
  else
    let t := s.emit { code := cause, uclass := 1, uinst := c, addr := bundleAddr c b, opid := opidBundle c b, detail := detail }
    t.modCore c fun k =>
      { k with
        st := if k.st = .window then .window else .halted
        preWindow := if k.st = .window then .halted else k.preWindow
        pc := pc
        heldAt := none
        waitStart := none
        barWait := none
        twHere := false
        exc := ⟨b, BitVec.ofNat 3 slot, BitVec.ofNat 8 detail, BitVec.ofNat 8 cause⟩ }

/-! ### Token counters (R158, R162) -/

/-- The increments that have reached token counter `t` of a core in this cycle. -/
def Core.incsNow (k : Core) (now t : Nat) : Nat := if k.incAt = now then mget 0 k.incs t else 0

/-- Add to token counter `t` of core c: an increment that would carry it past 0xFFFF_FFFF leaves it and halts the core with a
token-overflow exception at its next bundle (R162), which a halted core reaches when it resumes. -/
def State.addToken (s : State) (c t n : Nat) : State :=
  let k := s.core c
  if 2 ^ 32 ≤ (k.token t).toNat + n then
    if k.st = .halted then s.modCore c fun k => { k with overflow := some (k.overflow.getD t) }
    else s.haltCore c 0x0A 6 t k.pc k.pc
  else s.modCore c fun k =>
    { k.setToken t (BitVec.ofNat 32 ((k.token t).toNat + n)) with
      incs := mset 0 (if k.incAt = s.cycle then k.incs else []) t (k.incsNow s.cycle t + n)
      incAt := s.cycle }

/-- Count conversion events of cycle `now` in a NUM_CNT (R58). -/
def NumCnt.count (n : NumCnt) (now sat nf : Nat) : NumCnt :=
  let m : NumCnt := if n.lastAt = now then n else { n with lastAt := now, nonfinNow := 0, satNow := 0 }
  { m with
    nonfin := satAdd 32 m.nonfin nf, sat := satAdd 32 m.sat sat, nonfinNow := m.nonfinNow + nf, satNow := m.satNow + sat }

/-- A write of a NUM_CNT: each field ends at the written value plus the events of that cycle (R59). -/
def NumCnt.write (n : NumCnt) (now : Nat) (val : Word) : NumCnt :=
  let m : NumCnt := if n.lastAt = now then n else { n with lastAt := now, nonfinNow := 0, satNow := 0 }
  { m with nonfin := satAdd 32 (val.extractLsb' 32 32) m.nonfinNow, sat := satAdd 32 (val.truncate 32) m.satNow }

/-! ### Stops of the job (R33, R441, R451) -/

/-- Every core that issues or holds goes idle at its next bundle: the class 0 stop of new issue (R33, R451). -/
def State.idleCores (s : State) : State :=
  (List.range 32).foldl (fun t c => t.modCore c fun k =>
    if k.st = .running ∨ k.st = .holding then { k with st := .idle, heldAt := none, waitStart := none } else k) s

/-- The class 0 stop of the job (R436, R451): the cores stop, the COMMITs not yet written are refused, a JOB event of kind halted. -/
def State.haltJob (s : State) : State :=
  match s.job with
  | none => s
  | some j =>
    if j.halted then s
    else ({ s.idleCores with job := some { j with halted := true }, commitWait := [] }).jobEvent 5

/-- The job stops at its next step boundary (R451, R424). -/
def State.stopAtBoundary (s : State) : State :=
  match s.job with
  | none => s
  | some j => { s with job := some { j with stopping := true } }

/-- The job halts at its next step boundary (R289, R366). -/
def State.haltAtBoundary (s : State) : State :=
  match s.job with
  | none => s
  | some j => { s with job := some { j with stopping := true, haltNext := true } }

/-- A step boundary: a COMMIT has completed or failed, and a stop that waits for it takes place (R421, R451). -/
def State.atBoundary (s : State) : State :=
  match s.job with
  | none => s
  | some j =>
    if !j.stopping || j.halted || j.stopped then s
    else if j.haltNext then s.haltJob
    else ({ s.idleCores with job := some { j with stopped := true } }).jobEvent 3

/-! ### Fresh values -/

/-- The state after a free value has been drawn. -/
def State.draw (s : State) : State := { s with fresh := s.fresh + 1 }

/-- The device with one more array cycle passed (R570): what a step does when no command waits. -/
def tick (s : State) : State := { s with cycle := s.cycle + 1 }

end Sys2Proof.Machine
end

