-- ==== Sys2Proof/Machine/Mem.lean ====
section
/-!
DEFINITION. The byte memory of the device behind the map of R519: regions, poison marks by granule (R111, R200), the read and write
paths of a vault controller (R186 to R195, R199, R218) and what a write does for the checkpoint (R369, R374).
-/

namespace Sys2Proof.Machine

/-! ### Regions (R519) -/

/-- Whether a range lies in the DRAM (R181). -/
def inDram (a n : Nat) : Bool := decide (a + n ≤ Config.dramEnd)

/-- Whether a range lies in the data region of core c's tile store (R107, R112). -/
def inTileData (c a n : Nat) : Bool :=
  decide (Config.tileBase + c * Config.tileWindow ≤ a) &&
    decide (a + n ≤ Config.tileBase + c * Config.tileWindow + Config.tileData)

/-- The device address of offset `off` in the window of core c. -/
def tileAddr (c off : Nat) : Nat := Config.tileBase + c * Config.tileWindow + off

/-- The core whose tile store data region holds a whole range. -/
def tileCore (a n : Nat) : Option Nat :=
  if a < Config.tileBase then none
  else
    let c := (a - Config.tileBase) / Config.tileWindow
    if c < 32 ∧ inTileData c a n then some c else none

/-- The vault of a DRAM address (R181). -/
def vaultOf (a : Nat) : Nat := nbits a 14 6
/-- The die of a DRAM address (R181). -/
def dieOf (a : Nat) : Nat := nbits a 7 3
/-- The bank of a DRAM address (R181). -/
def bankOf (a : Nat) : Nat := nbits a 20 5
/-- The page of a DRAM address (R181). -/
def pageOf (a : Nat) : Nat := nbits a 25 13
/-- The address of the DRAM page that holds an address: column and byte bits zero (R445). -/
def dramPageLoc (a : Nat) : Nat := a - a % 2 ^ 7 - nbits a 10 4 * 2 ^ 10

/-! ### Plain access -/

/-- The mark of a granule: the majority of its three copies (R192, R197). -/
def State.mark (s : State) (g : Nat) : Bool := metaMark (metaByte (mget false s.marks g) ^^^ mget 0 s.metaErrs g)
/-- One byte of memory. -/
def State.byte (s : State) (a : Nat) : Byte := mget 0 s.mem a

/-- Read a range: each byte with the mark of its granule (R111). -/
def readP (s : State) (a n : Nat) : List PByte :=
  (List.range n).map fun i => (s.byte (a + i), s.mark ((a + i) / 64))

/-- Read a range as bytes. -/
def readB (s : State) (a n : Nat) : List Byte := (List.range n).map fun i => s.byte (a + i)

/-- Read `n` bytes as a little-endian number (R14). -/
def readN (s : State) (a n : Nat) : Nat := fromBytes (readB s a n)

/-- Whether any granule of a range is marked. -/
def poisonedIn (s : State) (a n : Nat) : Bool :=
  (List.range ((a + n + 63) / 64 - a / 64)).any fun i => decide (0 < n) && s.mark (a / 64 + i)

/-- The addresses of the marked granules of a range. -/
def poisonedGranules (s : State) (a n : Nat) : List Nat :=
  if n = 0 then []
  else ((List.range ((a + n + 63) / 64 - a / 64)).map fun i => a / 64 + i).filter fun g => s.mark g

/-- Bytes of memory after a write. -/
def memSet (m : SMap Byte) (a : Nat) (bs : List Byte) : SMap Byte :=
  bs.zipIdx.foldl (fun m (b, i) => mset 0 m (a + i) b) m

/-- The mark of granule g after a write of bytes at `a` (R111): a whole cover takes the mark of the data, a partial one only sets. -/
def markAfter (old : Bool) (g a : Nat) (bs : List PByte) : Bool :=
  let n := bs.length
  let part := (bs.zipIdx.filter fun (_, i) => decide ((a + i) / 64 = g)).any fun (b, _) => b.2
  if a ≤ 64 * g ∧ 64 * g + 64 ≤ a + n then part else old || part

/-- The granules that a range touches. -/
def granulesOf (a n : Nat) : List Nat :=
  if n = 0 then [] else (List.range ((a + n + 63) / 64 - a / 64)).map (a / 64 + ·)

/-- The 64-bit words of on-die stores that a range touches. -/
def wordsOf (a n : Nat) : List Nat :=
  if n = 0 ∨ a < Config.tileBase then [] else (List.range ((a + n + 7) / 8 - a / 8)).map (a / 8 + ·)

/-- Write bytes with their poison, without a vault controller (tile stores and hot-row slots, R110, R111): words and mark copies are
encoded afresh. -/
def writeP (s : State) (a : Nat) (bs : List PByte) : State :=
  { s with
    mem := memSet s.mem a (bs.map (·.1))
    marks := (granulesOf a bs.length).foldl (fun m g => mset false m g (markAfter (s.mark g) g a bs)) s.marks
    metaErrs := (granulesOf a bs.length).foldl (fun m g => mset 0 m g 0) s.metaErrs
    sramErrs := (wordsOf a bs.length).foldl (fun m w => mset 0 m w 0) s.sramErrs }

/-- Bytes without poison. -/
def clean (bs : List Byte) : List PByte := bs.map fun b => (b, false)
/-- Bytes with one mark for all. -/
def marked (p : Bool) (bs : List Byte) : List PByte := bs.map fun b => (b, p)

/-! ### Events for the unit history (R444, R445) -/

/-- The unit id of a record: UCLASS in the low four bits, UINST above (R444, R454). -/
def unitId (uclass uinst : Nat) : BitVec 16 := BitVec.ofNat 16 (uclass % 16 + 16 * (uinst % 2 ^ 12))

/-- Enter an event in the unit history's waiting entries: merged into the entry of its place and code of the last second (R445). -/
def State.noteEvent (s : State) (ekind : Nat) (unit : BitVec 16) (code loc : Nat) : State :=
  let t := s.ptime
  let same := fun (e : HistEntry) =>
    ekind == 1 && e.ekind == 1 && e.unit == unit && e.ecode == BitVec.ofNat 8 code && e.loc == BitVec.ofNat 48 loc &&
      decide (t ≤ e.ptime + 1000)
  let h := s.integ.histPending
  if h.any same then
    { s with integ := { s.integ with histPending := h.map fun e => if same e then { e with count := e.count + 1 } else e } }
  else
    { s with integ := { s.integ with
        histPending := h ++ [⟨t, unit, BitVec.ofNat 8 ekind, BitVec.ofNat 8 code, 1, BitVec.ofNat 48 loc⟩] } }

/-! ### On-die SRAMs (R196, R197)

A word has one number over all SRAMs: its address div 8 in a tile store or a hot-row slot, then the accumulator entries, the directory words
and the words of the buffers. -/

/-- The first number of the accumulator entries. -/
abbrev accWords : Nat := 2 ^ 46
/-- The first number of the directory words of the hot-row slices. -/
abbrev dirWords : Nat := 2 ^ 47
/-- The first number of the words of buffers and caches. -/
abbrev bufferWords : Nat := 2 ^ 48

/-- The number of a word: 1,048,576 words a tile store, 65,536 entries a bank, 131,072 words of slots and 4,096 of directory a slice, and
1,048,576 places for the words of each other buffer (DESIGN CHOICE, log 153: the spec gives their sizes nowhere). -/
def sramKey : SramWord → Nat
  | .tile c w => tileAddr c.val 0 / 8 + w % 2 ^ 20
  | .acc ph n => accWords + ph.val * 65536 + n % 65536
  | .hot v w => Config.hotBase / 8 + v.val * 2 ^ 17 + w % 2 ^ 17
  | .dir v w => dirWords + v.val * 4096 + w % 4096
  | .buffer u w => bufferWords + w % 2 ^ 20 + 2 ^ 20 * match u with
    | .rowUnit v => 7 * 4096 + v.val
    | .teasel u => 8 * 4096 + u.val
    | .exchange e => 9 * 4096 + e.val
    | .platform k => 0xB * 4096 + k.val
  | .sharedCache w => bufferWords + w % 2 ^ 20 + 2 ^ 20 * (0xB * 4096 + 8)

/-- The unit of a word and the place that a record names (R454): the granule of a tile store or slot, the entry of a bank, the number of
a directory or buffer word. -/
def sramPlace (key : Nat) : Nat × Nat × Nat :=
  let a := 8 * key
  if key < accWords then
    if a < Config.tileEnd then (5, (a - Config.tileBase) / Config.tileWindow * 16 + nbits a 7 4, a - a % 64)
    else (7, (a - Config.hotBase) / 2 ^ 20, a - a % 64)
  else if key < dirWords then (3, (key - accWords) / 65536, (key - accWords) % 65536)
  else if key < bufferWords then (7, (key - dirWords) / 4096, (key - dirWords) % 4096)
  else
    let u := (key - bufferWords) / 2 ^ 20
    (u / 4096, u % 4096, (key - bufferWords) % 2 ^ 20)

/-- Flip bits of a word's code word: bits [63:0] are its data, as the reads that do not check it would find it. -/
def sramFlip (s : State) (key : Nat) (e : BitVec 72) : State :=
  let data := nbits e.toNat 0 64
  let s := { s with sramErrs := mset 0 s.sramErrs key (mget 0 s.sramErrs key ^^^ e) }
  if key < accWords then
    { s with mem := memSet s.mem (8 * key) (toBytes 8 (fromBytes (readB s (8 * key) 8) ^^^ data)) }
  else if key < dirWords then
    { s with acc := mset 0 s.acc (key - accWords) (mget 0 s.acc (key - accWords) ^^^ BitVec.ofNat 64 data) }
  else s

/-- A read of an SRAM word (R197): a corrected one is written back and counted, in VLT_ECC where the unit's page has the count and in the
unit history; an uncorrectable one is recorded, and the flag tells it. -/
def sramRead (s : State) (key : Nat) : State × Bool :=
  let e := mget 0 s.sramErrs key
  let (uc, ui, loc) := sramPlace key
  match secded e with
  | .clean => (s, false)
  | .corrected left =>
    let t := sramFlip s key (e ^^^ left)
    let t := if uc = 7 then t.modVault ui fun v => { v with ce := satAdd 32 v.ce 1 } else t
    (t.noteEvent 1 (unitId uc ui) 0x15 loc, false)
  | .uncorrectable => (s.emit { code := 0x15, uclass := uc, uinst := ui, addr := loc }, true)

/-- Set the mark of a granule in all its copies. -/
def setMark (s : State) (g : Nat) : State :=
  { s with marks := mset false s.marks g true, metaErrs := mset 0 s.metaErrs g 0 }

/-- The reads of the words of a range of a tile store in which flips stand: an uncorrectable one marks its granule (R197). -/
def fetchTile (s : State) (a n : Nat) : State :=
  ((s.sramErrs.map (·.1)).filter fun w => (wordsOf a n).contains w && decide (8 * w < Config.tileEnd)).foldl (fun t w =>
    let r := sramRead t w
    if r.2 then setMark r.1 (w / 8) else r.1) s

/-! ### The vault controller -/

/-- Count in VLT_ECC (R216). -/
def Vault.ecc (v : Vault) (ce ue retry : Nat) : Vault :=
  { v with ce := satAdd 32 v.ce ce, ue := satAdd 16 v.ue ue, retry := satAdd 16 v.retry retry }

/-- Whether a remap word redirects a page to a spare (R203, R204). -/
def Vault.redirects (v : Vault) (die bank page : Nat) : Bool :=
  v.remap.any fun w => w.die.toNat == die && w.bank.toNat == bank && w.page.toNat == page

/-- The summary record of a window whose detections were replaced, and a fresh window (R199). -/
def flushDetections (s : State) (v : Nat) : State :=
  let u := s.vault v
  let t := match u.detFirst with
    | some (inst, a) => s.emit
        { code := 0x16, uclass := 6, uinst := inst.toNat, addr := a.toNat, count := u.detSkipped, detail := u.detDies.toNat }
    | none => s
  t.modVault v fun u => { u with detCount := 0, detSkipped := 0, detFirst := none, detDies := 0 }

/-- A detection record of a die of a vault (R199): after 64 in one 1 ms window the further ones are replaced by a summary. -/
def detectAt (s : State) (v die a code : Nat) : State :=
  let w := s.nowNs / 1000000
  let s := if (s.vault v).detWindow = w then s else (flushDetections s v).modVault v fun u => { u with detWindow := w }
  let u := s.vault v
  let inst := v * 8 + die
  if u.detCount < 64 then
    (s.emit { code := code, uclass := 6, uinst := inst, addr := a }).modVault v fun u => { u with detCount := u.detCount + 1 }
  else
    s.modVault v fun u =>
      { u with
        detSkipped := u.detSkipped + 1
        detFirst := some (u.detFirst.getD (BitVec.ofNat 12 inst, BitVec.ofNat 48 a))
        detDies := u.detDies ||| BitVec.ofNat 8 (2 ^ die) }

/-- A detection record of a granule's vault. -/
def detect (s : State) (a code : Nat) : State := detectAt s (vaultOf a) (dieOf a) a code

/-- A pattern of a state's map as numbers. -/
def patternOf (e : List (Nat × BitVec 16)) : List (Nat × Nat) := e.map fun (p, v) => (p, v.toNat)

/-- Put a granule's 64 bytes and mark back with fresh check symbols: a correction write-back, which is no write of R369 (R193, R211). -/
def rewriteGranule (s : State) (g : Nat) (bytes : List Byte) (mark : Bool) : State :=
  { s with
    mem := memSet s.mem (64 * g) bytes
    marks := mset false s.marks g mark
    errs := mset [] s.errs g []
    metaErrs := mset 0 s.metaErrs g 0 }

/-- A controller's read of granule g (R192, R193): corrected, retried, or delivered poisoned and written back marked. `first` and
`second` are what the two reads meet beside the errors that stand in the granule. -/
def readGranule (s : State) (g : Nat) (first second : Disturb) : State :=
  let a := 64 * g
  let v := vaultOf a
  let stored := patternOf (mget [] s.errs g)
  let data := readB s a 64
  let unit := unitId 6 (v * 8 + dieOf a)
  let storedMeta := metaByte (mget false s.marks g) ^^^ mget 0 s.metaErrs g
  let good := fun (d : Disturb) (s : State) (fix : List (Nat × Nat)) (retry : Nat) =>
    let m := storedMeta ^^^ d.mdata
    let metaFix := m != metaByte (metaMark m)
    let residual := patternXor (patternXor stored (patternOf d.syms)) fix
    let t := rewriteGranule s g (applyPattern data residual) (metaMark m)
    let corrected := !fix.isEmpty || metaFix
    let t := t.modVault v fun u => u.ecc (if corrected then 1 else 0) 0 retry
    if corrected then t.noteEvent 1 unit 0x14 (dramPageLoc a) else t
  let bad := fun (d : Disturb) (s : State) =>
    let t := rewriteGranule s g (applyPattern data (patternXor stored (patternOf d.syms))) true
    let t := t.modVault v fun u => u.ecc 0 1 0
    detect t a 0x14
  let decoded := fun (d : Disturb) => if d.cmdFail then RsResult.uncorrectable else rsOfPattern (patternXor stored (patternOf d.syms))
  match decoded first with
  | .clean =>
    if storedMeta ^^^ first.mdata = metaByte (metaMark (storedMeta ^^^ first.mdata)) ∧ stored = [] then s else good first s [] 0
  | .corrected fix => good first s fix 0
  | .uncorrectable =>
    match decoded second with
    | .clean => good second s [] 1
    | .corrected fix => good second s fix 1
    | .uncorrectable => bad second s

/-- No disturbance. -/
def quiet : Disturb := ⟨[], 0, false⟩

/-- The reads of a range in which errors stand: of its granules at their vault controllers, of its words in a tile store. -/
def fetchRange (s : State) (a n : Nat) : State :=
  let gs := ((s.errs.map (·.1)) ++ (s.metaErrs.map (·.1))).filter fun g =>
    decide (0 < n) && decide (a / 64 ≤ g) && decide (g ≤ (a + n - 1) / 64) && decide (64 * g < Config.dramEnd)
  fetchTile (gs.foldl (fun t g => readGranule t g quiet quiet) s) a n

/-- Clear a granule's standing errors, once it has been encoded afresh. -/
def clearErrors (s : State) (g : Nat) : State :=
  { s with errs := mset [] s.errs g [], metaErrs := mset 0 s.metaErrs g 0 }

/-- The CRC-64 of a page (R364). -/
def pageCrcOf (s : State) (page : Nat) : BitVec 64 := crc64 (readB s (4096 * page) 4096)

/-- Copy-before-write of page `p` (R374): the pending page is read (R193) and goes to the copy buffer, a digest-pending page gets its CRC,
PEND clears. -/
def copyBefore (s : State) (p : Nat) : State :=
  let ck := mget false s.mirror.pend p
  let dg := mget false s.mirror.digPend p
  if ck || dg then
    let s := fetchRange s (4096 * p) 4096
    let m := s.mirror
    { s with mirror := { m with
        copies := if ck then m.copies ++ [⟨p, readP s (4096 * p) 4096⟩] else m.copies
        pageCrc := if dg then mset 0 m.pageCrc p (pageCrcOf s p) else m.pageCrc
        pend := mset false m.pend p false
        digPend := mset false m.digPend p false } }
  else s

/-- The 4 KiB pages that a range touches. -/
def pagesOf (a n : Nat) : List Nat :=
  if n = 0 then [] else (List.range ((a + n + 4095) / 4096 - a / 4096)).map (a / 4096 + ·)

/-- Set DIRTY on the pages of a range (R369). -/
def setDirty (s : State) (a n : Nat) : State :=
  { s with mirror := { s.mirror with dirty := (pagesOf a n).foldl (fun m p => mset false m p true) s.mirror.dirty } }

/-- The injection of R218 onto a granule that has just been written. -/
def injectAt (s : State) (g : Nat) : State :=
  let v := vaultOf (64 * g)
  let i := (s.vault v).inj
  if i.arm && i.granule.toNat == g then
    let n := match i.mode.toNat with | 1 => 1 | 2 => 2 | 3 => 3 | _ => 0
    let named := ([i.sym0, i.sym1, i.sym2].take n).map (·.toNat)
    let pat : List (Nat × BitVec 16) := (rsPositions.filter fun p => named.contains p).map fun p => (p, 0x8001)
    let t := s.modVault v fun u => { u with inj := { u.inj with arm := false } }
    let t := if pat.isEmpty then t else { t with errs := mset [] t.errs g pat }
    if i.mode = 4 then { t with marks := mset false t.marks g true }
    else if i.mode = 5 then { t with metaErrs := mset 0 t.metaErrs g 1 } else t
  else s

/-- A write that a vault controller accepts (R186, R194): the merge read of granules written in part, copy-before-write, the bytes and
marks, fresh check symbols, DIRTY and an armed injection. -/
def writeDram (s : State) (a : Nat) (bs : List PByte) : State :=
  let n := bs.length
  let gs := granulesOf a n
  let whole := fun g => decide (a ≤ 64 * g) && decide (64 * g + 64 ≤ a + n)
  let s := gs.foldl (fun t g => if whole g then t else fetchRange t (64 * g) 64) s
  let s := (pagesOf a n).foldl copyBefore s
  let s := writeP s a bs
  let s := gs.foldl clearErrors s
  gs.foldl injectAt (setDirty s a n)

/-- A write to the device memory or to an on-die store. -/
def store (s : State) (a : Nat) (bs : List PByte) : State :=
  if bs = [] then s else if inDram a bs.length then writeDram s a bs else writeP s a bs

/-- A read that software sees: the controllers' reads, then the bytes with their marks. -/
def loadBytes (s : State) (a n : Nat) : State × List PByte :=
  let t := fetchRange s a n
  (t, readP t a n)

/-- An 8-byte aligned write of a number of `n` bytes. -/
def storeN (s : State) (a n x : Nat) : State := store s a (clean (toBytes n x))

end Sys2Proof.Machine
end

