-- ==== Sys2Proof/Machine/Classify.lean ====
section
/-!
DEFINITION. A permanent classification: its record, its action and how it ends the job (R448 to R451), and the withdrawal of the part.
-/

namespace Sys2Proof.Machine

/-- Add an action that waits for a reset (R449), once. -/
def State.addAction (s : State) (a : Action) : State :=
  if s.integ.actions.contains a then s else { s with integ := { s.integ with actions := s.integ.actions ++ [a] } }

/-- Sign and append an amendment with the map and grade in force after it (R496); without identity the device signs none (R500). -/
def writeAmendment (s : State) (kind : Nat) (grade : BitVec 8) (amap : List Byte) : State :=
  if s.plt.noid then s
  else { s with flash := { s.flash with amends := s.flash.amends ++ [⟨BitVec.ofNat 8 kind, grade, amap⟩] } }

/-- The part is withdrawn (R11, R449, R497): the record, and the amendment of kind 3, for which a slot is always left. -/
def withdrawPart (s : State) : State :=
  if s.integ.withdrawn then s
  else
    let t := s.emit { code := 0x26, uclass := 0, uinst := 0 }
    writeAmendment { t with integ := { t.integ with withdrawn := true } } 3 s.grade s.amap

/-- The part is withdrawn at once (R449): also the class 0 stop of the job (R451). -/
def withdrawNow (s : State) : State := if s.integ.withdrawn then s else (withdrawPart s).haltJob

/-- Spare rows used of the SRAM macro of a unit (R449). -/
def spareUsed (s : State) (unit : BitVec 16) : Nat := mget 0 s.integ.spareRows unit.toNat

/-- The action of R449 for a unit, a place and the deciding code. -/
def actionOf (s : State) (uclass uinst loc code : Nat) : Option Action :=
  let unit := unitId uclass uinst
  let sram := code == 0x15 && decide (spareUsed s unit < 4)
  match uclass with
  | 2 => some (.amendArray (uinst / 4))
  | 3 => if sram then some (.spareRow unit) else some (.amendArray uinst)
  | 6 => if code = 0x1A then none else some (.remapPage (uinst / 8) (uinst % 8) (bankOf loc) (pageOf loc))
  | 7 => if sram then some (.spareRow unit) else if code = 0x15 then some (.sliceOff uinst) else some .withdraw
  | 1 | 4 | 5 | 8 => if sram then some (.spareRow unit) else some .withdraw
  | 9 => if sram then some (.spareRow unit) else if code ≠ 0x15 ∧ loc % 2 ^ 12 ≠ 0 then none else some .withdraw
  | 0xA => some (.hostPortOff uinst)
  | 0xB => if sram then some (.spareRow unit) else if uinst < 8 then some (.cpuOff uinst) else some .withdraw
  | _ => none

/-- A lane group that a classification names is dropped at the next retrain (R312, R449). -/
def dropLanes (s : State) (uclass uinst loc code : Nat) : State :=
  if uclass = 9 ∧ code ≠ 0x15 then s.modPort uinst fun p => { p with dropped := p.dropped ||| BitVec.ofNat 12 loc } else s

/-- Codes whose classification leaves the job running: array outcomes, datapath and poison (R451). -/
def runsOn (code : Nat) : Bool := [0x11, 0x12, 0x14, 0x15, 0x21, 0x22].contains code

/-- Whether the running job uses a unit (R451). DEDUCED (log 134): the cores that have an image, with their units; the vaults, row units and
Teasel units; the exchange engines and ports; neither the host ports nor the platform processors. -/
def jobUses (s : State) (uclass uinst : Nat) : Bool :=
  match s.prog with
  | none => false
  | some p =>
    let core := fun (c : Nat) => p.images.any fun i => i.core.val == c
    match uclass with
    | 1 | 4 => core uinst
    | 2 | 5 => core (uinst / 16)
    | 3 => core (uinst / 4)
    | 0 | 6 | 7 | 8 | 9 => true
    | _ => false

/-- A permanent classification (R448): record 0x23 with the deciding code, the action of R449 and the job's ending
of R451. -/
def classify (s : State) (uclass uinst loc code : Nat) : State :=
  let t := s.emit { code := 0x23, uclass := uclass, uinst := uinst, addr := loc, detail := code }
  let t := { t with integ := { t.integ with perm := satAdd 16 t.integ.perm 1 } }
  let t := dropLanes t uclass uinst loc code
  let atOnce := uclass == 6 && (code == 0x17 || code == 0x18)
  let t := if atOnce then withdrawNow t
    else match actionOf t uclass uinst loc code with
      | some a => t.addAction a
      | none => t
  let used := t.jobRuns && jobUses t uclass uinst
  if code = 0x1E ∧ used then t.haltJob
  else if runsOn code ∨ atOnce ∨ !used then t
  else t.stopAtBoundary

end Sys2Proof.Machine
end

