-- ==== Sys2Proof/Machine/Numerics.lean ====
section
/-!
DEFINITION. Number formats, rounding, block conversions and the Sorrel generator (chapter 02). A number is exact until one rounding.
-/

namespace Sys2Proof.Machine

/-! ### Exact numbers -/

/-- A number: the one NaN, an infinity, or ± n × 2^e exactly (R36). -/
inductive XNum where
  | nan
  | inf (neg : Bool)
  | fin (neg : Bool) (n : Nat) (e : Int)
  deriving DecidableEq, Repr

/-- A rounding mode (R50). -/
inductive Rnd where
  | rne
  | rtz
  | rto
  | sr
  deriving DecidableEq, Repr

/-- The mode that a rounding field selects (R50). -/
def rndOf (field : Nat) : Rnd :=
  match field with
  | 0 => .rne
  | 1 => .rtz
  | 2 => .rto
  | _ => .sr

/-- +0. -/
def XNum.zero : XNum := .fin false 0 0

/-- An integer times a power of two; 0 is +0. -/
def XNum.ofInt (i : Int) (e : Int) : XNum := .fin (decide (i < 0)) i.natAbs e

/-- The sign bit. -/
def XNum.sign : XNum → Bool
  | .nan => false
  | .inf s => s
  | .fin s _ _ => s

/-- Whether a number is finite. -/
def XNum.finite : XNum → Bool
  | .fin _ _ _ => true
  | _ => false

/-- Whether a number is ±0. -/
def XNum.isZero : XNum → Bool
  | .fin _ 0 _ => true
  | _ => false

/-- The number with its sign changed; NaN stays NaN (R36). -/
def XNum.neg : XNum → XNum
  | .nan => .nan
  | .inf s => .inf !s
  | .fin s n e => .fin (!s) n e

/-- The magnitude. -/
def XNum.abs : XNum → XNum
  | .nan => .nan
  | .inf _ => .inf false
  | .fin _ n e => .fin false n e

/-- The signed integer n × 2^(e − e0), for e0 ≤ e. -/
def XNum.scaled (s : Bool) (n : Nat) (e e0 : Int) : Int :=
  let m : Int := (n <<< (e - e0).toNat : Nat)
  if s then -m else m

/-- The exact sum (R46): an exact zero sum of opposite signs is +0, (−0) + (−0) is −0, ∞ − ∞ is NaN. -/
def XNum.add : XNum → XNum → XNum
  | .nan, _ => .nan
  | _, .nan => .nan
  | .inf s, .inf t => if s = t then .inf s else .nan
  | .inf s, .fin _ _ _ => .inf s
  | .fin _ _ _, .inf t => .inf t
  | .fin s n e, .fin t m f =>
    let e0 := min e f
    let z := XNum.scaled s n e e0 + XNum.scaled t m f e0
    if z = 0 then .fin (s && t && n == 0 && m == 0) 0 0 else XNum.ofInt z e0

/-- The exact difference. -/
def XNum.sub (a b : XNum) : XNum := a.add b.neg

/-- The exact product (R46): 0 × ∞ is NaN. -/
def XNum.mul : XNum → XNum → XNum
  | .nan, _ => .nan
  | _, .nan => .nan
  | .inf s, .inf t => .inf (s != t)
  | .inf s, .fin t m _ => if m = 0 then .nan else .inf (s != t)
  | .fin s n _, .inf t => if n = 0 then .nan else .inf (s != t)
  | .fin s n e, .fin t m f => .fin (s != t) (n * m) (e + f)

/-- A < B on numbers that are not NaN. -/
def XNum.lt : XNum → XNum → Bool
  | .nan, _ => false
  | _, .nan => false
  | .inf s, .inf t => s && !t
  | .inf s, .fin _ _ _ => s
  | .fin _ _ _, .inf t => !t
  | .fin s n e, .fin t m f =>
    let e0 := min e f
    decide (XNum.scaled s n e e0 < XNum.scaled t m f e0)

/-- Whether a number is NaN. -/
def XNum.isNan : XNum → Bool
  | .nan => true
  | _ => false

/-- A = B as values (+0 equals −0). -/
def XNum.eq (a b : XNum) : Bool := !a.isNan && !b.isNan && !a.lt b && !b.lt a

/-- The larger (R121): NaN if either is NaN; the larger of +0 and −0 is +0. -/
def XNum.max (a b : XNum) : XNum :=
  if a.isNan || b.isNan then .nan
  else if a.lt b then b else if b.lt a then a else if a.sign then b else a

/-- The smaller (R121): the smaller of +0 and −0 is −0. -/
def XNum.min (a b : XNum) : XNum :=
  if a.isNan || b.isNan then .nan
  else if a.lt b then a else if b.lt a then b else if a.sign then a else b

/-- The floor of log2 of n × 2^e, for n > 0. -/
def flog2 (n : Nat) (e : Int) : Int := (Nat.log2 n : Int) + e

/-! ### Rounding (R51) -/

/-- n × 2^e rounded to an integer count of 2^q (R51); `w` is the Sorrel draw of stochastic rounding. -/
def roundQ (mode : Rnd) (w : Nat) (n : Nat) (e q : Int) : Nat :=
  if q ≤ e then n <<< (e - q).toNat
  else
    let k := (q - e).toNat
    let a := n >>> k
    let r := n - a <<< k
    match mode with
    | .rtz => a
    | .rne =>
      let r2 := 2 * r
      let one := 1 <<< k
      if one < r2 ∨ (r2 = one ∧ a % 2 = 1) then a + 1 else a
    | .rto => if r = 0 then a else if a % 2 = 0 then a + 1 else a
    | .sr => if w < (r <<< 16) >>> k then a + 1 else a

/-- A number that lies strictly between q and q + 1 units of 2^e when `inexact`, as a number with one more bit (a sticky bit), so that
one later rounding to a coarser quantum is right. -/
def sticky (neg : Bool) (q : Nat) (e : Int) (inexact : Bool) : XNum :=
  .fin neg (2 * q + (if inexact then 1 else 0)) (e - 1)

/-- The quotient to 130 bits and a sticky bit; the corner cases are R46's, with the largest finite value standing in `big` for a
finite value over ±0. -/
def XNum.div (big : Bool → XNum) (a b : XNum) : XNum :=
  match a, b with
  | .nan, _ => .nan
  | _, .nan => .nan
  | .inf _, .inf _ => .nan
  | .inf s, .fin t _ _ => .inf (s != t)
  | .fin s _ _, .inf t => .fin (s != t) 0 0
  | .fin s n e, .fin t m f =>
    if m = 0 then (if n = 0 then .nan else big (s != t))
    else if n = 0 then .fin (s != t) 0 0
    else
      let k := 130 + Nat.log2 m
      let x := n <<< k
      sticky (s != t) (x / m) (e - f - k) (x % m != 0)

/-- The integer square root by bits from `2^i` down, `r` found so far. -/
def isqrtGo (n : Nat) : Nat → Nat → Nat
  | 0, r => r
  | i + 1, r =>
    let r' := r + 1 <<< i
    if r' * r' ≤ n then isqrtGo n i r' else isqrtGo n i r

/-- The integer square root. -/
def isqrt (n : Nat) : Nat := isqrtGo n (Nat.log2 n / 2 + 1) 0

/-- The square root with a sticky bit (R46, R121). -/
def XNum.sqrt : XNum → XNum
  | .nan => .nan
  | .inf s => if s then .nan else .inf false
  | .fin s n e =>
    if n = 0 then .fin s 0 0
    else if s then .nan
    else
      let k : Int := 200 + (e % 2)
      let m := n <<< k.toNat
      let r := isqrt m
      sticky false r ((e - k) / 2) (r * r != m)

/-- The reciprocal square root with a sticky bit (R121). -/
def XNum.rsqrt : XNum → XNum
  | .nan => .nan
  | .inf s => if s then .nan else .fin false 0 0
  | .fin s n e =>
    if n = 0 then .inf s
    else if s then .nan
    else
      let m := n <<< (e % 2).toNat
      let k := 130 + Nat.log2 m
      let q := 1 <<< (2 * k)
      let r := isqrt (q / m)
      sticky false r (-(k : Int) - (e - e % 2) / 2) (r * r * m != q)

/-- Bits of the fixed-point fractions of exp2 and log2. -/
abbrev fixBits : Nat := 200

/-- ln 2 × 2^200, truncated. -/
def ln2Fix : Nat := 1113844574712631719546256151097547306333272293549090750737802

/-- The Taylor sum of e^y for 0 ≤ y < 1 in units of 2^-200: `t` is the current term, `k` its number. -/
def expGo (y : Nat) : Nat → Nat → Nat → Nat → Nat
  | 0, _, _, acc => acc
  | f + 1, k, t, acc =>
    let t' := ((t * y) >>> fixBits) / (k + 1)
    expGo y f (k + 1) t' (acc + t')

/-- 2^x with a sticky bit (R121); a result of an exponent far outside every format keeps its place with one bit. -/
def XNum.exp2 : XNum → XNum
  | .nan => .nan
  | .inf s => if s then .fin false 0 0 else .inf false
  | .fin s n e =>
    if n = 0 then .fin false 1 0
    else if 20 < flog2 n e then (if s then .fin false 1 (-1000000) else .fin false 1 1000000)
    else
      -- x in units of 2^-400, floored; exact when e ≥ -400
      let mag := if 0 ≤ e + 400 then n <<< (e + 400).toNat else n >>> (-(e + 400)).toNat
      let low := decide (e + 400 < 0) && n % (1 <<< (-(e + 400)).toNat) != 0
      let z : Int := if s then -(mag : Int) - (if low then 1 else 0) else mag
      let i := z / (2 ^ 400 : Nat)
      let f := (z % (2 ^ 400 : Nat)).toNat
      if f = 0 ∧ low = false then .fin false 1 i
      else
        let y := ((f >>> 200) * ln2Fix) >>> fixBits
        let v := expGo y 60 0 (1 <<< fixBits) (1 <<< fixBits)
        sticky false v (i - fixBits) true

/-- Bits of log2 of m / 2^256 in [1, 2): squaring and halving, `acc` the bits so far. -/
def log2Go : Nat → Nat → Nat → Nat
  | 0, _, acc => acc
  | f + 1, m, acc =>
    let s := (m * m) >>> 256
    if 2 ^ 257 ≤ s then log2Go f (s / 2) (2 * acc + 1) else log2Go f s (2 * acc)

/-- log2 with a sticky bit (R121). -/
def XNum.log2 : XNum → XNum
  | .nan => .nan
  | .inf s => if s then .nan else .inf false
  | .fin s n e =>
    if n = 0 then .inf true
    else if s then .nan
    else
      let k := flog2 n e
      if n = 1 <<< Nat.log2 n then XNum.ofInt k 0
      else
        let m := (n <<< 256) >>> Nat.log2 n
        let fr := log2Go 110 m 0
        XNum.ofInt (2 * (k * (2 ^ 110 : Nat) + fr) + 1) (-111)

/-! ### Floating-point formats (R35, R45, R48) -/

/-- A floating-point format: widths, bias, how the top exponent is used (0 for values only, 1 for one NaN code, 2 for infinity and
NaN), the canonical NaN and the largest finite magnitude maxN × 2^maxE. -/
structure FFmt where
  ew : Nat
  fw : Nat
  bias : Int
  special : Nat
  nanBits : Nat
  maxN : Nat
  maxE : Int
  deriving DecidableEq, Repr

/-- FP32 (R35). -/
def fFP32 : FFmt := ⟨8, 23, 127, 2, 0x7FC00000, 2 ^ 24 - 1, 104⟩
/-- FP16 (R35). -/
def fFP16 : FFmt := ⟨5, 10, 15, 2, 0x7E00, 2 ^ 11 - 1, 5⟩
/-- bfloat16 (R35). -/
def fBF16 : FFmt := ⟨8, 7, 127, 2, 0x7FC0, 2 ^ 8 - 1, 120⟩
/-- FP8 E4M3 (R35): no infinity, one NaN magnitude, largest finite 448. -/
def fE4M3 : FFmt := ⟨4, 3, 7, 1, 0x7F, 14, 5⟩
/-- FP8 E5M2 (R35). -/
def fE5M2 : FFmt := ⟨5, 2, 15, 2, 0x7E, 7, 13⟩
/-- Z56 (R45). -/
def fZ56 : FFmt := ⟨15, 40, 16383, 2, 0x7FFF8000000000, 2 ^ 41 - 1, 16343⟩
/-- MXFP6 E2M3 elements (R48). -/
def fE2M3 : FFmt := ⟨2, 3, 1, 0, 0, 15, -1⟩
/-- MXFP6 E3M2 elements (R48). -/
def fE3M2 : FFmt := ⟨3, 2, 3, 0, 0, 7, 2⟩
/-- MXFP4 E2M1 elements (R48). -/
def fE2M1 : FFmt := ⟨2, 1, 1, 0, 0, 3, 1⟩

/-- The value of a bit pattern (R35, R36, R45). -/
def FFmt.decode (f : FFmt) (bits : Nat) : XNum :=
  let frac := nbits bits 0 f.fw
  let ex := nbits bits f.fw f.ew
  let s := nbits bits (f.fw + f.ew) 1 == 1
  let top := 2 ^ f.ew - 1
  if f.special = 2 ∧ ex = top then (if frac = 0 then .inf s else .nan)
  else if f.special = 1 ∧ ex = top ∧ frac = 2 ^ f.fw - 1 then .nan
  else if ex = 0 then .fin s frac (1 - f.bias - f.fw)
  else .fin s (2 ^ f.fw + frac) ((ex : Int) - f.bias - f.fw)

/-- Bits, saturation events and non-finite events of one conversion. -/
structure Conv where
  bits : Nat
  sat : Nat := 0
  nf : Nat := 0
  deriving DecidableEq, Repr

/-- The sign bit in place. -/
def FFmt.signBit (f : FFmt) (s : Bool) : Nat := if s then 2 ^ (f.fw + f.ew) else 0

/-- The largest finite magnitude as a number. -/
def FFmt.big (f : FFmt) (s : Bool) : XNum := .fin s f.maxN f.maxE

/-- The bits of ±m × 2^q, for a significand below 2^(fw+1) at that quantum. -/
def FFmt.assemble (f : FFmt) (s : Bool) (m : Nat) (q : Int) : Nat :=
  if m < 2 ^ f.fw then f.signBit s + m
  else f.signBit s + (q + f.fw + f.bias).toNat * 2 ^ f.fw + (m - 2 ^ f.fw)

/-- A value rounded into a floating-point format (R51 to R54). -/
def FFmt.encode (f : FFmt) (mode : Rnd) (w : Nat) (x : XNum) : Conv :=
  match x with
  | .nan => ⟨f.nanBits, 0, 0⟩
  | .inf s =>
    if f.special = 2 then ⟨f.signBit s + (2 ^ f.ew - 1) * 2 ^ f.fw, 0, 0⟩
    else ⟨f.nanBits, 0, 1⟩
  | .fin s n e =>
    if n = 0 then ⟨f.signBit s, 0, 0⟩
    else
      let q := max (flog2 n e) (1 - f.bias) - f.fw
      let m := roundQ mode w n e q
      if (f.big false).lt (.fin false m q) then
        ⟨f.assemble s f.maxN f.maxE, 1, 0⟩
      else if m = 2 ^ (f.fw + 1) then ⟨f.assemble s (2 ^ f.fw) (q + 1), 0, 0⟩
      else ⟨f.assemble s m q, 0, 0⟩

/-- The value of a Z56 word; bits 63:56 are not part of it (R45). -/
def ofZ56 (w : Nat) : XNum := fZ56.decode (w % 2 ^ 56)

/-- An exact value rounded to Z56 under R46: to nearest even, to the largest finite value beyond it, without an event. -/
def toZ56 (x : XNum) : Nat := (fZ56.encode .rne 0 x).bits

/-- An exact value rounded to Z56 under R46, as a number. -/
def rZ56 (x : XNum) : XNum := ofZ56 (toZ56 x)

/-- A quotient in Z56 (R46). -/
def divZ56 (a b : XNum) : XNum := rZ56 (XNum.div fZ56.big a b)

/-! ### Integers and one-element formats (R37, R47, R53, R54) -/

/-- A value rounded to an integer of `w` bits at quantum 2^q (R52, R53, R54). -/
def toIntN (width : Nat) (q : Int) (mode : Rnd) (w : Nat) (x : XNum) : Conv :=
  match x with
  | .nan => ⟨0, 0, 1⟩
  | .inf s =>
    if width = 64 then ⟨0, 0, 1⟩
    else ⟨if s then 2 ^ (width - 1) else 2 ^ (width - 1) - 1, 0, 1⟩
  | .fin s n e =>
    let m := roundQ mode w n e q
    let bound := if s then 2 ^ (width - 1) else 2 ^ (width - 1) - 1
    if bound < m then ⟨bound, 1, 0⟩
    else ⟨unsigned width (if s then -(m : Int) else m), 0, 0⟩

/-- The value of an element in a one-element format, codes of R152; `x` is the scale of L64. -/
def decodeElem (fmt : Nat) (x : Int) (bits : Nat) : XNum :=
  match fmt with
  | 0x00 => fFP32.decode (bits % 2 ^ 32)
  | 0x01 => fFP16.decode (bits % 2 ^ 16)
  | 0x02 => fBF16.decode (bits % 2 ^ 16)
  | 0x03 => fE4M3.decode (bits % 2 ^ 8)
  | 0x04 => fE5M2.decode (bits % 2 ^ 8)
  | 0x05 => XNum.ofInt (signed 8 bits) 0
  | 0x06 => XNum.ofInt (signed 32 bits) 0
  | 0x07 => ofZ56 bits
  | _ => XNum.ofInt (signed 64 bits) x

/-- A value converted into a one-element format. Z56 counts nothing (R46). -/
def encodeElem (fmt : Nat) (x : Int) (mode : Rnd) (w : Nat) (v : XNum) : Conv :=
  match fmt with
  | 0x00 => fFP32.encode mode w v
  | 0x01 => fFP16.encode mode w v
  | 0x02 => fBF16.encode mode w v
  | 0x03 => fE4M3.encode mode w v
  | 0x04 => fE5M2.encode mode w v
  | 0x05 => toIntN 8 0 mode w v
  | 0x06 => toIntN 32 0 mode w v
  | 0x07 => ⟨toZ56 v, 0, 0⟩
  | _ => toIntN 64 x mode w v

/-- Bytes of an element in memory (R35, R37, R45, R47). -/
def elemBytes (fmt : Nat) : Nat :=
  match fmt with
  | 0x00 | 0x06 => 4
  | 0x01 | 0x02 => 2
  | 0x03 | 0x04 | 0x05 => 1
  | _ => 8

/-! ### Blocks of 32 (R38 to R43, R48, R49) -/

/-- The width of an element of a block format (R38, R48). -/
def blockWidth (fmt : Nat) : Nat :=
  match fmt with
  | 0x09 | 0x0D | 0x0E | 0x12 => 8
  | 0x0F | 0x10 => 6
  | 0x0A | 0x11 => 4
  | 0x0B => 2
  | _ => 1

/-- The fraction bits of an SB format (R38). -/
def sbFrac (fmt : Nat) : Int :=
  match fmt with
  | 0x09 => 6
  | 0x0A => 2
  | _ => 0

/-- The element format and emax of an MX format (R49); none for MXINT8. -/
def mxFmt (fmt : Nat) : Option FFmt × Int :=
  match fmt with
  | 0x0D => (some fE4M3, 8)
  | 0x0E => (some fE5M2, 15)
  | 0x0F => (some fE2M3, 2)
  | 0x10 => (some fE3M2, 4)
  | 0x11 => (some fE2M1, 2)
  | _ => (none, 0)

/-- A converted block: exponent byte, element bits, and events. -/
structure Block where
  x : Nat
  elems : List Nat
  sat : Nat := 0
  nf : Nat := 0
  deriving DecidableEq, Repr

/-- The number of elements that are not finite. -/
def countNf (els : List XNum) : Nat := (els.filter fun v => !v.finite).length

/-- The largest magnitude of finite elements. -/
def maxAbs (els : List XNum) : XNum := els.foldl (fun m v => XNum.max m v.abs) XNum.zero

/-- The floor of log2 of the largest magnitude; none for a block of zeros. -/
def blockLog (els : List XNum) : Option Int :=
  match maxAbs els with
  | .fin _ n e => if n = 0 then none else some (flog2 n e)
  | _ => none

/-- Elements rounded to signed multiples of 2^q (R42 step 6), element i with its draw. -/
def roundAll (mode : Rnd) (draw : Nat → Nat) (q : Int) (els : List XNum) : List Int :=
  els.zipIdx.map fun (v, i) =>
    match v with
    | .fin s n e => let m : Int := roundQ mode (draw i) n e q; if s then -m else m
    | _ => 0

/-- Clamp to ±bound, with the number of elements outside. -/
def clampAll (bound : Int) (qs : List Int) : List Int × Nat :=
  (qs.map fun q => max (-bound) (min bound q), (qs.filter fun q => decide (bound < q) || decide (q < -bound)).length)

/-- The exponent of R42 steps 3 to 5. -/
def limitX (x : Int) : Nat := (max 0 (min 254 x)).toNat

/-- Conversion into an SB format, with an exponent chosen or taken (R42, R43, R40). -/
def toSB (fmt : Nat) (taken : Option Nat) (mode : Rnd) (draw : Nat → Nat) (els : List XNum) : Block :=
  let w := blockWidth fmt
  let zeros := els.map fun _ => 0
  if taken = some 0xFF then ⟨0xFF, zeros, 0, 0⟩
  else if countNf els ≠ 0 then ⟨0xFF, zeros, 0, countNf els⟩
  else
    let x0 := match taken, blockLog els with
      | some x, _ => x
      | none, none => 0
      | none, some l => limitX (l + 127)
    if fmt = 0x0C then ⟨x0, els.map fun v => if v.sign then 0 else 1, 0, 0⟩
    else
      let f := sbFrac fmt
      let quantum := fun (x : Nat) => (x : Int) - 127 - f
      let done := fun (x : Nat) (qs : List Int) (sat : Nat) =>
        (⟨if qs.all (· == 0) then 0 else x, qs.map (unsigned w), sat, 0⟩ : Block)
      let first := roundAll mode draw (quantum x0) els
      if fmt = 0x0B then done x0 (first.map fun q => max (-2) (min 1 q)) 0
      else
        let bound : Int := 2 ^ (w - 1) - 1
        let beyond := (clampAll bound first).2 != 0
        if beyond && taken.isNone && decide (x0 < 254) then
          let c := clampAll bound (roundAll mode draw (quantum (x0 + 1)) els)
          done (x0 + 1) c.1 c.2
        else done x0 (clampAll bound first).1 (clampAll bound first).2

/-- Conversion into an MX format (R49). DESIGN CHOICE (log 148): a taken 0xFF gives a NaN scale and no event, a block of zeros keeps a taken X,
and with none every element bit is zero. -/
def toMX (fmt : Nat) (taken : Option Nat) (mode : Rnd) (draw : Nat → Nat) (els : List XNum) : Block :=
  let zeros := els.map fun _ => 0
  if taken = some 0xFF then ⟨0xFF, zeros, 0, 0⟩
  else if countNf els ≠ 0 then ⟨0xFF, zeros, 0, countNf els⟩
  else
    let ef := mxFmt fmt
    match taken, blockLog els with
    | none, none => ⟨0, zeros, 0, 0⟩
    | t, l =>
      let x := t.getD (limitX (l.getD 0 + 127 - ef.2))
      let conv := els.zipIdx.map fun (v, i) =>
        let sc : XNum := match v with
          | .fin s n e => .fin s n (e + 127 - x)
          | o => o
        match ef.1 with
        | some f => f.encode mode (draw i) sc
        | none =>
          let c := clampAll 127 (roundAll mode (fun _ => draw i) (-6) [sc])
          ⟨unsigned 8 (c.1.headD 0), c.2, 0⟩
      ⟨x, conv.map (·.bits), (conv.map (·.sat)).sum, 0⟩

/-- Conversion of 32 elements into a block format. -/
def toBlock (fmt : Nat) (taken : Option Nat) (mode : Rnd) (draw : Nat → Nat) (els : List XNum) : Block :=
  if fmt ≤ 0x0C then toSB fmt taken mode draw els else toMX fmt taken mode draw els

/-- The significand of an SB element (R38). -/
def sbSig (fmt bits : Nat) : Int :=
  if fmt = 0x0C then (if bits % 2 = 0 then -1 else 1) else signed (blockWidth fmt) bits

/-- The value of an element of a block (R38, R40, R49). -/
def blockElem (fmt x bits : Nat) : XNum :=
  if x = 0xFF then .nan
  else if fmt ≤ 0x0C then XNum.ofInt (sbSig fmt bits) ((x : Int) - 127 - sbFrac fmt)
  else
    match (mxFmt fmt).1 with
    | some f =>
      match f.decode bits with
      | .fin s n e => .fin s n (e + x - 127)
      | o => o
    | none => XNum.ofInt (signed 8 bits) ((x : Int) - 127 - 6)

/-! ### Sorrel (R60 to R65) -/

/-- Rotation left of a 32-bit word. -/
def rotl32 (x n : Nat) : Nat := (x * 2 ^ n % 2 ^ 32) + x % 2 ^ 32 / 2 ^ (32 - n)

/-- One round of Sorrel (R61). -/
def sorrelRound (k : List Nat) (r : Nat) (x : Nat × Nat × Nat × Nat) : Nat × Nat × Nat × Nat :=
  let x0 := (x.1 + x.2.1 + nth k (r % 4) 0) % 2 ^ 32
  let x3 := rotl32 (x.2.2.2 ^^^ x0) 12
  let x2 := (x.2.2.1 + x3 + (r + 1) * 0x13579BDF) % 2 ^ 32
  let x1 := rotl32 (x.2.1 ^^^ x2) 20
  (x0, x1, x2, x3)

/-- Sorrel (R61): the four output words, y[31:0] first. -/
def sorrel (key ctr : Nat) : List Nat :=
  let k := (List.range 4).map fun i => nbits key (32 * i) 32
  let x := (nbits ctr 0 32, nbits ctr 32 32, nbits ctr 64 32, nbits ctr 96 32)
  let y := (List.range 10).foldl (fun x r => sorrelRound k r x) x
  [y.1 ^^^ nth k 0 0, y.2.1 ^^^ nth k 1 0, y.2.2.1 ^^^ nth k 2 0, y.2.2.2 ^^^ nth k 3 0]

/-- The identity of a draw (R63 to R65). -/
structure DrawId where
  seed : Nat
  sel : Nat
  step : Nat
  stream : Nat
  source : Nat
  deriving DecidableEq, Repr

/-- The counter of R65, its fields wrapped (R67). -/
def sorrelCtr (d : DrawId) (pos : Nat) : Nat :=
  (d.step % 2 ^ 32) * 2 ^ 96 + (d.stream % 2 ^ 32) * 2 ^ 64 + (pos % 2 ^ 48) * 2 ^ 16 + d.source % 2 ^ 16

/-- Draw j of the call for a position (R63). -/
def drawAt (d : DrawId) (pos j : Nat) : Nat :=
  let y := sorrel (d.seed * 2 ^ 64 + d.sel) (sorrelCtr d pos)
  nbits (nth y (j / 2) 0) (16 * (j % 2)) 16

/-- The draw of an element of a tensor: position index div 8, draw index mod 8 (R63, R65). -/
def drawElem (d : DrawId) (i : Nat) : Nat := drawAt d (i / 8) (i % 8)

/-! ### Split operands (R69) -/

/-- A split of 32 elements into pieces: exponent, and the pieces hi, lo (and lo2), with the saturation events (R69). -/
structure SplitBlock where
  x : Nat
  hi : List Int
  lo : List Int
  lo2 : List Int
  sat : Nat
  nf : Nat
  deriving DecidableEq, Repr

/-- The split of R69 into two or three pieces. DESIGN CHOICE (log 132): no command forms them, since R153 gives PACK no field that asks for
pieces; a program forms them with the operations of R153, to these values. -/
def splitBlock (three : Bool) (mode : Rnd) (draw : Nat → Nat) (els : List XNum) : SplitBlock :=
  let zeros : List Int := els.map fun _ => 0
  if countNf els ≠ 0 then ⟨0xFF, zeros, zeros, zeros, 0, countNf els⟩
  else
    match blockLog els with
    | none => ⟨0, zeros, zeros, zeros, 0, 0⟩
    | some l =>
      let x0 := limitX (l + 127)
      let sh : Int := if three then 147 else 140
      let bound : Int := if three then 2 ^ 21 - 1 else 2 ^ 14 - 1
      let first := roundAll mode draw ((x0 : Int) - sh) els
      let again := (clampAll bound first).2 != 0 && decide (x0 < 254)
      let x := if again then x0 + 1 else x0
      let c := clampAll bound (if again then roundAll mode draw ((x : Int) - sh) els else first)
      let q := c.1
      let x' := if q.all (· == 0) then 0 else x
      if three then ⟨x', q.map (· / 2 ^ 14), q.map (· / 2 ^ 7 % 2 ^ 7), q.map (· % 2 ^ 7), c.2, 0⟩
      else ⟨x', q.map (· / 2 ^ 7), q.map (· % 2 ^ 7), zeros, c.2, 0⟩

/-- The pieces of an operand of a class (R57, R69): stochastic rounding for gradient class, whatever the rounding field holds. -/
def splitOperand (three gradient : Bool) (field : Nat) (draw : Nat → Nat) (els : List XNum) : SplitBlock :=
  splitBlock three (if gradient then .sr else rndOf field) draw els

/-- The significand planes of a split as bytes, hi first (R69). -/
def SplitBlock.planes (three : Bool) (b : SplitBlock) : List (List Nat) :=
  (if three then [b.hi, b.lo, b.lo2] else [b.hi, b.lo]).map fun q => q.map fun i => (i % 256).toNat

end Sys2Proof.Machine
end

