-- ==== Sys2Proof/Machine/Operands.lean ====
section
/-!
DEFINITION. Operand forms: lanes of vector registers, accumulator entries, tile store offsets and the ranges that slots touch.
-/

namespace Sys2Proof.Machine

/-! ### Lanes (R117, R118) -/

/-- Lane i of a register. -/
def laneAt (l : List Lane) (i : Nat) : Lane := nth l i {}

/-- A lane's number in a lane format: FP32, INT32, Z56 or L64 (R118). -/
def laneNum (fmt : Nat) (l : Lane) : XNum := decodeElem fmt 0 l.val.toNat

/-- A converted value as a lane: the bits above the format are zero (R118). -/
def laneOf (bits : Nat) (p : Bool) : Lane := ⟨BitVec.ofNat 64 bits, p⟩

/-- The width of an integer lane (R120). -/
def intWidth (fmt : Nat) : Nat := if fmt = 6 then 32 else 64

/-- The 256 lanes that a function of the lane number gives. -/
def lanes256 (f : Nat → Lane) : List Lane := (List.range 256).map f

/-- New lanes where the mask bit is 1, old ones elsewhere (R119). -/
def maskLanes (m : BitVec 256) (old new : List Lane) : List Lane :=
  lanes256 fun i => if m.getLsbD i then laneAt new i else laneAt old i

/-! ### Accumulator entries (R81, R82) -/

/-- RES of a Z56 value: the significand magnitude modulo 15 (R81). -/
def entryRes (z : Nat) : Nat :=
  let f := nbits z 0 40
  let e := nbits z 40 15
  (if e = 0 ∨ e = 0x7FFF then f else 2 ^ 40 + f) % 15

/-- EPAR of a Z56 value: even parity of the exponent (R81). -/
def entryPar (z : Nat) : Nat := ((List.range 15).map fun i => nbits z (40 + i) 1).sum % 2

/-- The 64-bit entry of a Z56 value with its poison (R81). -/
def mkEntry (z : Nat) (psn : Bool) : Word :=
  let v := z % 2 ^ 56
  BitVec.ofNat 64 (v + entryRes v * 2 ^ 56 + entryPar v * 2 ^ 60 + (if psn then 2 ^ 61 else 0))

/-- Whether RES and EPAR of an entry agree with its value (R82). -/
def entryOk (e : Word) : Bool :=
  let v := e.toNat % 2 ^ 56
  fld e 56 4 == entryRes v && fld e 60 1 == entryPar v

/-- The key of an entry in the state: physical array and entry. -/
def accKey (phys n : Nat) : Nat := phys * 65536 + n % 65536

/-- An entry of a bank. -/
def State.entry (s : State) (phys n : Nat) : Word := mget 0 s.acc (accKey phys n)

/-- A read of an entry (R82): the value, and poison from PSN or from a failed check. -/
def entryLane (e : Word) : Lane := ⟨BitVec.ofNat 64 (e.toNat % 2 ^ 56), e.getLsbD 61 || !entryOk e⟩

/-- A write of an entry (R82): its code word is encoded afresh. -/
def State.setEntry (s : State) (phys n : Nat) (z : Nat) (psn : Bool) : State :=
  { s with
    acc := mset 0 s.acc (accKey phys n) (mkEntry z psn)
    sramErrs := mset 0 s.sramErrs (accWords + accKey phys n) 0 }

/-- A residue-mismatch record of a bank (R82). -/
def bankRecord (s : State) (phys n : Nat) : State :=
  s.emit { code := 0x12, uclass := 3, uinst := phys, addr := n % 65536 }

/-- The read of an entry at its bank (R81, R82, R106): the word's code is checked, an uncorrectable entry gets PSN, and a RES or EPAR that
disagrees with the value is reported. -/
def readEntry (s : State) (phys n : Nat) : State :=
  let r := sramRead s (accWords + accKey phys n)
  let s := if r.2 then r.1.setEntry phys n (r.1.entry phys n).toNat true else r.1
  if entryOk (s.entry phys n) then s else bankRecord s phys n

/-- The reads of `m` entries from entry n on. -/
def readEntries (s : State) (phys n m : Nat) : State := (List.range m).foldl (fun t i => readEntry t phys (n + i)) s

/-! ### Passes: what they read and write (R83, R87, R88, R91, R150) -/

/-- Slots of a cell in a weight mode (R76, R88): SB8 and SB4 1, SB2 4, SB1 8. -/
def slotCount (wmode : Nat) : Nat :=
  match wmode with
  | 2 => 4
  | 3 => 8
  | _ => 1

/-- Logical depth of a shape; halves are 128 × 64 (R88). -/
def PassParams.depth (p : PassParams) : Nat :=
  if p.half ≠ 0 then 128 else match p.shape with | 0 => 128 | 1 => 64 | _ => 32

/-- Logical columns of a shape. -/
def PassParams.cols (p : PassParams) : Nat :=
  if p.half ≠ 0 then 64 else match p.shape with | 0 => 128 | 1 => 256 | _ => 512

/-- Slots of the pass. -/
def PassParams.k (p : PassParams) : Nat := slotCount p.wmode

/-- Bytes of a block of activation significands (R38). -/
def PassParams.blockBytes (p : PassParams) : Nat := if p.afmt = 0 then 32 else 16

/-- The activation significand span of a pass: bytes from A_SIG (R99, R114). -/
def PassParams.sigSpan (p : PassParams) : Nat := (p.v - 1) * p.aPitch + p.segs * p.k * p.blockBytes

/-- The activation exponent span of a pass: bytes from A_EXP. -/
def PassParams.expSpan (p : PassParams) : Nat := (p.v - 1) * (p.aPitch / p.blockBytes) + p.segs * p.k

/-- Bytes of the weight exponent rows (R87). -/
def PassParams.wExpSpan (p : PassParams) : Nat := 4 * p.k * 128

/-- The ranges of offsets of a tile. -/
def tileRanges : Option TileSource → List (Nat × Nat)
  | some (a, b, m) => [(a, 16384), (b, 4 * slotCount m * 128)]
  | none => []

/-- The ranges of offsets that a pass reads: activations, and the tile it loads (R114) or the ones it keeps (R442). -/
def PassParams.reads (p : PassParams) (kept : TileSources) : List (Nat × Nat) :=
  let w := if p.keep then tileRanges kept.1 ++ tileRanges kept.2 else [(p.wSig, 16384), (p.wExp, p.wExpSpan)]
  [(p.aSig, p.sigSpan), (p.aExp, p.expSpan)] ++ w

/-- The sources of the weights that a target's columns hold now. -/
def ArrayUnit.sources (u : ArrayUnit) (h : Nat) : TileSources :=
  match h with
  | 1 => ((u.half 1).tile, none)
  | 2 => (none, (u.half 2).tile)
  | _ => ((u.half 1).tile, (u.half 2).tile)

/-- The number of entries from ACC_BASE to the last entry of a pass (R83). -/
def PassParams.span (p : PassParams) : Nat := (p.v - 1) * p.accStride + p.cols

/-- Whether a span of entries, modulo 65,536, meets another. -/
def entrySpansMeet (a n b m : Nat) : Bool := decide ((b + 65536 - a) % 65536 < n) || decide ((a + 65536 - b) % 65536 < m)

/-- The targets of an array. -/
def targets : List Nat := [0, 1, 2]

/-- Every pass of a core that is unfinished or whose chain is unfinished, with its array and the sources of the weights it meets. -/
def Core.passes (k : Core) : List (Nat × Pass × TileSources) :=
  (List.range 4).flatMap fun a => targets.flatMap fun h =>
    ((k.array a).half h).passes.map fun p => (a, p, if p.started then p.met else (k.array a).sources h)

/-- Whether every pass that a core has issued has completed; its chain may still be open. -/
def Core.passesDone (k : Core) : Bool := k.passes.all fun x => x.2.1.fin

/-- Whether a range of offsets meets what a pass reads that was issued before `seq`, or in the bundle of that number (R101, R114, R115). -/
def Core.readByPass (k : Core) (seq off n : Nat) : Bool :=
  k.passes.any fun (_, p, t) => decide (p.seq ≤ seq) && (p.par.reads t).any fun (a, m) => rangesOverlap off n a m

/-- Whether a range of entries of logical array `a` meets the span of a pass with an issue number below `seq` (R84). -/
def Core.writtenByPass (k : Core) (seq a n m : Nat) : Bool :=
  k.passes.any fun (b, p, _) => decide (p.seq < seq) && a == b && entrySpansMeet n m p.par.accBase p.par.span

/-! ### The start ramp (R471, R472) -/

/-- Array `a` of core c starts its ramp from an event at cycle b: its start slot is b + 1 + 4c + a (R472). -/
def Core.rampArray (k : Core) (c a b : Nat) : Core :=
  k.modArray a fun u => { u with rampStart := some (b + 1 + (4 * c + a)) }

/-- Every array of core c starts its ramp (R471). -/
def Core.ramp (k : Core) (c b : Nat) : Core := (List.range 4).foldl (fun k a => k.rampArray c a b) k

/-- A vector enters array `a` at cycle b: its ramp starts when it has admitted none for 1,024 cycles (R471). -/
def Core.admitVector (k : Core) (c a b : Nat) : Core :=
  let idle := match (k.array a).lastVector with
    | some v => decide (1024 ≤ b - v)
    | none => true
  let k := if idle then k.rampArray c a b else k
  k.modArray a fun u => { u with lastVector := some b }

/-! ### Tile store accesses of a core -/

/-- Whether a range of addresses meets a write of this core that waits, issued before `seq`. -/
def Core.heldMeets (k : Core) (seq a n : Nat) : Bool :=
  k.heldWrites.any fun w => decide (w.seq < seq) && rangesOverlap a n w.addr w.bytes.length

/-- The rows of a transfer: source, destination and length; none for a zero length or row count (R130). -/
def Transfer.segs (t : Transfer) : List (Nat × Nat × Nat) :=
  if t.rowLen = 0 then []
  else (List.range t.rows).map fun i => (t.src + i * t.srcPitch, t.dst + i * t.dstPitch, t.rowLen)

/-- Whether a waiting transfer of the bundle numbered `seq` reads a range of addresses: it sees the range as it was before that bundle's
writes (R115). -/
def Core.readBySame (k : Core) (seq a n : Nat) : Bool :=
  (List.range 4).any fun q => (k.queue q).any fun t => t.seq == seq && t.segs.any fun (x, _, m) => rangesOverlap a n x m

/-- Whether a write to core c's tile store waits (R101, R115, R116): a pass, or a transfer of its own bundle, is still to read the range. -/
def Core.writeWaits (k : Core) (c seq a n : Nat) : Bool := k.readByPass seq (a - tileAddr c 0) n || k.readBySame seq a n

/-- A write into core c's tile store by an agent other than its move queue: it waits while a pass issued before it reads the range
(R101, R116) or what its bundle reads there has not been read (R115), or an earlier waiting write covers the same bytes. -/
def tileWrite (s : State) (c seq a : Nat) (bs : List PByte) : State :=
  let k := s.core c
  if bs = [] then s
  else if k.writeWaits c seq a bs.length || k.heldMeets seq a bs.length then
    s.modCore c fun k => { k with heldWrites := k.heldWrites ++ [⟨seq, a, bs⟩] }
  else writeP s a bs

/-- A write by a unit outside the cores: to the DRAM at once, to a tile store under R116. -/
def outsideStore (s : State) (a : Nat) (bs : List PByte) : State :=
  match tileCore a bs.length with
  | some c => tileWrite s c (s.core c).seqNo a bs
  | none => store s a bs

/-- Perform the waiting writes of core c that no earlier pass holds any more, oldest first; `n` bounds the writes. -/
def drainHeld : Nat → State → Nat → State
  | 0, s, _ => s
  | n + 1, s, c =>
    match (s.core c).heldWrites with
    | [] => s
    | w :: ws =>
      if (s.core c).writeWaits c w.seq w.addr w.bytes.length then s
      else drainHeld n (writeP (s.modCore c fun k => { k with heldWrites := ws }) w.addr w.bytes) c

/-- Perform every waiting write of core c that may go. -/
def State.drain (s : State) (c : Nat) : State := drainHeld (s.core c).heldWrites.length s c

end Sys2Proof.Machine
end

