-- ==== Sys2Proof/Machine/Matrix.lean ====
section
/-!
DEFINITION. Matrix passes (chapter 03): the parameters and conditions of a PASS, weight broadcasts and the swap, the fold of a pass, its
completion, replay and arbitration (R442, R443).
-/

namespace Sys2Proof.Machine

/-! ### Issue (R88, R97, R149, R150) -/

/-- OFF_A and OFF_W (R149). -/
def offOf (x : BitVec 2) : Int := match x.toNat with | 0 => 0 | 1 => -7 | _ => -14

/-- The parameters of a PASS with the register values of its bundle (R143, R149, R150). -/
def passParams (k : Core) (m : MatrixSlot) : PassParams :=
  let sa := k.sreg m.sa
  let sw := k.sreg m.sw
  let sc := k.sreg m.sacc
  { half := m.tgt.toNat, shape := m.shape.toNat, wmode := m.wmode.toNat, afmt := m.afmt.toNat, offA := offOf m.offA,
    offW := offOf m.offW, chain := m.chain.toNat, grp := m.grp.toNat, keep := m.keep == 1, v := m.v.toNat + 1,
    segs := m.segs.toNat + 1, aSig := fld sa 0 23, aExp := fld sa 23 23, aPitch := fld sa 46 18, wSig := fld sw 0 23,
    wExp := fld sw 23 23, accBase := fld sc 0 16, accStride := fld sc 16 17 }

/-- Condition 1 of R97: a field outside its range (R83, R88, R150). -/
def passOutOfRange (k : Core) (m : MatrixSlot) (p : PassParams) : Bool :=
  let top := Config.tileData
  decide (p.depth < 32 * p.segs) || decide (p.accStride < p.cols) || decide (65536 < p.accStride) || decide (65536 < p.span) ||
    p.aPitch % p.blockBytes != 0 || decide (top < p.aSig + p.sigSpan) || decide (top < p.aExp + p.expSpan) ||
    (!p.keep && (decide (top < p.wSig + 16384) || decide (top < p.wExp + p.wExpSpan) || fld (k.sreg m.sw) 46 18 != 0)) ||
    fld (k.sreg m.sacc) 33 31 != 0

/-- The lowest-numbered condition of R97 that holds. A bundle has one matrix slot, so a broadcast group of one bundle has one member
and condition 8 never holds. -/
def passCondition (s : State) (c : Nat) (k : Core) (m : MatrixSlot) : Option Nat :=
  let p := passParams k m
  let a := m.arr.toNat
  let u := (k.array a).half p.half
  let opens := p.chain = 0 ∨ p.chain = 1
  if passOutOfRange k m p then some 1
  else if p.half ≠ 0 ∧ p.shape ≠ 0 then some 2
  else if (p.offA ≠ 0 ∨ p.offW ≠ 0) ∧ (p.wmode ≠ 0 ∨ p.afmt ≠ 0) then some 3
  else if ¬ opens ∧ u.chainOpen = false then some 4
  else if opens ∧ u.chainOpen = true then some 5
  else if ¬ opens ∧ 256 ≤ u.chainLen then some 6
  else if (s.physArray c a).isNone ∨ (k.array a).refuse = true then some 7
  else none

/-- Passes of an array that hold one of its 8 places (R96). -/
def ArrayUnit.queued (u : ArrayUnit) : Nat :=
  (targets.map fun h => ((u.half h).passes.filter fun p => !p.started && !p.fin).length).sum

/-- Whether a PASS finds its array's queue full, or its target or the whole array held for a replay (R96, R104, R106, R135). -/
def passHolds (k : Core) (m : MatrixSlot) : Bool :=
  let u := k.array m.arr.toNat
  decide (8 ≤ u.queued) || (u.half m.tgt.toNat).failed || (u.half 0).failed

/-- Queue a pass on its target (R96, R100). -/
def passApply (c : Nat) (b : BitVec 32) (m : MatrixSlot) (s t : State) : State :=
  if m.op = 0 then t
  else
    let k := s.core c
    let p := passParams k m
    t.modHalf c m.arr.toNat p.half fun u =>
      { u with
        passes := u.passes ++ [{ seq := k.seqNo, bundle := b, par := p }]
        chainOpen := p.chain == 1 || p.chain == 2
        chainLen := if p.chain = 0 ∨ p.chain = 3 then 0 else if p.chain = 1 then 1 else u.chainLen + 1 }

/-! ### Weights (R74, R75, R87, R102, R572) -/

/-- A cell's byte of significand row bytes for physical column pc; SB4 is widened on the way in (R41, R572). -/
def cellOf (wmode : Nat) (row : List PByte) (pc : Nat) : PByte :=
  if wmode = 1 then
    let x := nth row (pc / 2) (0, false)
    (BitVec.ofNat 8 (nbits x.1.toNat (4 * (pc % 2)) 4 * 16), x.2)
  else nth row pc (0, false)

/-- The weight significand of a cell's slot j (R38, R76, R572). -/
def weightSig (mode : Nat) (cell : Nat) (j : Nat) : Int :=
  match mode with
  | 2 => signed 2 (nbits cell (2 * j) 2)
  | 3 => if nbits cell j 1 = 1 then 1 else -1
  | _ => signed 8 cell

/-- A residue modulo 15 (R102): that of the signed integer, from 0 to 14. -/
def residue (x : Int) : Nat := (x % 15).toNat

/-- A register of a cell: the significands and, as they enter the array, their residues (R74, R102). -/
def cellReg (wmode : Nat) (b : Byte) : CellReg :=
  ⟨b, (List.range (slotCount wmode)).map fun j => residue (weightSig wmode b.toNat j)⟩

/-- Significand row r of a tile, by physical column. -/
def sigRow (s : State) (c wSig wmode r : Nat) : List PByte :=
  let row := readP s (tileAddr c (wSig + 128 * r)) 128
  (List.range 128).map fun pc => cellOf wmode row pc

/-- The cells that a significand row makes. -/
def cellRow (wmode : Nat) (row : List PByte) : CellRow := row.map fun b => cellReg wmode b.1

/-- Exponent row r of a tile. -/
def expRow (s : State) (c wExp r : Nat) : List PByte := readP s (tileAddr c (wExp + 128 * r)) 128

/-- A set of fold stages with significand row `row` and exponent row `row` of a tile entered: the marks of the significands, and the
exponents with theirs (R75, R87). -/
def StageSet.enter (x : StageSet) (s : State) (c wSig wExp wmode row : Nat) : StageSet :=
  { exps := if row < 4 * slotCount wmode then mset [] x.exps row (expRow s c wExp row) else x.exps
    psn := mset [] x.psn row ((sigRow s c wSig wmode row).map (·.2)) }

/-- The weights that some columns hold: stationary registers by physical row, active sets of the fold stages, and the mode. -/
structure Plane where
  cells : SMap CellRow := []
  stage : StageSet := {}
  mode : Nat := 0

/-- The weights of an array: its left and its right columns (R93). -/
structure Weights where
  left : Plane
  right : Plane

/-- The plane of physical column pc. -/
def Weights.plane (w : Weights) (pc : Nat) : Plane := if pc < 64 then w.left else w.right

/-- The plane that a half's columns hold now. -/
def HalfUnit.plane (x : HalfUnit) : Plane := ⟨x.active, x.stage, x.actMode⟩

/-- The weights that an array holds now. -/
def ArrayUnit.weights (u : ArrayUnit) : Weights := ⟨(u.half 1).plane, (u.half 2).plane⟩

/-- A tile read from its source (R442). -/
def loadPlane (s : State) (c : Nat) : Option TileSource → Plane
  | none => {}
  | some (a, b, m) =>
    ⟨(List.range 128).foldl (fun x r => mset [] x r (cellRow m (sigRow s c a m r))) [],
     (List.range 128).foldl (fun x r => x.enter s c a b m r) {}, m⟩

/-- The halves whose columns a target has. -/
def halvesOf (h : Nat) : List Nat := if h = 0 then [1, 2] else [h]

/-- Whether two targets of an array share columns. -/
def targetsMeet (g h : Nat) : Bool := g == 0 || h == 0 || g == h

/-- Whether the token of a started pass of a target is still on its way past the fold stages (R75). -/
def tokenOut (u : HalfUnit) : Bool := u.passes.any fun p => p.started && !p.fin && !p.par.keep

/-- The pending set that the next tile fills: behind the one whose token is on its way (R75). -/
def nextSet (u : HalfUnit) : Nat := if tokenOut u then 1 else 0

/-- Whether the shadow registers and the pending set of a target hold a whole tile of a mode. -/
def tileReady (u : HalfUnit) (wmode : Nat) : Bool :=
  u.shadow.length == 128 && (nth u.pend (nextSet u) {}).exps.length == 4 * slotCount wmode

/-- The oldest unfinished pass of a target. -/
def oldest (u : HalfUnit) : Option Pass := u.passes.find? fun p => !p.fin

/-- The first pass of a target that has not launched its token and names a new tile. -/
def nextLoad (u : HalfUnit) : Option Pass := u.passes.find? fun p => !p.started && !p.fin && !p.par.keep

/-- Whether pass p of target h may start (R92, R93): no earlier pass of another configuration is left on the array. -/
def configReady (u : ArrayUnit) (p : Pass) : Bool :=
  targets.all fun g => (u.half g).passes.all fun q =>
    decide (p.seq ≤ q.seq) || q.fin || (decide (q.par.half = 0) == decide (p.par.half = 0) && q.par.shape == p.par.shape)

/-- The source that a pass's new tile has. -/
def Pass.source (p : Pass) : TileSource := (p.par.wSig, p.par.wExp, p.par.wmode)

/-- The cells of a target copy their shadow: its columns' stationary registers, mode and source (R74, R89).
DESIGN CHOICE (log 145): the other half's columns keep their mode. -/
def swapCells (u : ArrayUnit) (h : Nat) (p : Pass) : ArrayUnit :=
  let sh := (u.half h).shadow
  ((halvesOf h).foldl (fun u g => u.modHalf g fun x =>
    { x with active := sh, actMode := p.par.wmode, tile := some p.source }) u).modHalf h fun x => { x with shadow := [] }

/-- The token passes the fold stages of a target: the older pending set becomes the active one (R75). -/
def swapStages (u : ArrayUnit) (h : Nat) : ArrayUnit :=
  let st := nth (u.half h).pend 0 {}
  ((halvesOf h).foldl (fun u g => u.modHalf g fun x => { x with stage := st }) u).modHalf h fun x => { x with pend := x.pend.drop 1 }

/-- The first vector of a pass enters with its token (R88, R89, R96): the pass leaves the queue. -/
def launch (s : State) (c a h : Nat) (p : Pass) : State :=
  let now := s.cycle
  s.modCore c fun k => (k.admitVector c a now).modArray a fun u =>
    let before := u.sources h
    let u := if p.par.keep then u else swapCells u h p
    let met := u.sources h
    u.modHalf h fun x =>
      { x with
        passes := x.passes.map fun q => if q.seq = p.seq then { q with started := true, met := met } else q
        chainTile := if p.par.chain = 0 ∨ p.par.chain = 1 then before else x.chainTile }

/-- Transfers of a core that wait and write a range that meets one of `ranges` (offsets), issued before `seq` (R114). -/
def transferWrites (k : Core) (c seq : Nat) (ranges : List (Nat × Nat)) : Bool :=
  (List.range 4).any fun q => (k.queue q).any fun t =>
    decide (t.seq < seq) && ranges.any fun (off, n) => t.segs.any fun (_, d, m) => rangesOverlap (tileAddr c off) n d m

/-- Whether a pass may read its ranges now: no earlier write of its core to them still waits (R114). -/
def passReadsReady (s : State) (c : Nat) (p : Pass) (tile : TileSources) : Bool :=
  let k := s.core c
  let rs := p.par.reads tile
  !(rs.any fun (off, n) => k.heldMeets p.seq (tileAddr c off) n) && !transferWrites k c p.seq rs

/-- Whether a broadcast for pass p of target h comes before the token of an earlier pass that shares its columns (R90). -/
def tokenAhead (u : ArrayUnit) (h : Nat) (p : Pass) : Bool :=
  targets.any fun g => g != h && targetsMeet g h && (u.half g).passes.any fun q =>
    decide (q.seq < p.seq) && !q.started && !q.fin && !q.par.keep

/-- WEIGHT_BROADCAST (R87, R90): physical row `row` of the next tile of a target goes into the shadow registers, its marks and exponent row
`row` into the pending set. When the tile of the oldest pass is complete its token has been launched, and the row belongs to the next. -/
def weightBroadcast (c a h row : Nat) (s : State) : State :=
  let u := s.half c a h
  let s' := match oldest u with
    | some p =>
      if !p.started && !p.par.keep && tileReady u p.par.wmode && !u.failed && configReady ((s.core c).array a) p then launch s c a h p else s
    | none => s
  let x := (s'.core c).array a
  let u := x.half h
  match nextLoad u with
  | none => s
  | some p =>
    if u.failed || !passReadsReady s' c p (x.sources h) || tileReady u p.par.wmode || tokenAhead x h p then s
    else
      let t := fetchRange (fetchRange s' (tileAddr c (p.par.wSig + 128 * row)) 128) (tileAddr c (p.par.wExp + 128 * row)) 128
      t.modHalf c a h fun x =>
        let set := (nth x.pend (nextSet x) {}).enter t c p.par.wSig p.par.wExp p.par.wmode row
        { x with
          shadow := mset [] x.shadow row (cellRow p.par.wmode (sigRow t c p.par.wSig p.par.wmode row))
          pend := x.pend.take (nextSet x) ++ [set] }

/-! ### The fold (R72 to R80, R91, R93, R105) -/

/-- Physical column and physical segment of logical column c and logical segment s (R91, R93). -/
def placeOf (p : PassParams) (col seg : Nat) : Nat × Nat :=
  if p.half = 2 then (64 + col, seg) else (col % 128, col / 128 * (p.depth / 32) + seg)

/-- An activation significand: element i of block n of vector g, with its granule's poison (R39, R41, R88). -/
def actSig (s : State) (c : Nat) (p : PassParams) (g n i : Nat) : Int :=
  let a := p.aSig + g * p.aPitch + n * p.blockBytes
  if p.afmt = 0 then signed 8 (readN s (tileAddr c (a + i)) 1)
  else 16 * signed 4 (nbits (readN s (tileAddr c (a + i / 2)) 1) (4 * (i % 2)) 4)

/-- The address of the exponent of block n of vector g. -/
def actExpAddr (c : Nat) (p : PassParams) (g n : Nat) : Nat := tileAddr c (p.aExp + g * (p.aPitch / p.blockBytes) + n)

/-- Whether block n of vector g is poisoned (R105). -/
def actPoison (s : State) (c : Nat) (p : PassParams) (g n : Nat) : Bool :=
  poisonedIn s (tileAddr c (p.aSig + g * p.aPitch + n * p.blockBytes)) p.blockBytes || poisonedIn s (actExpAddr c p g n) 1

/-- The register of the cell in row i of physical segment ps and physical column pc. -/
def Weights.cell (w : Weights) (ps i pc : Nat) : CellReg := nth (mget [] (w.plane pc).cells (32 * ps + i)) pc {}

/-- The exponent of the weight block of physical segment ps, slot j and physical column pc, with its mark. -/
def Weights.exp (w : Weights) (ps j pc : Nat) : PByte :=
  nth (mget [] (w.plane pc).stage.exps (ps * slotCount (w.plane pc).mode + j)) pc (0, false)

/-- Whether the weight block of physical segment ps, slot j and physical column pc is poisoned (R105). -/
def weightPoison (w : Weights) (ps j pc : Nat) : Bool :=
  ((List.range 32).any fun i => nth (mget [] (w.plane pc).stage.psn (32 * ps + i)) pc false) || (w.exp ps j pc).2

/-- b of R78: 266 for SB8 and SB4 weights, 260 for SB2 and SB1. -/
def expBias (mode : Nat) : Int := if mode < 2 then 266 else 260

/-- The slots that a column folds. DESIGN CHOICE (log 145): those of the mode of its weights, a kept tile's too. -/
def Weights.slots (w : Weights) (p : PassParams) (col : Nat) : Nat := slotCount (w.plane (placeOf p col 0).1).mode

/-- The segment sum S of vector g, logical segment `seg`, slot j and logical column `col` (R77). -/
def segmentSum (s : State) (c : Nat) (p : PassParams) (w : Weights) (g seg j col : Nat) : Int :=
  let (pc, ps) := placeOf p col seg
  (List.range 32).foldl (fun acc i =>
    acc + actSig s c p g (seg * w.slots p col + j) i * weightSig (w.plane pc).mode (w.cell ps i pc).sig.toNat j) 0

/-- The residue that the residue chain predicts for a segment sum, from the residues beside the significands (R102). -/
def predictedResidue (s : State) (c : Nat) (p : PassParams) (w : Weights) (g seg j col : Nat) : Nat :=
  let (pc, ps) := placeOf p col seg
  (List.range 32).foldl (fun acc i =>
    (acc + residue (actSig s c p g (seg * w.slots p col + j) i) * nth (w.cell ps i pc).res j 0) % 15) 0

/-- The exponent E of a segment sum (R78). -/
def termExp (s : State) (c : Nat) (p : PassParams) (w : Weights) (g seg j col : Nat) : Int :=
  let (pc, ps) := placeOf p col seg
  (readN s (actExpAddr c p g (seg * w.slots p col + j)) 1 : Int) + p.offA + (w.exp ps j pc).1.toNat + p.offW - expBias (w.plane pc).mode

/-- The term folded for vector g, logical segment s, slot j and logical column c (R77, R78); `delta` is what a fault adds to S. -/
def foldTerm (s : State) (c : Nat) (p : PassParams) (w : Weights) (g seg j col : Nat) (delta : Int) : XNum :=
  if p.segs ≤ seg then .zero
  else
    let (pc, ps) := placeOf p col seg
    if readN s (actExpAddr c p g (seg * w.slots p col + j)) 1 = 0xFF ∨ (w.exp ps j pc).1 = 0xFF then .nan
    else XNum.ofInt (segmentSum s c p w g seg j col + delta) (termExp s c p w g seg j col)

/-! ### The checks of the array (R102, R103) -/

/-- A rounding to Z56 as the fold makes it: the exact sum n × 2^e, the kept part and the discarded part of n, the shift between them, the
rounded significand and its quantum. -/
structure FoldParts where
  n : Nat
  kept : Nat
  disc : Nat
  shift : Nat
  rounded : Nat
  q : Int

/-- The parts of the rounding of n × 2^e (R46). -/
def foldParts (n : Nat) (e : Int) : FoldParts :=
  let q := max (flog2 n e - 40) (-16422)
  if q ≤ e then
    let r := n <<< (e - q).toNat
    ⟨r, r, 0, 0, r, q⟩
  else
    let k := (q - e).toNat
    ⟨n, n >>> k, n - n >>> k <<< k, k, roundQ .rne 0 n e q, q⟩

/-- The checks of a fold whose rounded significand came out `delta` too large (R102 item 4): whether both residues agree. -/
def foldAgrees (x : FoldParts) (delta : Int) : Bool :=
  x.n % 15 == (x.kept % 15 * 2 ^ (x.shift % 4) + x.disc % 15) % 15 &&
    residue ((x.rounded : Int) + delta) == residue ((x.kept : Int) + ((x.rounded : Int) - x.kept))

/-- A fold with a fault of its significand path: the value that goes on. -/
def faultedFold (delta : Int) : XNum → XNum
  | .fin s n e =>
    let x := foldParts n e
    .fin s ((x.rounded : Int) + delta).toNat x.q
  | x => x

/-- Even parity of a number's low 17 bits (R102 item 6). -/
def parityOf (x : Nat) : Nat := ((List.range 17).map fun i => nbits x i 1).sum % 2

/-- What a fault adds to the segment sum at a place of the fold order. -/
def sumDelta (f : Option ArrayFault) (g col n : Nat) : Int :=
  match f with
  | some ⟨v, k, i, .sum d, _⟩ => if v = g ∧ k = col ∧ i = n then d else 0
  | _ => 0

/-- What a fault adds to the rounded significand at a place of the fold order. -/
def foldDelta (f : Option ArrayFault) (g col n : Nat) : Int :=
  match f with
  | some ⟨v, k, i, .fold d, _⟩ => if v = g ∧ k = col ∧ i = n then d else 0
  | _ => 0

/-- One fold of R79: the term is added and the sum rounded once; a fault of the significand path changes what goes on. -/
def foldStep (s : State) (c : Nat) (p : PassParams) (w : Weights) (f : Option ArrayFault) (g col : Nat) (acc : XNum) (n : Nat) : XNum :=
  let k := w.slots p col
  let x := acc.add (foldTerm s c p w g (n / k) (n % k) col (sumDelta f g col n))
  if foldDelta f g col n = 0 then rZ56 x else rZ56 (faultedFold (foldDelta f g col n) x)

/-- The partial of one vector and column (R79): terms folded by segment, then slot, each rounded once; the first `n` of them. -/
def foldColumn (s : State) (c : Nat) (p : PassParams) (w : Weights) (f : Option ArrayFault) (g col n : Nat) : XNum :=
  (List.range n).foldl (foldStep s c p w f g col) .zero

/-- The terms of a column. -/
def Weights.terms (w : Weights) (p : PassParams) (col : Nat) : Nat := p.depth / 32 * w.slots p col

/-- Whether the checkers of the array find a fault of a pass (R102, R103): the residue chain a wrong segment sum, the fold check a wrong
significand, the parity check a wrong exponent; a fault of a shared part or of the bank shows there. -/
def caught (s : State) (c : Nat) (p : PassParams) (w : Weights) (f : ArrayFault) : Bool :=
  let k := w.slots p f.column
  let seg := f.segment / k
  let inside := decide (f.vector < p.v) && decide (f.column < p.cols)
  let meets := inside && decide (f.segment < w.terms p f.column) && decide (seg < p.segs)
  match f.site with
  | .sum d => meets &&
      residue (segmentSum s c p w f.vector seg (f.segment % k) f.column + d) != predictedResidue s c p w f.vector seg (f.segment % k) f.column
  | .fold d =>
    meets && match (foldColumn s c p w none f.vector f.column f.segment).add
        (foldTerm s c p w f.vector seg (f.segment % k) f.column 0) with
      | .fin _ n e => !foldAgrees (foldParts n e) d
      | _ => false
  | .exponent bit =>
    let e := unsigned 17 (termExp s c p w f.vector seg (f.segment % k) f.column)
    meets && parityOf (e ^^^ 2 ^ (bit % 17)) != parityOf e
  | .shared => true
  | .bank => inside

/-- The entry of a result (R83). -/
def PassParams.entryOf (p : PassParams) (g col : Nat) : Nat := (p.accBase + g * p.accStride + col) % 65536

/-- Write one result: overwrite or accumulate under the chain field (R79), with the poison of R105. -/
def writeResult (s0 : State) (ph c : Nat) (p : PassParams) (w : Weights) (f : Option ArrayFault) (gPsn : Nat → Bool) (cPsn : Nat → Bool)
    (s : State) (g col : Nat) : State :=
  let n := p.entryOf g col
  let part := foldColumn s0 c p w f g col (w.terms p col)
  if p.chain = 2 ∨ p.chain = 3 then
    let s := readEntry s ph n
    let old := entryLane (s.entry ph n)
    s.setEntry ph n (toZ56 (rZ56 ((ofZ56 old.val.toNat).add part))) (gPsn g || cPsn col || old.psn)
  else s.setEntry ph n (toZ56 part) (gPsn g || cPsn col)

/-- The slots of a pass's blocks: those of the modes that its columns hold. -/
def Weights.blockSlots (w : Weights) (p : PassParams) : Nat :=
  match p.half with
  | 1 => slotCount w.left.mode
  | 2 => slotCount w.right.mode
  | _ => max (slotCount w.left.mode) (slotCount w.right.mode)

/-- The poisoned activation blocks of a pass, as vector and block. -/
def poisonedActs (s : State) (c : Nat) (p : PassParams) (k : Nat) : List (Nat × Nat) :=
  (List.range p.v).flatMap fun g => (((List.range (p.segs * k)).filter fun n => actPoison s c p g n).map fun n => (g, n))

/-- The poisoned weight blocks of a pass in fed segments, by segment, column and slot, as logical column, logical segment and slot. -/
def poisonedWeights (p : PassParams) (w : Weights) : List (Nat × Nat × Nat) :=
  (List.range p.segs).flatMap fun seg => (List.range p.cols).flatMap fun col =>
    ((List.range (w.slots p col)).filter fun j => weightPoison w (placeOf p col seg).2 j (placeOf p col seg).1).map
      fun j => (col, seg, j)

/-- ADDR of an array record (R454): physical column, segment and vector. -/
def arrayAddr (p : PassParams) (col seg g : Nat) : Nat :=
  let (pc, ps) := placeOf p col seg
  pc + ps * 128 + g % 1024 * 2 ^ 16

/-- The array cycle, counted from the pass's first vector, in which a fault reaches a checker (R85, R103): the fold stage of its segment, the
entry write for a fault of the bank. -/
def detectCycle (p : PassParams) (k : Nat) (f : ArrayFault) : Nat :=
  match f.site with
  | .bank => f.vector + p.depth + f.column
  | _ => f.vector + 32 * (f.segment / k + 1) - 1 + f.column

/-- Whether the result of a vector and column stands although the checkers catch a fault (R104): it was written in an earlier cycle.
DESIGN CHOICE (log 144): one of the detection's own cycle is suppressed. -/
def writtenBefore (p : PassParams) (k : Nat) (f : ArrayFault) (g col : Nat) : Bool :=
  decide (g + p.depth + col < detectCycle p k f) && !(g == f.vector && col == f.column)

/-- A pass runs (R85, R104, R105, R202): the results that stand are written in order and the poison that it consumed bites, a weight block
entering before every activation block. The answer tells how it ended. -/
def runPass (s : State) (c ph : Nat) (p : Pass) (w : Weights) (f : Option ArrayFault) : State × PassStatus :=
  let par := p.par
  let s := fetchRange (fetchRange s (tileAddr c par.aSig) par.sigSpan) (tileAddr c par.aExp) par.expSpan
  let k := w.blockSlots par
  let acts := poisonedActs s c par k
  let ws := poisonedWeights par w
  let gPsn := fun g => acts.any fun a => a.1 == g
  let cPsn := fun col => ws.any fun x => x.1 == col
  let failed := match f with | some x => caught s c par w x | none => false
  let stands := fun g col => match f with | some x => !failed || writtenBefore par (w.slots par x.column) x g col | none => true
  let t := (List.range par.v).foldl (fun t g => (List.range par.cols).foldl (fun t col =>
    if stands g col then writeResult s ph c par w f gPsn cPsn t g col else t) t) s
  let n := acts.length + ws.length
  let first := match ws, acts with
    | (col, seg, _) :: _, _ => arrayAddr par col seg 0
    | [], (g, b) :: _ => arrayAddr par 0 (b / k) g
    | [], [] => 0
  (if n = 0 then t else t.bite 2 (4 * ph + par.half) (opidBundle c p.bundle) first n,
   if failed then .residue else if n = 0 then .ok else .poison)

/-! ### Completion, replay and arbitration (R95, R96, R100, R101, R104, R442) -/

/-- The passes of the oldest chain of a target: up to and with its first single or end pass. -/
def chainOf : List Pass → List Pass
  | [] => []
  | p :: ps => if p.par.chain = 0 ∨ p.par.chain = 3 then [p] else p :: chainOf ps

/-- Whether the oldest chain of a target has ended and every pass of it is finished. -/
def chainDone (l : List Pass) : Bool :=
  match (chainOf l).getLast? with
  | some p => (p.par.chain == 0 || p.par.chain == 3) && (chainOf l).all (·.fin)
  | none => false

/-- A chain that is complete leaves the target, and the writes it held go (R101). -/
def retireChain (s : State) (c a h : Nat) : State :=
  let u := s.half c a h
  if chainDone u.passes && !u.failed then
    (s.modHalf c a h fun x => { x with passes := x.passes.drop (chainOf x.passes).length }).drain c
  else s

/-- Whether a range of addresses meets the accumulator entries of array `a` of core c. -/
def meetsBank (c a x n : Nat) : Bool := rangesOverlap x n (Config.accBase + c * 0x200000 + a * 0x80000) 0x80000

/-- Whether another access keeps a pass from its entries: a pass issued earlier on another target, or in another chain, until it and what
was issued of its chain before this pass have completed, or an earlier transfer that still accesses the bank (R84, R94). -/
def spanBlocked (s : State) (c a h : Nat) (p : Pass) : Bool :=
  let k := s.core c
  let mine := chainOf ((k.array a).half h).passes
  (targets.any fun g =>
    let u := (k.array a).half g
    (u.passes.any fun q => decide (q.seq < p.seq) && !(h == g && mine.contains q) &&
      entrySpansMeet p.par.accBase p.par.span q.par.accBase q.par.span) &&
    (u.failed || u.passes.any fun q => decide (q.seq < p.seq) && !q.fin)) ||
  (List.range 4).any fun q => (k.queue q).any fun t =>
    decide (t.seq < p.seq) && t.segs.any fun (x, y, n) => meetsBank c a x n || meetsBank c a y n

/-- A pass has finished with a status (R105). -/
def finishPass (s : State) (c a h seq : Nat) (st : PassStatus) : State :=
  s.modHalf c a h fun x =>
    { x with
      passes := x.passes.map fun q => if q.seq = seq then { q with started := true, fin := true, status := st } else q
      lastStatus := st }

/-- A target waits for the replay of its oldest chain (R104): the queued passes of the chain leave the queue with what was loaded for
them. -/
def failTarget (s : State) (c a h : Nat) (f : ArrayFault) : State :=
  s.modHalf c a h fun x =>
    { x with
      passes := x.passes.zipIdx.map fun (q, i) => if i < (chainOf x.passes).length then { q with started := true } else q
      failed := true, recurred := false, fault := some f, shadow := [], pend := [], lastStatus := .residue }

/-- The unit and place that a residue-mismatch record names (R95, R104, R454): the array or half; the array as a whole for a shared part, the
bank and the entry for a fault of the bank. -/
def mismatchUnit (ph : Nat) (p : PassParams) (k : Nat) (f : ArrayFault) : Nat × Nat × Nat :=
  match f.site with
  | .shared => (2, 4 * ph, arrayAddr p f.column (f.segment / k) f.vector)
  | .bank => (3, ph, p.entryOf f.vector f.column)
  | _ => (2, 4 * ph + p.half, arrayAddr p f.column (f.segment / k) f.vector)

/-- The residue-mismatch record of R104. -/
def mismatchRecord (s : State) (c ph : Nat) (p : Pass) (k : Nat) (f : ArrayFault) : State :=
  let (uc, ui, addr) := mismatchUnit ph p.par k f
  s.emit { code := 0x10, uclass := uc, uinst := ui, addr := addr, opid := opidBundle c p.bundle }

/-- Whether a pass that runs on another target fails with a fault of a pass (R95): of a shared part, or of the bank in an entry of its
span. -/
def failsWith (f : ArrayFault) (p q : PassParams) : Bool :=
  match f.site with
  | .shared => true
  | .bank => entrySpansMeet (p.entryOf f.vector f.column) 1 q.accBase q.span
  | _ => false

/-- The targets that fail with a fault of pass p (R95). -/
def failTargets (s : State) (c a h : Nat) (p : Pass) (f : ArrayFault) : State :=
  targets.foldl (fun t g =>
    match oldest (t.half c a g) with
    | some q => if g = h ∨ (q.started && failsWith f p.par q.par) then failTarget t c a g f else t
    | none => t) s

/-- PASS_COMPLETE (R85, R96, R101, R104): the oldest pass of a target, its weights loaded and its order met, writes its results. With a
fault that the checkers catch, the results before the detection stand, the rest is suppressed and the target waits for its replay. -/
def passComplete (c a h : Nat) (fault : Option ArrayFault) (s : State) : State :=
  let u := s.half c a h
  match oldest u, s.physArray c a with
  | some p, some ph =>
    let arr := (s.core c).array a
    let ready := p.started || ((p.par.keep || tileReady u p.par.wmode) && configReady arr p)
    if u.failed || !ready || !passReadsReady s c p (if p.started then p.met else arr.sources h) || spanBlocked s c a h p then s
    else
      let t := if p.started then s else launch s c a h p
      let t := if p.par.keep then t else t.modCore c fun k => k.modArray a fun x => swapStages x h
      let w := ((t.core c).array a).weights
      let r := runPass t c ph p w fault
      match r.2, fault with
      | .residue, some f => failTargets (mismatchRecord r.1 c ph p (w.slots p.par f.column) f) c a h p f
      | st, _ => retireChain (finishPass r.1 c a h p.seq st) c a h
  | _, _ => s

/-- The sources after a pass of target h has taken its own tile, or kept. -/
def Pass.sourcesAfter (p : Pass) (h : Nat) (before : TileSources) : TileSources :=
  if p.par.keep then before else (if h = 2 then none else some p.source, if h = 1 then none else some p.source)

/-- The tile ranges of sources are read (R196, R442). -/
def fetchTiles (s : State) (c : Nat) (src : TileSources) : State :=
  (tileRanges src.1 ++ tileRanges src.2).foldl (fun t (off, n) => fetchRange t (tileAddr c off) n) s

/-- Every pass of a chain runs again from its tiles (R101, R442), up to the one whose fault the checkers catch: a pass that keeps its
weights uses the tile in force before it. The answer is the state, the statuses of the passes that ran, and the sources at the end. -/
def runChain (s : State) (c ph h : Nat) (fault : Option ArrayFault) : List Pass → TileSources → State × List PassStatus × TileSources
  | [], src => (s, [], src)
  | p :: ps, src =>
    let src := p.sourcesAfter h src
    let s := fetchTiles s c src
    let r := runPass s c ph p ⟨loadPlane s c src.1, loadPlane s c src.2⟩
      (match fault with | some f => if f.nth = 0 then some f else none | none => none)
    if r.2 = .residue then (r.1, [.residue], src)
    else
      let x := runChain r.1 c ph h (match fault with | some f => if f.nth = 0 then none else some { f with nth := f.nth - 1 } | none => none) ps src
      (x.1, r.2 :: x.2.1, x.2.2)

/-- The weights of a target are those of sources (R89). -/
def setWeights (s : State) (c a h : Nat) (src : TileSources) : State :=
  s.modCore c fun k => k.modArray a fun u => (halvesOf h).foldl (fun u g =>
    let t := if g = 1 then src.1 else src.2
    let p := loadPlane s c t
    u.modHalf g fun x => { x with active := p.cells, stage := p.stage, actMode := p.mode, tile := t }) u

/-- The oldest chain of a target has completed with these statuses: its hold is lifted, and its columns hold its last tile. -/
def settleChain (s : State) (c a h : Nat) (sts : List PassStatus) (src : TileSources) : State :=
  (setWeights s c a h src).modHalf c a h fun x =>
    { x with
      passes := x.passes.zipIdx.map fun (q, i) =>
        if i < (chainOf x.passes).length then { q with started := true, fin := true, status := nth sts i .residue, met := src } else q
      failed := false, recurred := false, fault := none, lastStatus := sts.getLast?.getD .residue }

/-- The other arrays of a core that still accept passes, lowest first (R442 step 3). -/
def compareArray (s : State) (c a : Nat) : Option Nat :=
  (s.enabledArrays c).find? fun b => b != a && !((s.core c).array b).refuse

/-- The sources that a chain of target h ends with. -/
def chainSources (h : Nat) (chain : List Pass) (src : TileSources) : TileSources := chain.foldl (fun x p => p.sourcesAfter h x) src

/-- The place of a target's fault. -/
def faultPlace (u : HalfUnit) : Nat :=
  match u.fault, chainOf u.passes with
  | some f, p :: _ => arrayAddr p.par f.column (f.segment / p.par.k) f.vector
  | _, _ => 0

/-- The operation id of the oldest chain of a target. -/
def chainOpid (c : Nat) (u : HalfUnit) : Word := match chainOf u.passes with | p :: _ => opidBundle c p.bundle | [] => 0

/-- An arbitration's outcome (R442): its record, the classification, and the array accepts no further pass (R443). -/
def arrayOutcome (s : State) (c a h ph code : Nat) (u : HalfUnit) : State :=
  let t := s.emit { code := code, uclass := 2, uinst := 4 * ph + h, addr := faultPlace u, opid := chainOpid c u }
  let t := classify t 2 (4 * ph + h) (faultPlace u) code
  t.modCore c fun k => k.modArray a fun x => { x with refuse := true }

/-- Outcome 5 of R442: the chain's entries are poisoned, whatever the faulty datapath has left in them, and the chain completes as
failed. -/
def datapathFault (s : State) (c a h ph : Nat) : State :=
  let u := s.half c a h
  let chain := chainOf u.passes
  let t := chain.foldl (fun t p => (List.range p.par.v).foldl (fun t g => (List.range p.par.cols).foldl (fun t col =>
    let n := p.par.entryOf g col
    t.setEntry ph n (Config.faultyEntry s.fresh n).toNat true) t) t) s.draw
  let t := arrayOutcome t c a h ph 0x22 u
  let t := settleChain t c a h [] (chainSources h chain u.chainTile)
  (t.modHalf c a h fun y => { y with passes := y.passes.drop chain.length, chainOpen := false, chainLen := 0 }).drain c

/-- Outcome 4 of R442: the checker is faulty; the observe run's results stand and the chain completes (R104). -/
def checkerFault (s : State) (c a h ph : Nat) : State :=
  let u := s.half c a h
  let r := runChain s c ph h none (chainOf u.passes) u.chainTile
  retireChain (settleChain (arrayOutcome r.1 c a h ph 0x21 u) c a h r.2.1 r.2.2) c a h

/-- CHAIN_REPLAY (R101, R104, R442 steps 1 to 3): the passes of the failed chain issued so far run again. Without a mismatch their
results stand and the event was transient; a mismatch that recurs goes to arbitration, or to outcome 5 when no other array can
compare. -/
def chainReplay (c a h : Nat) (fault : Option ArrayFault) (s : State) : State :=
  let u := s.half c a h
  match s.physArray c a with
  | none => s
  | some ph =>
    if !u.failed || u.recurred then s
    else
      let chain := chainOf u.passes
      let r := runChain s c ph h fault chain u.chainTile
      match fault, r.2.1.contains .residue with
      | some f, true =>
        let t := match chain[f.nth]? with
          | some p => mismatchRecord r.1 c ph p p.par.k f
          | none => r.1
        let t := t.modHalf c a h fun x => { x with recurred := true, fault := some f }
        match compareArray t c a with
        | some _ => t
        | none => datapathFault t c a h ph
      | _, _ => retireChain (settleChain r.1 c a h r.2.1 r.2.2) c a h

/-- ARRAY_ARBITRATION (R442 steps 3 to 5): the observe and compare runs decide between checker and datapath. -/
def arrayArbitration (c a h : Nat) (agree otherMismatch : Bool) (s : State) : State :=
  let u := s.half c a h
  match s.physArray c a, compareArray s c a with
  | some ph, some b =>
    if !u.failed || !u.recurred then s
    else if agree && !otherMismatch then checkerFault s c a h ph
    else
      let t := match otherMismatch, s.physArray c b with
        | true, some ph' => s.noteEvent 1 (unitId 2 (4 * ph' + h)) 0x10 0
        | _, _ => s
      datapathFault t c a h ph
  | _, _ => s

end Sys2Proof.Machine
end

