-- ==== Sys2Proof/Machine/Wire.lean ====
section
/-!
DEFINITION. The byte images of what travels on the fabric: the packet header with its CRC (R317), the packet types (R318), and the layouts
of counts, payloads, responses and contributions (R243, R245, R247, R284).
-/

namespace Sys2Proof

open Machine

/-! ### Messages -/

/-- A count message (R243). -/
def CountMsg.image (m : CountMsg) : List Byte :=
  toBytes 8 (m.descId.toNat + m.batch.toNat * 2 ^ 32) ++ toBytes 8 (m.requester + m.owner * 2 ^ 10 + m.table * 2 ^ 20) ++
    toBytes 8 (m.u + m.p * 2 ^ 32) ++ toBytes 40 m.bo

/-- Whether the fields of a count message fit its layout. -/
def CountMsg.fits (m : CountMsg) : Bool :=
  decide (m.requester < 2 ^ 10) && decide (m.owner < 2 ^ 10) && decide (m.table < 2 ^ 12) && decide (m.u < 2 ^ 32) &&
    decide (m.p < 2 ^ 32) && decide (m.bo < 2 ^ 32)

/-- A position entry (R245). -/
def PosEntry.image (e : PosEntry) : List Byte := toBytes 8 (e.ord + e.bag * 2 ^ 20 + e.pos * 2 ^ 36)

/-- Whether a position entry fits its layout. -/
def PosEntry.fits (e : PosEntry) : Bool := decide (e.ord < 2 ^ 20) && decide (e.bag < 2 ^ 16) && decide (e.pos < 2 ^ 20)

/-- A lookup payload (R245): the header as in the count message, the rows, the entries, the weights. -/
def PayloadMsg.image (m : PayloadMsg) : List Byte :=
  toBytes 8 (m.descId.toNat + m.batch.toNat * 2 ^ 32) ++ toBytes 8 m.requester ++ toBytes 48 (m.u + m.p * 2 ^ 32) ++
    m.rows.flatMap (toBytes 8) ++ m.entries.flatMap PosEntry.image ++ m.weights.flatMap fun w => toBytes 4 w.toNat

/-- Whether the fields of a payload fit its layout. -/
def PayloadMsg.fits (m : PayloadMsg) : Bool :=
  decide (m.requester < 2 ^ 10) && decide (m.u < 2 ^ 32) && decide (m.p < 2 ^ 32) && (m.rows.all fun r => decide (r < 2 ^ 40)) &&
    m.entries.all PosEntry.fits

/-- A record of a response (R247): its 8-byte head, and its elements of `w` bytes. -/
def RespRecord.image (w : Nat) (r : RespRecord) : List Byte := toBytes 8 r.key ++ r.elems.flatMap fun x => toBytes w x.toNat

/-- A response (R244, R247): its records. DESIGN CHOICE (log 128): a failure response is one unit that holds the code. -/
def RespMsg.image (m : RespMsg) : List Byte :=
  match m.fail with
  | some code => toBytes 16 code.toNat
  | none => m.records.flatMap (RespRecord.image (if m.fp32 then 4 else 8))

/-- A record of a contribution message (R284). -/
def ContribRec.image (r : ContribRec) : List Byte :=
  toBytes 8 (r.key + (if r.nf then 2 ^ 62 else 0)) ++ r.elems.flatMap fun x => toBytes 8 x.toNat

/-- A contribution message (R284). -/
def ContribMsg.image (m : ContribMsg) : List Byte :=
  toBytes 8 (m.descId.toNat + m.batch.toNat * 2 ^ 32) ++ toBytes 8 (m.source + m.table * 2 ^ 20 + m.records.length * 2 ^ 32) ++
    toBytes 8 (if m.bag then 1 else 0) ++ toBytes 40 m.sbase.toNat ++ m.records.flatMap ContribRec.image

/-- Whether the fields of a contribution message fit its layout. -/
def ContribMsg.fits (m : ContribMsg) : Bool :=
  decide (m.source < 2 ^ 10) && decide (m.table < 2 ^ 12) && decide (m.records.length < 2 ^ 32) && (m.bag || m.sbase == 0) &&
    m.records.all fun r => decide (r.key < 2 ^ (if m.bag then 20 else 40)) && !(m.bag && r.nf)

/-! ### Packets (R317, R318) -/

/-- The header of a packet as a number, with CRC field `crc`. -/
def PktHead.bits (h : PktHead) (crc : Nat) : Nat :=
  h.typ.toNat + h.vc.toNat * 2 ^ 4 + (if h.dl then 2 ^ 7 else 0) + h.src.toNat * 2 ^ 8 + h.dst.toNat * 2 ^ 18 + h.seq.toNat * 2 ^ 28 +
    h.len.toNat * 2 ^ 40 + h.psn.toNat * 2 ^ 44 + h.tag.toNat * 2 ^ 49 + h.off.toNat * 2 ^ 64 + crc * 2 ^ 96

/-- A packet as the bytes of the link. -/
def Frame.image (f : Frame) : List Byte := toBytes 16 (f.head.bits f.head.crc.toNat) ++ f.payload

/-- CRC: CRC-32C over the header with this field zero, followed by the payload. -/
def Frame.crc (f : Frame) : BitVec 32 := crc32c (toBytes 16 (f.head.bits 0) ++ f.payload)

/-- The packet with its LEN and its CRC. -/
def Frame.sealed (f : Frame) : Frame :=
  let g : Frame := { f with head := { f.head with len := BitVec.ofNat 4 (f.payload.length / 16) } }
  { g with head := { g.head with crc := g.crc } }

/-- Whether the CRC of a packet is good. -/
def Frame.crcOk (f : Frame) : Bool := f.head.crc == f.crc

/-- Whether VC matches TYPE (R318); false for a TYPE that is not listed. -/
def Frame.vcOk (f : Frame) : Bool :=
  match f.head.typ.toNat with
  | 1 => decide (1 ≤ f.head.vc.toNat) && decide (f.head.vc.toNat ≤ 4)
  | 6 | 7 => f.head.vc == 2
  | 0 | 2 | 3 | 4 | 5 | 8 | 9 => f.head.vc == 0
  | _ => false

/-- Whether a field that the type does not use is not zero (R317, R318). DESIGN CHOICE (log 129): PSN is of DATA, TAG of DATA and GRANT, OFF
of these, of link control and of RELEASE, SEQ of all but link control, the ranks of all but HELLO and AUTH. -/
def Frame.stray (f : Frame) : Bool :=
  let h := f.head
  let t := h.typ.toNat
  (t != 1 && h.psn != 0) || (!([1, 2].contains t) && h.tag != 0) || (!([0, 1, 2, 3].contains t) && h.off != 0) || (t == 0 && h.seq != 0) ||
    ([8, 9].contains t && (h.src != 0 || h.dst != 0))

/-- Whether a packet is malformed (R317, R318): its payload is what LEN says, and at most 64 bytes of it are a CTL packet while the port is
UP (R330). -/
def Frame.malformed (f : Frame) : Bool :=
  f.payload.length != 16 * f.head.len.toNat || !f.vcOk || f.stray || ([2, 3, 4, 5].contains f.head.typ.toNat && decide (3 < f.head.len.toNat))

/-- SRC. -/
def Packet.src (k : Packet) : Nat := k.frame.head.src.toNat
/-- DST. -/
def Packet.dst (k : Packet) : Nat := k.frame.head.dst.toNat
/-- TAG. -/
def Packet.tag (k : Packet) : Nat := k.frame.head.tag.toNat
/-- The bytes of a packet's payload that are written. -/
def Packet.body (k : Packet) : List Byte := (k.frame.payload.drop k.use.skew).take k.use.size
/-- The offset of the first of them in the landing space: OFF counts units of 16 bytes. -/
def Packet.off (k : Packet) : Nat := 16 * k.frame.head.off.toNat + k.use.skew

/-- The payload of a packet for bytes from an offset on: whole units of 16 bytes, zero where nothing is written. -/
def padUnits (off : Nat) (bs : List Byte) : List Byte :=
  let front := List.replicate (off % 16) (0 : Byte) ++ bs
  front ++ List.replicate ((16 - front.length % 16) % 16) 0

/-- A HELLO as bytes (R314). DESIGN CHOICE (log 129): the fields in the order of R314, each in whole bytes, rank and port together. -/
def HelloPkt.image (h : HelloPkt) : List Byte :=
  toBytes 1 h.gen ++ toBytes 1 h.grade.toNat ++ toBytes 1 h.scanel ++ toBytes 8 h.jobId.toNat ++ toBytes 2 (h.rank.toNat + h.port * 2 ^ 11) ++
    toBytes 4 h.topoSig.toNat

/-- The transcript that both ends of a link sign (R315): the HELLOs and then the nonces, the lower rank first, the port number as the
tie-break. -/
def transcript (a : HelloPkt) (na : BitVec 256) (b : HelloPkt) (nb : BitVec 256) : List Byte :=
  let first := decide (a.rank.toNat < b.rank.toNat) || (a.rank == b.rank && decide (a.port ≤ b.port))
  let na := toBytes 32 na.toNat
  let nb := toBytes 32 nb.toNat
  if first then a.image ++ b.image ++ na ++ nb else b.image ++ a.image ++ nb ++ na

/-! ### Messages of the host link (R400, R404) -/

/-- A message of the host link with TYPE `ty`, and with CRC field `crc`. -/
def ShlHead.image (h : ShlHead) (ty crc : Nat) : List Byte :=
  toBytes 4 (h.ver.toNat + ty * 2 ^ 8 + h.flags.toNat * 2 ^ 16 + (h.rsvd.toNat % 2 ^ 8) * 2 ^ 24) ++ toBytes 4 h.len.toNat ++
    toBytes 4 h.seq.toNat ++ toBytes 4 h.sid.toNat ++ toBytes 8 h.tag.toNat ++ toBytes 4 (h.rsvd.toNat / 2 ^ 8) ++ toBytes 4 crc ++ h.body

/-- CRC: CRC-32C over the message with this field zero. -/
def ShlHead.crcFor (h : ShlHead) (ty : Nat) : BitVec 32 := crc32c (h.image ty 0)

/-- The message with its LEN and its CRC. -/
def ShlHead.sealed (h : ShlHead) (ty : Nat) : ShlHead :=
  let g : ShlHead := { h with len := BitVec.ofNat 32 (32 + h.body.length) }
  { g with crc := g.crcFor ty }

/-- Whether CRC, LEN and reserved bits of a request are right (R400). DESIGN CHOICE (log 139): a VER that no version has, and REPLY or FAIL
in a request, count as reserved bits. -/
def ShlHead.ok (h : ShlHead) (ty : Nat) : Bool :=
  decide (1 ≤ h.ver.toNat) && decide (h.ver.toNat ≤ 3) && h.flags == 0 && h.rsvd == 0 && h.len == BitVec.ofNat 32 (32 + h.body.length) &&
    decide (32 + h.body.length ≤ 4096) && h.crc == h.crcFor ty

/-- The body of BUF_OPEN in the bytes of its message (R404). -/
def bufBody (l : List Byte) : BufBody :=
  let at_ := fun lo n => fromBytes ((l.drop lo).take n)
  { buf := BitVec.ofNat 8 (at_ 0 1), kind := BitVec.ofNat 8 (at_ 1 1), addr := BitVec.ofNat 64 (at_ 8 8), size := at_ 16 8,
    rkey := BitVec.ofNat 32 (at_ 24 4)
    rsvdOk := decide (28 ≤ l.length) && at_ 2 6 == 0 && (l.drop 28).all (· == 0) }

/-- The packets of 240 payload bytes at most that a message of `n` bytes takes (R317). -/
def packetCount (n : Nat) : Nat := max 1 ((n + 239) / 240)

end Sys2Proof
end

