-- ==== Sys2Proof/Machine/Link.lean ====
section
/-!
DEFINITION. Ranks, ports and routes of the job (R321 to R326), and how a message leaves by a port: virtual channel, credits, sequence
number, replay buffer (R320, R328, R330).
-/

namespace Sys2Proof.Machine

/-! ### Ranks and coordinates (R321, R322) -/

/-- The axis sizes of a program, in the order D, P, T, S. -/
def axisSizes (p : Program) : List Nat := [p.nD, p.nP, p.nT, p.nS]

/-- The size of axis a. -/
def axisSize (p : Program) (a : Nat) : Nat := max 1 (nth (axisSizes p) a 1)

/-- The product of the sizes of the axes below a. -/
def axisStride (p : Program) (a : Nat) : Nat := ((List.range a).map (axisSize p)).prod

/-- The coordinate of a rank on axis a (R322). -/
def coord (p : Program) (r a : Nat) : Nat := r / axisStride p a % axisSize p a

/-- The rank that differs from r only in coordinate x on axis a. -/
def rankAt (p : Program) (r a x : Nat) : Nat := r - coord p r a * axisStride p a + x * axisStride p a

/-- The devices of the program. -/
def programSize (p : Program) : Nat := axisStride p 4

/-! ### Cabling and routes (R323 to R326) -/

/-- The port of the twin. -/
abbrev twinPort : Nat := 8

/-- The rank that the program cables to a port of rank r (R323, R348). -/
def cabledTo (p : Program) (r port : Nat) : Option Nat :=
  if port = twinPort then p.twinRank
  else if !p.torus then
    let x := r ^^^ (port + 1)
    if port < 7 ∧ x < programSize p then some x else none
  else
    let a := port / 2
    let n := axisSize p a
    if n < 2 then none
    else some (rankAt p r a ((coord p r a + (if port % 2 = 0 then 1 else n - 1)) % n))

/-- One hop of a route: the device it reaches, the port it enters by, the port it left by, and DL on it. -/
structure Hop where
  rank : Nat
  entry : Nat
  exit : Nat
  dl : Bool
  deriving DecidableEq, Repr

/-- The hops along one axis: `plus` is the direction, `dl` whether the dateline has been crossed (R325). -/
def axisHops (p : Program) (a : Nat) (plus : Bool) (goal : Nat) : Nat → Nat → Bool → List Hop
  | 0, _, _ => []
  | f + 1, r, dl =>
    let x := coord p r a
    if x = goal then []
    else
      let n := axisSize p a
      let y := (x + (if plus then 1 else n - 1)) % n
      let dl := dl || (if plus then decide (x = n - 1) else decide (x = 0))
      let r' := rankAt p r a y
      ⟨r', if plus then 2 * a + 1 else 2 * a, if plus then 2 * a else 2 * a + 1, dl⟩ :: axisHops p a plus goal f r' dl

/-- The hops of a torus route over the axes from a on; `n` axes are left. -/
def torusHops (p : Program) (dst : Nat) : Nat → Nat → Nat → List Hop
  | 0, _, _ => []
  | n + 1, a, r =>
    let x := coord p r a
    let y := coord p dst a
    let sz := axisSize p a
    let up := (y + sz - x) % sz
    let hops := axisHops p a (decide (2 * up ≤ sz)) y sz r false
    hops ++ torusHops p dst n (a + 1) (rankAt p r a y)

/-- The route from src to dst (R324). -/
def route (p : Program) (src dst : Nat) : List Hop :=
  if src = dst then []
  else if p.torus then torusHops p dst 4 0 src
  else [⟨dst, (src ^^^ dst) - 1, (src ^^^ dst) - 1, false⟩]

/-- The port by which this device's packets for a rank leave. -/
def outPort (s : State) (dst : Nat) : Option (Nat × Bool) :=
  match s.prog with
  | none => none
  | some p => (route p s.rank dst).head?.map fun h => (h.exit, h.dl)

/-! ### DATA packets (R317 to R319) -/

/-- The poison bits of a payload at an offset: bit j for the j-th granule (R319). -/
def psnBits (off : Nat) (marks : List Bool) : BitVec 5 :=
  BitVec.ofNat 5 (((List.range 5).map fun j =>
    if marks.zipIdx.any fun (m, i) => m && (off + i) / 64 - off / 64 == j then 2 ^ j else 0).sum)

/-- A DATA packet of this device that writes bytes from an offset of a landing space on; LEN, SEQ and CRC come when it leaves. -/
def dataTo (s : State) (vc dst tag off : Nat) (bs : List Byte) (psn : BitVec 5) : Packet :=
  { frame :=
      { head :=
          { typ := 1, vc := BitVec.ofNat 3 vc, dl := false, src := BitVec.ofNat 10 s.rank, dst := BitVec.ofNat 10 dst, seq := 0, len := 0,
            psn := psn, tag := BitVec.ofNat 15 tag, off := BitVec.ofNat 32 (off / 16), crc := 0 }
        payload := padUnits off bs }
    use :=
      { opStep := 0, opDesc := 0, opCrc := none, skew := off % 16, size := bs.length, chunk := 0, first := 0, axis := 0, folds := 0,
        last := false, rtok := none } }

/-! ### Messages on a port (R328, R330) -/

/-- The rank that a message goes to; none for packets of a link and for the reductions of the seal and the digests. -/
def OutMsg.dst : OutMsg → Option Nat
  | .count d _ | .payload d _ | .response d _ | .prefetch d _ | .contrib d _ | .marker d _ | .grant d _ | .release d _ | .done d _ _
  | .fail d _ _ _ | .barArrive d _ _ | .barRelease d _ _ | .data d _ => some d
  | _ => none

/-- The virtual channel of a message (R328). -/
def OutMsg.vc : OutMsg → Nat
  | .response _ _ => 1
  | .barArrive _ _ _ | .barRelease _ _ _ => 2
  | .count _ _ | .payload _ _ | .prefetch _ _ | .contrib _ _ | .marker _ _ => 3
  | .data _ k => k.frame.head.vc.toNat
  | .transit _ f => f.head.vc.toNat
  | _ => 0

/-- The payload bytes of a message (R239, R243, R245, R247, R284, R288). DESIGN CHOICE (log 128): a prefetch message is a 64-byte header and
8 bytes a row. -/
def OutMsg.bytes : OutMsg → Nat
  | .count _ m => m.image.length
  | .payload _ m => m.image.length
  | .response _ m => m.image.length
  | .prefetch _ m => 64 + 8 * m.rows.length
  | .contrib _ m => m.image.length
  | .marker _ _ => 64
  | .data _ k => k.frame.payload.length
  | .transit _ f => f.payload.length
  | _ => 0

/-- The packets of a message (R317). -/
def OutMsg.packets (m : OutMsg) : Nat := packetCount m.bytes

/-- The receive buffer of a subchannel in credits of 16 bytes (R328, R330). -/
def bufferCredits (vc : Nat) : Nat :=
  match vc with
  | 1 | 4 => 1024
  | 2 | 3 => 2048
  | _ => 0

/-- The credits that a message takes: its bytes and a header for each packet; it goes as one unit, and takes at most the whole buffer. -/
def OutMsg.credits (m : OutMsg) : Nat := min ((m.bytes + 15) / 16 + m.packets) (bufferCredits m.vc)

/-- The number of a subchannel. -/
def subchannel (vc : Nat) (dl : Bool) : Nat := 2 * vc + (if dl then 1 else 0)

/-- A DATA or transit packet takes its SEQ, and with it its CRC (R317, R320). -/
def OutMsg.stamp (seq : BitVec 12) : OutMsg → OutMsg
  | .data d k => .data d { k with frame := Frame.sealed { k.frame with head := { k.frame.head with seq := seq } } }
  | .transit p f => .transit p (Frame.sealed { f with head := { f.head with seq := seq } })
  | m => m

/-- A DATA packet takes the DL of the hop that it leaves by (R325). -/
def OutMsg.onHop (dl : Bool) : OutMsg → OutMsg
  | .data d k => .data d { k with frame := { k.frame with head := { k.frame.head with dl := dl } } }
  | m => m

/-- Put a message on the wire of a port: its packets take the link's next SEQs and stay in the replay buffer (R320). -/
def wire (s : State) (port : Nat) (m : OutMsg) : State :=
  let seq := (s.port port).txSeq
  let m := m.stamp seq
  { s.modPort port (fun p =>
      { p with replay := p.replay ++ [⟨seq, m.packets, m, 0⟩], txSeq := p.txSeq + BitVec.ofNat 12 m.packets }) with
    fabOut := s.fabOut ++ [m] }

/-- The bytes of a message with the headers of its packets. -/
def OutMsg.onLink (m : OutMsg) : Nat := m.bytes + 16 * m.packets

/-- Whether the replay buffer of 64 KiB has room for a message; an empty one takes a message whatever its size (R320). -/
def replayRoom (p : Port) (m : OutMsg) : Bool :=
  p.replay.isEmpty || decide ((p.replay.map fun e => e.msg.onLink).sum + m.onLink ≤ 65536)

/-- Whether a port carries a message: UP, or FOREIGN for migration writes when MIGR allows them at both ends (R313). -/
def carries (p : Port) (m : OutMsg) : Bool :=
  match p.st with
  | .up => true
  | .foreign => p.migr && (match m with | .data _ k => k.frame.head.vc == 4 && decide (k.tag < 64) | _ => false)
  | _ => false

/-- Whether the credits of a subchannel suffice for a message (R330); CTL needs none. -/
def creditFor (p : Port) (key : Nat) (m : OutMsg) : Bool := m.vc == 0 || decide (mget 0 p.credits key + m.credits ≤ bufferCredits m.vc)

/-- Whether a message may leave its port: the port carries it, its replay buffer has room, nothing of the subchannel waits, and the credits
suffice (R330). -/
def mayLeave (p : Port) (key : Nat) (m : OutMsg) : Bool :=
  carries p m && replayRoom p m && creditFor p key m && (m.vc == 0 || !(p.waiting.any fun w => w.1 == key))

/-- Take the credits of a message. -/
def takeCredits (s : State) (port key : Nat) (m : OutMsg) : State :=
  if m.vc = 0 then s else s.modPort port fun p => { p with credits := mmod 0 p.credits key (· + m.credits) }

/-- A message is queued at an output port: it leaves, or waits; a wait without credits starts the credit timer (R349). -/
def shipOn (s : State) (port : Nat) (dl : Bool) (m : OutMsg) : State :=
  let m := m.onHop dl
  let key := subchannel m.vc dl
  let p := s.port port
  if mayLeave p key m then wire (takeCredits s port key m) port m
  else s.modPort port fun p =>
    { p with
      waiting := p.waiting ++ [(key, m)]
      stalled := if p.st = .up ∧ !creditFor p key m ∧ mget 0 p.stalled key = 0 then mset 0 p.stalled key (s.cycle + 1) else p.stalled }

/-- A message leaves for its destination rank over the port of R324; what has no route, or is no message to a rank, leaves the block as it
is. -/
def ship (s : State) (m : OutMsg) : State :=
  match m.dst.bind (outPort s) with
  | some (port, dl) => shipOn s port dl m
  | none => { s with fabOut := s.fabOut ++ [m] }

/-- Messages leave in order. -/
def shipAll (s : State) (l : List OutMsg) : State := l.foldl ship s

/-- The waiting messages of a port are looked at again, those of the highest class first and each class oldest first (R31, R32, R329): those
that may leave do. -/
def drainPort (s : State) (port : Nat) : State :=
  let w := (s.port port).waiting
  let byClass := [0, 1, 2, 3, 4].flatMap fun vc => w.filter fun x => x.2.vc == vc
  byClass.foldl (fun s (key, m) => if mayLeave (s.port port) key m then wire (takeCredits s port key m) port m
      else s.modPort port fun p => { p with waiting := p.waiting ++ [(key, m)] })
    (s.modPort port fun p => { p with waiting := [] })

/-! ### Inbox credits (R331) -/

/-- Whether `n` bytes of the inbox at a destination are free. -/
def inboxRoom (s : State) (dst n : Nat) : Bool :=
  match s.prog with | some p => decide (mget 0 s.inbox dst + n ≤ p.inboxBytes) | none => false

/-- A message takes inbox space at its destination and leaves. -/
def intoInbox (s : State) (dst n : Nat) (m : OutMsg) : State := ship { s with inbox := mmod 0 s.inbox dst (· + n) } m

/-- A message of `n` bytes for the inbox of a destination leaves once that inbox has room, behind the messages that wait for it. -/
def sendMsg (s : State) (dst n : Nat) (m : OutMsg) : State :=
  if inboxRoom s dst n && !(s.outWait.any fun w => w.1 == dst) then intoInbox s dst n m
  else { s with outWait := s.outWait ++ [(dst, n, m)] }

/-- Inbox space at a destination has come back: what waits for it leaves, in order, while there is room; `fuel` bounds the messages. -/
def drainInbox : Nat → State → Nat → State
  | 0, s, _ => s
  | f + 1, s, dst =>
    match s.outWait.find? fun w => w.1 == dst with
    | some (d, n, m) =>
      if inboxRoom s d n then drainInbox f (intoInbox { s with outWait := s.outWait.erase (d, n, m) } d n m) dst else s
    | none => s

/-- The receiver has consumed a message of `n` bytes and returns its inbox space. -/
def releaseTo (s : State) (src n : Nat) : State := if src = s.rank then s else ship s (.release src n)

end Sys2Proof.Machine
end

