-- ==== Sys2Proof/Machine/Pages.lean ====
section
/-!
DEFINITION. The common header of a register page: error records in a page (R529, R452), and the progress words (R532, R533).
-/

namespace Sys2Proof.Machine

/-! ### A record as eight words (R452) -/

/-- Words 0 to 6 of a record, then word 7 without its CRC. -/
def recBody (r : Rec) : List Word :=
  [BitVec.ofNat 64 (r.code.toNat + r.kind.toNat * 2 ^ 8 + r.uclass.toNat * 2 ^ 16 + r.uinst.toNat * 2 ^ 20 + r.step.toNat * 2 ^ 32),
   r.opid, r.time, r.addr.zeroExtend 64,
   BitVec.ofNat 64 (r.count.toNat + r.detail.toNat * 2 ^ 32),
   BitVec.ofNat 64 (r.temp.toNat + r.volt.toNat * 2 ^ 16 + r.rank.toNat * 2 ^ 32),
   r.rseq.zeroExtend 64, 0]

/-- The eight words of a record, with CRC-32C over bytes 0 to 59 in bits 63:32 of word 7 (R452). -/
def recWords (r : Rec) : List Word :=
  let bytes := ((recBody r).flatMap fun w => toBytes 8 w.toNat).take 60
  (recBody r).take 7 ++ [BitVec.ofNat 64 ((crc32c bytes).toNat * 2 ^ 32)]

/-! ### Errors in the page (R529) -/

/-- Bit KIND of an error-status value. -/
def kindBit (k : BitVec 3) : BitVec 9 := BitVec.ofNat 9 (2 ^ k.toNat)

/-- A record enters the page of its unit: ERR_REC, the enabled status bit, and OVF when the record before it was still flagged (R529). -/
def Page.enter (p : Page) (r : Rec) : Page :=
  let ovf := !p.errRec.isEmpty && (p.errStat &&& kindBit p.lastKind) != 0
  { p with
    errRec := recWords r
    lastKind := r.kind
    errStat := p.errStat ||| (if p.errEn.getLsbD r.kind.toNat then kindBit r.kind else 0) ||| (if ovf then 0x100 else 0) }

/-! ### Progress (R532, R533) -/

/-- An operation starts in a page: it replaces the words of the operation reported before. -/
def Page.begin (p : Page) (op tot now : Nat) : Page :=
  { p with op := BitVec.ofNat 8 op, failed := false, done := false, active := true, pos := 0, tot := tot, t0 := BitVec.ofNat 64 now }
/-- `n` more units of the page's operation are complete. -/
def Page.advance (p : Page) (n : Nat) : Page := if p.active then { p with pos := min p.tot (p.pos + n) } else p
/-- The page's operation completes. -/
def Page.finish (p : Page) : Page := if p.active then { p with active := false, done := true, pos := p.tot } else p
/-- The page's operation ends failed or abandoned. -/
def Page.fail (p : Page) : Page := if p.active then { p with active := false, failed := true } else p

/-- An operation starts in page `n`, unless another is active there (R533). -/
def State.beginProg (s : State) (n op tot : Nat) : State :=
  s.modPage n fun p => if p.active then p else p.begin op tot s.nowNs

/-- Pages that exist (R534). -/
def pagePresent (n : Nat) : Bool :=
  decide (n ≤ 4) || (decide (0x08 ≤ n) && decide (n ≤ 0x0B)) || (decide (0x10 ≤ n) && decide (n ≤ 0x18)) ||
    n == 0x1A || n == 0x1B || (decide (0x20 ≤ n) && decide (n ≤ 0x7F))

/-- The unit that a page stands for, as UCLASS and UINST (R454, R534). -/
def unitOfPage (n : Nat) : Nat × Nat :=
  if n = 0 then (0xC, 2) else if n = 1 then (0xB, 0) else if n = 2 then (0xC, 1) else if n = 3 then (0xC, 0) else if n = 4 then (9, 8)
  else if n < 0x10 then (8, n - 0x08) else if n < 0x1A then (9, n - 0x10) else if n < 0x20 then (0xA, n - 0x1A)
  else if n < 0x40 then (1, n - 0x20) else (7, n - 0x40)

end Sys2Proof.Machine
end

