-- ==== Sys2Proof/Machine/Tables.lean ====
section
/-!
DEFINITION. Tables, row records, the owner map and presence bits (R219 to R231), and the hot-row store (R254 to R260).
-/

namespace Sys2Proof.Machine

/-- ceil(a / b). -/
def ceilDiv (a b : Nat) : Nat := (a + b - 1) / b

/-! ### Table descriptors (R220, R276) -/

/-- TABLE. -/
def tId (d : TableDesc) : Nat := fld d.w0 0 12
/-- RFMT. -/
def tRfmt (d : TableDesc) : Nat := fld d.w0 12 4
/-- The row format as a code of R152. -/
def tFmt (d : TableDesc) : Nat := nth [0x00, 0x02, 0x01, 0x03, 0x04, 0x09, 0x0A] (tRfmt d) 0
/-- DIM. -/
def tDim (d : TableDesc) : Nat := fld d.w0 16 13
/-- RSZ. -/
def tRsz (d : TableDesc) : Nat := fld d.w0 32 7
/-- Whether the table is sharded (PLACE 0b01). -/
def tSharded (d : TableDesc) : Bool := fld d.w0 40 2 == 1
/-- HOT bit 0: prefetch. -/
def tPrefetch (d : TableDesc) : Bool := d.w0.getLsbD 42
/-- HOT bit 1: the table has a pinned set. -/
def tPinned (d : TableDesc) : Bool := d.w0.getLsbD 43
/-- TIER. -/
def tTier (d : TableDesc) : Bool := d.w0.getLsbD 44
/-- The number of rows. -/
def tRows (d : TableDesc) : Nat := fld d.w1 0 40 + 1
/-- BASE. -/
def tBase (d : TableDesc) : Nat := fld d.w2 0 48
/-- LROWS. -/
def tLrows (d : TableDesc) : Nat := fld d.w3 0 40
/-- PBASE. -/
def tPbase (d : TableDesc) : Nat := fld d.w4 0 48
/-- PBLK. -/
def tPblk (d : TableDesc) : Nat := fld d.w6 0 48
/-- The bytes of a record, R of R221. -/
def tRec (d : TableDesc) : Nat := 128 * (tRsz d + 1)
/-- Whether the rows are SB blocks. -/
def tBlocks (d : TableDesc) : Bool := decide (5 ≤ tRfmt d)
/-- The weight bytes, W of R222. -/
def tW (d : TableDesc) : Nat :=
  if tRfmt d = 5 then tDim d + tDim d / 32 else if tRfmt d = 6 then tDim d / 2 + tDim d / 32 else elemBytes (tFmt d) * tDim d
/-- H of R221. -/
def tH (d : TableDesc) : Nat := 128 * ceilDiv (tW d) 128
/-- Records in a chunk, C of R223. -/
def tPerChunk (d : TableDesc) : Nat := 128 / (tRsz d + 1)
/-- The address of record l (R223). -/
def recordAddr (d : TableDesc) (l : Nat) : Nat := tBase d + 16384 * (l / tPerChunk d) + tRec d * (l % tPerChunk d)
/-- The bytes of the table's record region. -/
def recordRegion (d : TableDesc) : Nat := 16384 * ceilDiv (tLrows d) (tPerChunk d)

/-- The descriptor of a table of the loaded program. -/
def tableOf (s : State) (t : Nat) : Option TableDesc :=
  match s.prog with | some p => p.tables.find? fun d => tId d == t | none => none

/-! ### Owners (R226 to R228) -/

/-- START of an owner-map entry. -/
def oStart (e : OwnerEntry) : Nat := fld e.w0 0 40
/-- TABLE of an owner-map entry. -/
def oTable (e : OwnerEntry) : Nat := fld e.w0 40 12
/-- DEV of an owner-map entry. -/
def oDev (e : OwnerEntry) : Nat := fld e.w0 52 10
/-- LOFF of an owner-map entry. -/
def oLoff (e : OwnerEntry) : Nat := fld e.w1 0 40

/-- The owner-map entries of a table. -/
def tableOwners (p : Program) (d : TableDesc) : List OwnerEntry := (p.ownerMap.drop (fld d.w5 0 16)).take (fld d.w5 16 16 + 1)

/-- The owner and local index of row r (R228); a replicated table is owned by the device itself. -/
def ownerOf (s : State) (d : TableDesc) (r : Nat) : Nat × Nat :=
  if !tSharded d then (s.rank, r)
  else
    match s.prog with
    | none => (s.rank, r)
    | some p =>
      match (tableOwners p d).reverse.find? fun e => decide (oStart e ≤ r) with
      | some e => (oDev e, r - oStart e + oLoff e)
      | none => (s.rank, r)

/-- Insert in ascending order, without repeats. -/
def insertNat (x : Nat) : List Nat → List Nat
  | [] => [x]
  | y :: ys => if x < y then x :: y :: ys else if x = y then y :: ys else y :: insertNat x ys

/-- Ascending order without repeats. -/
def sortNats (l : List Nat) : List Nat := l.foldr insertNat []

/-- The owners of a table, ascending (R243, R250). -/
def ownersOf (s : State) (d : TableDesc) : List Nat :=
  if !tSharded d then [s.rank]
  else match s.prog with | some p => sortNats ((tableOwners p d).map oDev) | none => []

/-- The devices of the job. -/
def jobSize (s : State) : Nat := match s.prog with | some p => p.nD * p.nP * p.nT * p.nS | none => 1

/-- The global row of local index l on this device. -/
def globalRow (s : State) (d : TableDesc) (l : Nat) : Nat :=
  if !tSharded d then l
  else
    match s.prog with
    | none => l
    | some p =>
      let es := (tableOwners p d).zipIdx
      let len := fun (i : Nat) => match (tableOwners p d)[i + 1]? with | some n => oStart n | none => tRows d
      match es.find? fun (e, i) => oDev e == s.rank && decide (oLoff e ≤ l) && decide (l < oLoff e + (len i - oStart e)) with
      | some (e, _) => oStart e + (l - oLoff e)
      | none => l

/-! ### The parameter block (R276) -/

/-- Word i of the parameter block of a table, as it stands in memory. -/
def paramWord (s : State) (t : TableDesc) (i : Nat) : Word := BitVec.ofNat 64 (readN s (tPblk t + 8 * i) 8)

/-- Whether the table is frozen: it has no ledger. -/
def tFrozen (s : State) (t : TableDesc) : Bool := fld (paramWord s t 0) 0 4 == 0

/-! ### Presence (R229, R231) -/

/-- Whether record l is present; the bitmap is not read once every bit of every tiered table has been set. -/
def present (s : State) (d : TableDesc) (l : Nat) : Bool :=
  !tTier d || s.tierDone || (s.byte (tPbase d + l / 8)).getLsbD (l % 8)

/-- The records of a tiered table that are absent. -/
def absentRecords (s : State) (d : TableDesc) : List Nat := (List.range (tLrows d)).filter fun l => !present s d l

/-- Whether a tiered table still has an absent record. -/
def tieredAbsent (s : State) : Bool :=
  match s.prog with
  | some p => p.tables.any fun d => tTier d && (List.range (tLrows d)).any fun l => !present s d l
  | none => false

/-- The absent records of a list, after the reads of their presence bits (R193). -/
def absentOf (s : State) (d : TableDesc) (rows : List Nat) : State × List Nat :=
  if !tTier d || s.tierDone then (s, [])
  else
    let s := rows.foldl (fun t l => fetchRange t (tPbase d + l / 8) 1) s
    (s, rows.filter fun l => !present s d l)

/-- Table load is complete when no tiered table has an absent record: its progress ends, and the bitmaps are not read any more (R231). -/
def endTableLoad (s : State) : State :=
  if tieredAbsent s then s
  else { s with tierDone := true }.modPage 0x08 fun p => if p.op = 1 then p.finish else p

/-- Set the presence bit of record l: one more record of the table load is there (R229 to R231). -/
def setPresent (s : State) (d : TableDesc) (l : Nat) : State :=
  if !tTier d || s.tierDone then s
  else
    let a := tPbase d + l / 8
    let s := fetchRange s a 1
    if present s d l then s
    else
      let s := store s a (clean [s.byte a ||| BitVec.ofNat 8 (2 ^ (l % 8))])
      endTableLoad (s.modPage 0x08 fun p => if p.op = 1 then p.advance 1 else p)

/-! ### Weights as values (R222, R249) -/

/-- The exact values of a record's weights. -/
def weightValues (d : TableDesc) (w : List Byte) : List XNum :=
  let n := tDim d
  if tBlocks d then
    let bw := blockWidth (tFmt d)
    let sig := fromBytes (w.take (n * bw / 8))
    let exps := w.drop (n * bw / 8)
    (List.range n).map fun i => blockElem (tFmt d) (nth exps (i / 32) 0).toNat (nbits sig (bw * i) bw)
  else
    let eb := elemBytes (tFmt d)
    (List.range n).map fun i => decodeElem (tFmt d) 0 (fromBytes ((w.drop (eb * i)).take eb))

/-! ### The hot-row store (R254 to R257) -/

/-- The vault unit number of a 128-byte chunk (R254). -/
def chunkUnit (a : Nat) : Nat := pageOf a * 2 ^ 12 + bankOf a * 2 ^ 7 + nbits a 10 4 * 2 ^ 3 + dieOf a
/-- The set of a unit number. -/
def hotSet (u : Nat) : Nat := nbits u 0 10 ^^^ nbits u 10 10 ^^^ (nbits u 20 5 * 2 ^ 5)
/-- The tag of a unit number. -/
def hotTag (u : Nat) : Nat := nbits u 10 15
/-- The chunk that a set and a tag name in a vault. -/
def hotChunkAddr (v set tag : Nat) : Nat :=
  let u := tag * 2 ^ 10 + (set ^^^ (tag % 2 ^ 10) ^^^ (tag / 2 ^ 10 * 2 ^ 5))
  nbits u 12 13 * 2 ^ 25 + nbits u 7 5 * 2 ^ 20 + v * 2 ^ 14 + nbits u 3 4 * 2 ^ 10 + nbits u 0 3 * 2 ^ 7
/-- The address of a slot's data (R254). -/
def hotSlotAddr (v set way : Nat) : Nat := Config.hotBase + v * 0x100000 + (set * 8 + way) * 128

/-- A directory entry. -/
def Vault.entry (v : Vault) (set way : Nat) : HotEntry := mget {} v.dir (set * 8 + way)
/-- The vault with a directory entry replaced. -/
def Vault.setEntry (v : Vault) (set way : Nat) (e : HotEntry) : Vault := { v with dir := mset {} v.dir (set * 8 + way) e }

/-- The way that holds a chunk. -/
def hotWay (s : State) (a : Nat) : Option Nat :=
  let u := chunkUnit a
  let v := s.vault (vaultOf a)
  if v.sliceOff then none
  else (List.range 8).find? fun w => (v.entry (hotSet u) w).valid && (v.entry (hotSet u) w).tag == BitVec.ofNat 15 (hotTag u)

/-- A hit or an install: the entry's AGE becomes 0 and every smaller one in the set counts up (R257); an entry that was not valid counts
as the oldest, and AGE stops at 7. -/
def Vault.touch (v : Vault) (set way old : Nat) : Vault :=
  (List.range 8).foldl (fun v w =>
    let e := v.entry set w
    if w = way then v.setEntry set w { e with age := 0 }
    else if e.valid && decide (e.age.toNat < min old 7) then v.setEntry set w { e with age := e.age + 1 } else v) v

/-- The clean bit of an entry: the majority of its three copies (R198). -/
def HotEntry.isClean (e : HotEntry) : Bool := metaMark (e.clean.setWidth 8)

/-- Whether an entry is needed (R257). -/
def hotNeeded (e : HotEntry) (step : BitVec 32) : Bool := decide ((e.need.toNat + 8 - step.toNat % 8) % 8 ≤ 3)

/-- The way for a new chunk (R257): an invalid one, else the oldest that is clean, not pinned and not needed. -/
def hotVictim (v : Vault) (set : Nat) (step : BitVec 32) : Option Nat :=
  match (List.range 8).find? fun w => !(v.entry set w).valid with
  | some w => some w
  | none =>
    let free := (List.range 8).filter fun w =>
      let e := v.entry set w
      e.isClean && !e.pin && !hotNeeded e step
    let oldest := (free.map fun w => (v.entry set w).age.toNat).foldl max 0
    free.find? fun w => (v.entry set w).age.toNat == oldest

/-! ### Uncorrectable slots and directory entries (R198) -/

/-- The table and local index of the record that holds an address. -/
def recordAt (s : State) (a : Nat) : Option (TableDesc × Nat) :=
  match s.prog with
  | none => none
  | some p => p.tables.findSome? fun d =>
      if tBase d ≤ a ∧ a < tBase d + recordRegion d then
        let o := a - tBase d
        some (d, o / 16384 * tPerChunk d + o % 16384 / tRec d)
      else none

/-- The row record of a slot that is not clean is marked in every granule in the DRAM. -/
def markRecord (s : State) (v slot : Nat) (e : HotEntry) : State :=
  match recordAt s (hotChunkAddr v (slot / 8) e.tag.toNat) with
  | none => s
  | some (d, l) => store s (recordAddr d l) (marked true (readB s (recordAddr d l) (tRec d)))

/-- An uncorrectable slot: a clean one is invalidated; one that is not clean is poisoned and its row record is written back with every
granule marked (R198). -/
def badSlot (s : State) (v slot : Nat) : State :=
  let e := (s.vault v).entry (slot / 8) (slot % 8)
  if !e.valid then s
  else if e.isClean then s.modVault v fun u => u.setEntry (slot / 8) (slot % 8) { e with valid := false, pin := false }
  else
    let g := hotSlotAddr v (slot / 8) (slot % 8) / 64
    markRecord (setMark (setMark s g) (g + 1)) v slot e

/-- An uncorrectable directory entry is invalidated; when its clean bits say that the slot was not clean, the record is marked (R198). -/
def badEntry (s : State) (v slot : Nat) : State :=
  let e := (s.vault v).entry (slot / 8) (slot % 8)
  let s := if e.valid && !e.isClean then markRecord s v slot e else s
  s.modVault v fun u => u.setEntry (slot / 8) (slot % 8) { e with valid := false, pin := false }

/-- The read of a directory word: entries 2w and 2w + 1 of a slice share it (R255); both are lost with it. -/
def fetchDirWord (s : State) (v w : Nat) : State :=
  let key := dirWords + v * 4096 + w
  let r := sramRead s key
  if r.2 then
    let t := badEntry (badEntry r.1 v (2 * w)) v (2 * w + 1)
    { t with sramErrs := mset 0 t.sramErrs key 0 }
  else r.1

/-- The read of the directory entries of a set. -/
def fetchSet (s : State) (v set : Nat) : State := (List.range 4).foldl (fun t i => fetchDirWord t v (4 * set + i)) s

/-- The read of a slot's sixteen words (R197, R198). -/
def fetchSlot (s : State) (v slot : Nat) : State :=
  (List.range 16).foldl (fun t i =>
    let r := sramRead t (hotSlotAddr v (slot / 8) (slot % 8) / 8 + i)
    if r.2 then badSlot r.1 v slot else r.1) s

/-- Count a chunk or message that is not installed. -/
def countDrop (s : State) (v : Nat) : State := s.modVault v fun u => { u with pfDrop := satAdd 32 u.pfDrop 1 }

/-- Install a chunk, or renew the entry that holds it (R257); `need` is the batch number of a prefetch, `pin` asks for a pin. -/
def installChunk (s : State) (a : Nat) (need : Option Nat) (pin : Bool) : State :=
  let v := vaultOf a
  let set := hotSet (chunkUnit a)
  let s := fetchSet s v set
  let renew := fun (e : HotEntry) =>
    { e with need := (match need with | some b => BitVec.ofNat 3 b | none => e.need), pin := e.pin || pin }
  match hotWay s a with
  | some w => s.modVault v fun u =>
      let e := u.entry set w
      (u.touch set w e.age.toNat).setEntry set w { renew e with age := 0 }
  | none =>
    if (s.vault v).sliceOff then countDrop s v
    else
      match hotVictim (s.vault v) set s.nextStep with
      | none => countDrop s v
      | some w =>
        let s := fetchRange s a 128
        let s := writeP s (hotSlotAddr v set w) (readP s a 128)
        s.modVault v fun u =>
          let old := u.entry set w
          let u := u.touch set w (if old.valid then old.age.toNat else 8)
          u.setEntry set w (renew { valid := true, tag := BitVec.ofNat 15 (hotTag (chunkUnit a)), clean := 7 })

/-- The addresses of the weight chunks of a row. -/
def rowChunks (d : TableDesc) (l : Nat) : List Nat := (List.range (tH d / 128)).map fun i => recordAddr d l + 128 * i

/-- Install the chunks of a row together; a row whose weights exceed 1 KiB is never installed (R257). -/
def installRow (s : State) (d : TableDesc) (l : Nat) (need : Option Nat) (pin : Bool) : State :=
  if 1024 < tW d then s else (rowChunks d l).foldl (fun t a => installChunk t a need pin) s

/-- Read one weight chunk: from its slot when it is present and can be read, else from the vault (R198, R248, R269). -/
def readChunk (s : State) (a : Nat) : State × List PByte :=
  let v := vaultOf a
  let set := hotSet (chunkUnit a)
  let s := fetchSet s v set
  let s := match hotWay s a with | some w => fetchSlot s v (set * 8 + w) | none => s
  match hotWay s a with
  | some w =>
    let t := s.modVault v fun u => { u.touch set w (u.entry set w).age.toNat with hit := satAdd 32 u.hit 1 }
    (t, readP t (hotSlotAddr v set w) 128)
  | none =>
    let t := fetchRange s a 128
    (t.modVault v fun u => { u with miss := satAdd 32 u.miss 1 }, readP t a 128)

/-- One serialised read of a row's weights (R248, R259): the bytes, and whether any chunk read was poisoned (R251). -/
def readRow (s : State) (d : TableDesc) (l : Nat) : State × List Byte × Bool :=
  let r := (rowChunks d l).foldl (fun (x : State × List PByte) a =>
    let c := readChunk x.1 a
    (c.1, x.2 ++ c.2)) (s, [])
  (r.1, (r.2.map (·.1)).take (tW d), r.2.any (·.2))

/-- The slots of a record's installed chunks are written; their clean bits become 0 (R258). -/
def writeSlots (s : State) (d : TableDesc) (l : Nat) (bytes : List PByte) : State :=
  (rowChunks d l).foldl (fun t a =>
    let v := vaultOf a
    let set := hotSet (chunkUnit a)
    let t := fetchSet t v set
    match hotWay t a with
    | some w =>
      (writeP t (hotSlotAddr v set w) ((bytes.drop (a - recordAddr d l)).take 128)).modVault v fun u =>
        u.setEntry set w { u.entry set w with clean := 0 }
    | none => t) s

/-- The vault controller has accepted the record: the clean bits of its slots become 1 (R258). -/
def cleanSlots (s : State) (d : TableDesc) (l : Nat) : State :=
  (rowChunks d l).foldl (fun t a =>
    match hotWay t a with
    | some w => t.modVault (vaultOf a) fun u =>
        u.setEntry (hotSet (chunkUnit a)) w { u.entry (hotSet (chunkUnit a)) w with clean := 7 }
    | none => t) s

/-- One serialised write of a whole record with its installed chunks and its presence bit (R230, R258, R263, R291). -/
def writeRecord (s : State) (d : TableDesc) (l : Nat) (bytes : List PByte) : State :=
  setPresent (cleanSlots (store (writeSlots s d l bytes) (recordAddr d l) bytes) d l) d l

/-! ### Pins (R260) -/

/-- Pinned ways of a set. -/
def pinnedIn (v : Vault) (set : Nat) : Nat := ((List.range 8).filter fun w => (v.entry set w).valid && (v.entry set w).pin).length
/-- Pinned slots of a slice. -/
def Vault.pinned (v : Vault) : Nat := (v.dir.filter fun e => e.2.valid && e.2.pin).length

/-- Clear the pins of a table on this device. -/
def clearPins (s : State) (d : TableDesc) : State :=
  (List.range 64).foldl (fun t v => t.modVault v fun u =>
    u.dir.foldl (fun u (k, e) =>
      let a := hotChunkAddr v (k / 8) e.tag.toNat
      if e.pin && decide (tBase d ≤ a) && decide (a < tBase d + recordRegion d) then u.setEntry (k / 8) (k % 8) { e with pin := false }
      else u) u) s

/-- Pin one row: it is not pinned when one of its sets would hold more than six pinned ways. -/
def pinRow (s : State) (d : TableDesc) (l : Nat) : State :=
  let chunks := rowChunks d l
  let unpinned := chunks.filter fun a =>
    match hotWay s a with
    | some w => !((s.vault (vaultOf a)).entry (hotSet (chunkUnit a)) w).pin
    | none => true
  let breaks := unpinned.any fun a =>
    let set := hotSet (chunkUnit a)
    let mine := (unpinned.filter fun b => vaultOf b == vaultOf a && hotSet (chunkUnit b) == set).length
    decide (6 < pinnedIn (s.vault (vaultOf a)) set + mine)
  if breaks then s.modVault (vaultOf (recordAddr d l)) fun u => { u with pinRej := satAdd 16 u.pinRej 1 }
  else installRow s d l none true

end Sys2Proof.Machine
end

