-- ==== Sys2Proof/Machine/Move.lean ====
section
/-!
DEFINITION. The move engine (R129 to R133, R156, R157): range checks, transfers in their queues, descriptors, and the versioned gather
(R355 to R360).
-/

namespace Sys2Proof.Machine

/-! ### Descriptors as words -/

/-- The descriptor in 64 bytes. -/
def descOf (bs : List Byte) : Desc :=
  let w := fun i => BitVec.ofNat 64 (fromBytes ((bs.drop (8 * i)).take 8))
  ⟨w 0, w 1, w 2, w 3, w 4, w 5, w 6, w 7⟩

/-- Its eight words. -/
def descWords (d : Desc) : List Word := [d.w0, d.w1, d.w2, d.w3, d.w4, d.w5, d.w6, d.w7]

/-- Whether a bit outside the named fields of a word is set: `named` lists (low bit, width). -/
def strayBits (w : Word) (named : List (Nat × Nat)) : Bool :=
  (List.range 64).any fun i => w.getLsbD i && !(named.any fun (lo, n) => decide (lo ≤ i) && decide (i < lo + n))

/-! ### Ranges (R107, R112, R130, R182, R225, R519, R520) -/

/-- The base of the accumulator banks of core c. -/
def accBaseOf (c : Nat) : Nat := Config.accBase + c * 0x200000

/-- Whether a range lies in a memory window of the program; `write` asks for one that allows move-engine writes, group windows among
them (R130, R225, R356). -/
def inWindows (s : State) (a n : Nat) (write : Bool) : Bool :=
  match s.prog with
  | none => false
  | some p =>
    (p.windows.any fun w => (!write || w.mvWrite) && decide (w.base ≤ a) && decide (a + n ≤ w.base + w.size)) ||
      p.groupWindows.any fun w => decide (w.base ≤ a) && decide (a + n ≤ w.base + w.size)

/-- Whether a range touches a table's record region (R223, R225). -/
def inRecords (s : State) (a n : Nat) : Bool :=
  match s.prog with
  | none => false
  | some p => p.tables.any fun d => rangesOverlap a n (tBase d) (recordRegion d)

/-- The fault of one range of a transfer of core c: 0 for none, 0x07 address, 0x09 move range. -/
def rangeFault (s : State) (c a n : Nat) (write : Bool) : Nat :=
  let aligned := a % 8 == 0 && n % 8 == 0
  if a < Config.dramEnd then
    if Config.dramEnd < a + n then 0x09
    else if inWindows s a n write && !(write && inRecords s a n) then 0 else 0x09
  else if a < Config.tileBase then 0x07
  else if a < Config.tileEnd then
    let off := (a - Config.tileBase) % Config.tileWindow
    if Config.tileWindow < off + n then 0x09
    else if Config.instrRegion < off + n then 0x07
    else if Config.tileData < off + n then 0x09
    else if write && !aligned then 0x09 else 0
  else if Config.hotBase ≤ a ∧ a < Config.hotEnd then
    if write then 0x07 else if Config.hotEnd < a + n then 0x09 else 0
  else if Config.accBase ≤ a ∧ a < Config.accEnd then
    if Config.accEnd < a + n ∨ !aligned ∨ a < accBaseOf c ∨ accBaseOf (c + 1) < a + n then 0x09
    else if (List.range 4).any fun i =>
        rangesOverlap a n (accBaseOf c + i * 0x80000) 0x80000 && (s.physArray c i).isNone then 0x07
    else 0
  else 0x07

/-- The 48-bit address in a scalar register (R156). -/
def addr48 (w : Word) : Nat := fld w 0 48

/-- The transfer that a COPY or SCOPY describes: rows, row length and pitches (R156). -/
def copyTransfer (k : Core) (b : BitVec 32) (m : MoveSlot) : Transfer :=
  let sc := k.sreg m.sc
  let sd := k.sreg m.sd
  let copy := m.op == 1
  { kind := if copy then .copy else .scopy, src := addr48 (k.sreg m.sa), dst := addr48 (k.sreg m.sb),
    rows := if copy then 1 else fld sc 0 16, rowLen := if copy then fld sc 0 32 else fld sc 16 32,
    srcPitch := if copy then 0 else fld sd 0 32, dstPitch := if copy then 0 else fld sd 32 32,
    desc := descOf [], te := m.te == 1, tok := m.tok, seq := k.seqNo, bundle := b, ran := false }

/-- Whether an address lies in core c's own tile store window. -/
def ownTile (c a : Nat) : Bool := decide (tileAddr c 0 ≤ a) && decide (a < tileAddr (c + 1) 0)

/-- The lowest non-zero code of a list; 0 for none. -/
def lowestCode (l : List Nat) : Nat := (l.filter (· != 0)).foldl (fun m x => if m = 0 then x else min m x) 0

/-- Whether an address lies in the tile-store region. -/
def inTiles (a : Nat) : Bool := decide (Config.tileBase ≤ a) && decide (a < Config.tileEnd)

/-- The fault of a COPY or SCOPY (R129, R130). DEDUCED (log 147): a strided range is taken row by row; one end, and one only, is
the core's own tile store. -/
def copyFault (s : State) (c : Nat) (t : Transfer) : Nat :=
  lowestCode (t.segs.flatMap fun (a, d, n) =>
    [rangeFault s c a n false, rangeFault s c d n true, if ownTile c a == ownTile c d then 0x09 else 0,
     if inTiles d && t.dstPitch % 8 != 0 then 0x09 else 0])

/-- The fault of a range at a tile store offset that a register holds, over all its bits: an offset beyond the backed store is an address
fault (R107). -/
def offsetFault (s : State) (c off n : Nat) (write : Bool) : Nat :=
  if Config.tileBacked ≤ off then 0x07 else rangeFault s c (tileAddr c off) n write

/-! ### Groups and heads (R355 to R357) -/

/-- The entry of a parameter group. -/
def groupEntry (s : State) (g : Nat) : Option Desc := match s.prog with | some p => p.groups[g]? | none => none
/-- Slots of a group: NV + 1. -/
def groupSlots (e : Desc) : Nat := fld e.w0 10 3 + 1
/-- The address of the slot of version v (R356). -/
def slotAddr (e : Desc) (v : Nat) : Nat := fld e.w1 0 48 + v % groupSlots e * fld e.w2 0 40

/-- A slot head: version, group and state (R357). -/
def headWord (v g st : Nat) : Nat := v % 2 ^ 32 + g % 2 ^ 10 * 2 ^ 32 + st * 2 ^ 42
/-- HVER of a head. -/
def headVer (h : Nat) : Nat := nbits h 0 32
/-- HGROUP of a head. -/
def headGroup (h : Nat) : Nat := nbits h 32 10
/-- HSTATE of a head. -/
def headState (h : Nat) : Nat := nbits h 42 2

/-- Write a slot head, 64 bytes (R357). -/
def writeHead (s : State) (a v g st : Nat) : State := store s a (clean (toBytes 8 (headWord v g st) ++ List.replicate 56 0))

/-- The slot check of R356 on one destination range inside a group window: data bytes need their slot writing, head bytes are refused,
state areas are accepted. -/
def slotCheck (s : State) (a n : Nat) : Bool :=
  match s.prog with
  | none => true
  | some p =>
    if p.groupWindows.any fun w => decide (w.base ≤ a) && decide (a + n ≤ w.base + w.size) then
      p.groups.all fun e => (List.range (groupSlots e)).all fun i =>
        let base := fld e.w1 0 48 + i * fld e.w2 0 40
        !rangesOverlap a n base 64 &&
          (!rangesOverlap a n base (fld e.w2 0 40) || headState (readN s base 8) == 1)
    else true

/-! ### Gather descriptors (R358) -/

/-- MODE of a gather descriptor. -/
def gatherMode (d : Desc) : Nat := fld d.w0 0 4

/-- Whether a gather descriptor breaks R18 (reserved fields, MODE, fields of GATHER only). -/
def gatherReserved (d : Desc) : Bool :=
  let g := gatherMode d == 1
  strayBits d.w0 [(0, 14), (32, 32)] || gatherMode d == 0 || decide (3 < gatherMode d) ||
    strayBits d.w1 (if g then [(0, 48)] else []) || strayBits d.w2 (if g then [(0, 40)] else []) ||
    strayBits d.w3 (if g then [(0, 32)] else []) || d.w4 != 0 || d.w5 != 0 || d.w6 != 0 || d.w7 != 0

/-- The number of shards that a GATHER reads (R359). -/
def gatherShards (s : State) (e : Desc) : Nat :=
  if e.w0.getLsbD 21 then (match s.prog with | some p => p.nD | none => 1) else 1

/-- The range faults of a gather transfer (R130, R358): slot, staging area, destination at an offset of the tile store. -/
def gatherFault (s : State) (c : Nat) (d : Desc) (dst : Nat) : Nat :=
  match groupEntry s (fld d.w0 4 10) with
  | none => 0x09
  | some e =>
    let sz := fld e.w2 0 40
    let n := gatherShards s e
    if gatherMode d = 1 then
      let stage := fld d.w1 0 48
      let len := fld d.w3 0 32
      lowestCode
        [rangeFault s c stage (n * sz) false,
         if len = 0 then 0 else offsetFault s c dst len true,
         if stage % 64 ≠ 0 ∨ len % 8 ≠ 0 ∨ n * (sz - 64) < fld d.w2 0 40 + len then 0x09 else 0]
    else if Config.dramEnd < slotAddr e (fld d.w0 32 32) + sz then 0x09 else 0

/-! ### The move slot at issue -/

/-- The tile store offset in SA of a descriptor operation. DESIGN CHOICE (log 149): the whole register. -/
def descOffset (k : Core) (m : MoveSlot) : Nat := (k.sreg m.sa).toNat

/-- The tile store offset in SB of a VGATHER: the whole register. -/
def gatherOffset (k : Core) (m : MoveSlot) : Nat := (k.sreg m.sb).toNat

/-- The 64 bytes that a descriptor operation reads at its bundle (R133). -/
def descBytes (s : State) (c : Nat) (k : Core) (m : MoveSlot) : List PByte := readP s (tileAddr c (descOffset k m)) 64

/-- The exception of the move slot: code and DETAIL, or none (R112, R130, R157, R358). DESIGN CHOICE (log 149): a reserved gather
descriptor is no field of the slot, and its DETAIL is 0. -/
def moveFault (s : State) (c : Nat) (k : Core) (m : MoveSlot) : Option (Nat × Nat) :=
  let code := fun (n : Nat) => if n = 0 then none else some (n, 0)
  match m.op.toNat with
  | 0 => none
  | 1 | 2 => code (copyFault s c (copyTransfer k 0 m))
  | op =>
    let off := descOffset k m
    if off % 64 ≠ 0 then some (0x07, 0)
    else
      let r := offsetFault s c off 64 false
      if r ≠ 0 then some (r, 0)
      else if op = 3 then
        let d := descOf ((descBytes s c k m).map (·.1))
        if gatherReserved d then some (0x02, 0)
        else if gatherMode d ≠ 1 ∧ m.sb ≠ 0 then some (0x02, 32)
        else code (gatherFault s c d (gatherOffset k m))
      else none

/-- Whether the move slot finds its queue full (R131, R135). -/
def moveQueueFull (k : Core) (m : MoveSlot) : Bool :=
  (m.op == 1 || m.op == 2 || m.op == 3) && decide (32 ≤ (k.queue m.q.toNat).length)

/-- Whether the move slot finds all 64 descriptor places taken (R133, R135). -/
def moveDescFull (k : Core) (m : MoveSlot) : Bool := decide (4 ≤ m.op.toNat) && decide (64 ≤ k.descs.length)

/-- The tile store offsets that the move slot reads at issue. -/
def moveReads (k : Core) (m : MoveSlot) : List (Nat × Nat) := if 3 ≤ m.op.toNat then [(descOffset k m, 64)] else []

/-- The ranges of its own tile store that the move slot's transfer writes (R115). -/
def moveWrites (s : State) (c : Nat) (k : Core) (m : MoveSlot) : List (Nat × Nat) :=
  if m.op = 1 ∨ m.op = 2 then
    ((copyTransfer k 0 m).segs.filter fun x => ownTile c x.2.1).map fun (_, d, n) => (d - tileAddr c 0, n)
  else if m.op = 3 then
    let d := descOf ((descBytes s c k m).map (·.1))
    if gatherMode d = 1 then [(gatherOffset k m, fld d.w3 0 32)] else []
  else []

/-- The move slot's effect: a transfer enters its queue, or a descriptor takes a place (R131, R133, R143, R157). A poisoned gather
descriptor bites and its transfer is refused. -/
def moveApply (c : Nat) (b : BitVec 32) (m : MoveSlot) (s t : State) : State :=
  let k := s.core c
  match m.op.toNat with
  | 0 => t
  | 1 | 2 => t.modCore c fun x => x.setQueue m.q.toNat (x.queue m.q.toNat ++ [copyTransfer k b m])
  | 3 =>
    let bytes := descBytes s c k m
    let d := descOf (bytes.map (·.1))
    if bytes.any (·.2) then t.bite 1 c (opidBundle c b) (tileAddr c (descOffset k m)) 1
    else
      let kind := match gatherMode d with | 1 => TransferKind.gather | 2 => .openV | _ => .publish
      let x : Transfer :=
        { kind := kind, src := fld d.w1 0 48, dst := tileAddr c (gatherOffset k m),
          rows := 1, rowLen := if gatherMode d = 1 then fld d.w3 0 32 else 0, srcPitch := 0, dstPitch := 0, desc := d,
          te := m.te == 1, tok := m.tok, seq := k.seqNo, bundle := b, ran := false }
      t.modCore c fun y => y.setQueue m.q.toNat (y.queue m.q.toNat ++ [x])
  | op =>
    let bytes := descBytes s c k m
    let eng := if op = 4 then none else some (m.imm.toNat % 8, op == 6)
    t.modCore c fun y =>
      { y with descs := y.descs ++
        [⟨descOf (bytes.map (·.1)), bytes.any (·.2), eng, k.seqNo, tileAddr c (descOffset k m), s.cycle, k.step, b⟩] }

/-! ### Transfers in their queues -/

/-- The reads of a transfer's source that errors can meet: granules, words of tile stores and slots, accumulator entries (R82, R193, R197). -/
def transferFetch (s : State) (c a n : Nat) : State :=
  if Config.accBase ≤ a ∧ a < Config.accEnd then
    (List.range (n / 8)).foldl (fun s i =>
      let o := a + 8 * i - accBaseOf c
      match s.physArray c (o / 0x80000) with
      | some ph => readEntry s ph (o % 0x80000 / 8)
      | none => s) s
  else if Config.hotBase ≤ a ∧ a < Config.hotEnd then
    (List.range ((a + n + 127) / 128 - a / 128)).foldl (fun s i =>
      let slot := (a - Config.hotBase) / 128 + i
      fetchSlot s (slot / 8192) (slot % 8192)) s
  else fetchRange s a n

/-- Bytes at an address of any region that a transfer reads: accumulator entries with their poison (R82, R520), else memory. -/
def transferRead (s : State) (c a n : Nat) : List PByte :=
  if Config.accBase ≤ a ∧ a < Config.accEnd then
    (List.range n).map fun i =>
      let o := a + i - accBaseOf c
      let l := match s.physArray c (o / 0x80000) with
        | some ph => entryLane (s.entry ph (o % 0x80000 / 8))
        | none => {}
      (BitVec.ofNat 8 (fld l.val (8 * (o % 8)) 8), l.psn)
  else readP s a n

/-- A write of a transfer: accumulator entries (R82, R128, R520), else memory. -/
def transferWrite (s : State) (c a : Nat) (bs : List PByte) : State :=
  if Config.accBase ≤ a ∧ a < Config.accEnd then
    (List.range (bs.length / 8)).foldl (fun s i =>
      let o := a + 8 * i - accBaseOf c
      let ent := (bs.drop (8 * i)).take 8
      match s.physArray c (o / 0x80000) with
      | some ph => s.setEntry ph (o % 0x80000 / 8) (fromBytes (ent.map (·.1))) (ent.any (·.2))
      | none => s) s
  else store s a bs

/-- Every transfer of a core that waits. -/
def Core.transfers (k : Core) : List Transfer := (List.range 4).flatMap k.queue

/-- Whether the accesses of two transfers meet, one of them a write (R114). -/
def transfersMeet (x y : Transfer) : Bool :=
  x.segs.any fun (a, d, n) => y.segs.any fun (a', d', n') =>
    rangesOverlap d n d' n' || rangesOverlap d n a' n' || rangesOverlap a n d' n'

/-- Whether a range of addresses meets entries of logical array i that a pass issued before `seq` is still to write (R84). -/
def entriesWait (c : Nat) (k : Core) (seq i x n : Nat) : Bool :=
  let base := accBaseOf c + i * 0x80000
  let lo := max x base
  let hi := min (x + n) (base + 0x80000)
  decide (lo < hi) && k.writtenByPass seq i ((lo - base) / 8) ((hi - lo) / 8)

/-- Whether an earlier access of its own core, or a pass that reads what it writes, holds a transfer back (R84, R101, R114, R116). -/
def transferBlocked (s : State) (c : Nat) (t : Transfer) : Bool :=
  let k := s.core c
  (k.transfers.any fun y => decide (y.seq < t.seq) && transfersMeet t y) ||
  (t.segs.any fun (a, d, n) =>
    k.heldMeets t.seq a n || k.heldMeets t.seq d n ||
    (match tileCore d n with
      | some e => (s.core e).readByPass (if e = c then t.seq else (s.core e).seqNo) (d - tileAddr e 0) n
      | none => false) ||
    [a, d].any fun x => (List.range 4).any fun i => entriesWait c k t.seq i x n)

/-- Move the rows of a copy, each with its marks (R132); rows of one strided copy that overlap are written in row order. -/
def copyRows (s : State) (c : Nat) (segs : List (Nat × Nat × Nat)) : State :=
  let s := segs.foldl (fun s (a, _, n) => transferFetch s c a n) s
  segs.foldl (fun t (a, d, n) => transferWrite t c d (transferRead s c a n)) s

/-- The front of a queue leaves it; its token is added (R131, R157). -/
def popTransfer (s : State) (c q : Nat) (t : Transfer) : State :=
  let s := s.modCore c fun k => k.setQueue q ((k.queue q).drop 1)
  if t.te then s.addToken c t.tok.toNat 1 else s

/-- The front of a queue fails: it leaves without its token. -/
def failTransfer (s : State) (c q : Nat) : State := s.modCore c fun k => k.setQueue q ((k.queue q).drop 1)

/-- The slot heads that the slot check of a transfer reads (R356). -/
def fetchHeads (s : State) (t : Transfer) : State :=
  match s.prog with
  | none => s
  | some p =>
    (p.groups.flatMap fun e => (List.range (groupSlots e)).map fun i => (fld e.w1 0 48 + i * fld e.w2 0 40, fld e.w2 0 40)).foldl
      (fun s (base, n) => if t.segs.any fun (_, d, m) => rangesOverlap d m base n then fetchRange s base 64 else s) s

/-- TRANSFER_COMPLETE (R131): the front transfer of queue q takes effect and completes, in order. A copy whose slot check fails at its
start is refused with a move-range fault, at the core's next bundle (R356). -/
def transferComplete (c q : Nat) (s : State) : State :=
  match (s.core c).queue q with
  | [] => s
  | t :: _ =>
    match t.kind with
    | .copy | .scopy =>
      if transferBlocked s c t then s
      else
        let s := fetchHeads s t
        if !(t.segs.all fun (_, d, n) => slotCheck s d n) then
          let k := s.core c
          (failTransfer s c q).haltCore c 0x09 5 0 k.pc k.pc
        else (popTransfer (copyRows s c t.segs) c q t).drain c
    | _ => if t.ran then popTransfer s c q t else s

/-- The record of a versioned gather that fails (R360). DESIGN CHOICE (log 136): ADDR holds the head found, DETAIL the version, COUNT the
group in its low bits and the shard from bit 16 on. -/
def versionFault (s : State) (c q : Nat) (t : Transfer) (code head shard : Nat) : State :=
  (failTransfer s c q).emit
    { code := code, uclass := 1, uinst := c, addr := head, opid := opidBundle c t.bundle, detail := fld t.desc.w0 32 32,
      count := fld t.desc.w0 4 10 + shard * 2 ^ 16 }

/-- Mark the front transfer of a queue as done but for its completion. -/
def ranTransfer (s : State) (c q : Nat) : State :=
  s.modCore c fun k => k.setQueue q (match k.queue q with | t :: r => { t with ran := true } :: r | [] => [])

/-- OPEN (R359): the slot's head becomes {v, writing}, when it is empty or holds version v − (NV + 1). -/
def openVersion (c q : Nat) (s : State) : State :=
  match (s.core c).queue q with
  | t :: _ =>
    if t.kind = .openV ∧ t.ran = false then
      let g := fld t.desc.w0 4 10
      let v := fld t.desc.w0 32 32
      match groupEntry s g with
      | none => s
      | some e =>
        let a := slotAddr e v
        let s := fetchRange s a 64
        let h := readN s a 8
        if poisonedIn s a 8 then versionFault s c q t 0x65 h 0
        else if headState h = 0 ∨ headVer h + groupSlots e = v then ranTransfer (writeHead s a v g 1) c q
        else versionFault s c q t 0x62 h 0
    else s
  | [] => s

/-- PUBLISH (R359): the head {v, writing} becomes {v, live}. -/
def publishVersion (c q : Nat) (s : State) : State :=
  match (s.core c).queue q with
  | t :: _ =>
    if t.kind = .publish ∧ t.ran = false then
      let g := fld t.desc.w0 4 10
      let v := fld t.desc.w0 32 32
      match groupEntry s g with
      | none => s
      | some e =>
        let a := slotAddr e v
        let s := fetchRange s a 64
        let h := readN s a 8
        if poisonedIn s a 8 then versionFault s c q t 0x65 h 0
        else if headState h = 1 ∧ headVer h = v ∧ headGroup h = g then ranTransfer (writeHead s a v g 2) c q
        else versionFault s c q t 0x62 h 0
    else s
  | [] => s

/-- The fault that a shard's head shows for a GATHER of version v (R360). -/
def headFault (s : State) (a g v : Nat) : Option Nat :=
  let h := readN s a 8
  if poisonedIn s a 8 then some 0x65
  else if headGroup h ≠ g then some 0x62
  else if v < headVer h then some 0x63
  else if headVer h < v ∨ headState h ≠ 2 then some 0x64
  else none

/-- The address of byte i of the gathered data: bytes 64 to S − 1 of the shards in order (R359). -/
def gatherByte (stage sz i : Nat) : Nat := stage + i / (sz - 64) * sz + 64 + i % (sz - 64)

/-- GATHER (R359, R360): every head is checked before any data moves; then the bytes are copied to the tile store. -/
def gatherRun (c q : Nat) (s : State) : State :=
  match (s.core c).queue q with
  | t :: _ =>
    if t.kind = .gather ∧ t.ran = false ∧ transferBlocked s c t = false then
      let d := t.desc
      let g := fld d.w0 4 10
      let v := fld d.w0 32 32
      match groupEntry s g with
      | none => s
      | some e =>
        let sz := fld e.w2 0 40
        let stage := fld d.w1 0 48
        let n := gatherShards s e
        let heads := (List.range n).map fun i => stage + i * sz
        let s := heads.foldl (fun s a => fetchRange s a 64) s
        match heads.zipIdx.findSome? fun (a, i) => (headFault s a g v).map fun f => (a, i, f) with
        | some (a, i, f) => versionFault s c q t f (readN s a 8) i
        | none =>
          let first := fld d.w2 0 40
          let s := (List.range t.rowLen).foldl (fun s i => fetchRange s (gatherByte stage sz (first + i)) 1) s
          let bytes := (List.range t.rowLen).flatMap fun i => readP s (gatherByte stage sz (first + i)) 1
          (ranTransfer (store s t.dst bytes) c q).drain c
    else s
  | [] => s

end Sys2Proof.Machine
end

