-- ==== Sys2Proof/Machine/Sync.lean ====
section
/-!
DEFINITION. Synchronisation (R158 to R166, R170): fields of the sync slot, the timers of R164 and R392, signals, barriers and their
packets, work counters and the rendezvous of TESTWIN.
-/

namespace Sys2Proof.Machine

/-! ### Fields of the sync slot (R159) -/

/-- TOKEN of WAIT, SIGNAL and TSET. -/
def syncToken (x : SyncSlot) : Nat := fld x.body 22 6
/-- CONSUME of WAIT. -/
def syncConsume (x : SyncSlot) : Bool := x.body.getLsbD 21
/-- SRC of WAIT. -/
def syncSrc (x : SyncSlot) : Bool := x.body.getLsbD 20
/-- The scalar register of WAIT with SRC = 1. -/
def syncReg (x : SyncSlot) : BitVec 5 := x.body.extractLsb' 0 5
/-- The target core of SIGNAL. -/
def syncTarget (x : SyncSlot) : Nat := fld x.body 17 5
/-- The increment of SIGNAL. -/
def syncInc (x : SyncSlot) : BitVec 16 := x.body.extractLsb' 0 16
/-- The group of BAR, or the counter of CLAIM and WSET. -/
def syncGrp (x : SyncSlot) : Nat := fld x.body 24 4
/-- The register of CLAIM and WSET. -/
def syncSreg (x : SyncSlot) : BitVec 5 := x.body.extractLsb' 19 5
/-- The 20-bit value of WAIT and TSET. -/
def syncVal (x : SyncSlot) : Nat := fld x.body 0 20

/-- The threshold of a WAIT (R159, R160). -/
def waitThreshold (k : Core) (x : SyncSlot) : Nat := if syncSrc x then (k.sreg (syncReg x)).toNat else syncVal x

/-- Whether a WAIT's condition holds (R160). -/
def waitHolds (k : Core) (x : SyncSlot) : Bool := decide (waitThreshold k x ≤ (k.token (syncToken x)).toNat)

/-! ### Timers (R164, R392) -/

/-- Whether the timer of core c has reached its terminal cycle; a WAIT_TMO of 0 disables it (R176). -/
def timerOut (s : State) (c : Nat) : Bool :=
  let k := s.core c
  match k.waitStart with
  | some h => k.waitTmo != 0 && decide (h + cyclesOfUs k.waitTmo.toNat ≤ s.cycle)
  | none => false

/-! ### Barriers (R163, R164, R346) -/

/-- The members of a barrier group: (rank, core). -/
def barMembers (s : State) (g : Nat) : List (Nat × CoreId) :=
  match s.prog with | some p => nth p.barriers g [] | none => []
/-- The barrier of a group. -/
def State.barrier (s : State) (g : Nat) : Barrier := mget {} s.barriers g
/-- The state with a barrier changed. -/
def State.modBarrier (s : State) (g : Nat) (f : Barrier → Barrier) : State := { s with barriers := mmod {} s.barriers g f }
/-- This device's members of a group. -/
def localMembers (s : State) (g : Nat) : List Nat :=
  ((barMembers s g).filter fun m => m.1 == s.rank).map fun m => m.2.val
/-- The devices of a group, each once. -/
def barRanks (s : State) (g : Nat) : List Nat := ((barMembers s g).map (·.1)).eraseDups
/-- The root of a group: its lowest-ranked device (R346). -/
def barRoot (s : State) (g : Nat) : Nat := (barRanks s g).foldl min ((barRanks s g).headD 0)

/-- Release the current generation on this device: it counts up, and releases that meet a timed-out core are counted late (R164). -/
def releaseLocal (s : State) (g : Nat) : State :=
  let gen := (s.barrier g).gen
  let key := (BitVec.ofNat 4 g, gen)
  let late := (localMembers s g).filter fun c => (s.core c).barLate.contains key
  let s := late.foldl (fun s c => s.modCore c fun k => { k with barLate := k.barLate.filter (· != key) }) s
  { s.modBarrier g (fun b => { gen := b.gen + 1, arrived := [], ranks := [] }) with late := satAdd 32 s.late late.length }

/-- At the releasing device: release when every device of the group has arrived, and tell the others (R163). -/
def releaseIfComplete (s : State) (g : Nat) : State :=
  let b := s.barrier g
  if (barRanks s g).all fun r => b.ranks.contains r then
    let others := (barRanks s g).filter (· != s.rank)
    releaseLocal (shipAll s (others.map fun r => OutMsg.barRelease r (BitVec.ofNat 4 g) b.gen)) g
  else s

/-- Arrival of core c at the current generation of a group; an arrival from outside the group counts for nothing. -/
def barArrive (s : State) (c g : Nat) : State :=
  if !(localMembers s g).contains c then s
  else
    let s := s.modBarrier g fun b => if b.arrived.contains c then b else { b with arrived := b.arrived ++ [c] }
    let b := s.barrier g
    if (localMembers s g).all fun m => b.arrived.contains m then
      if barRoot s g = s.rank then
        releaseIfComplete (s.modBarrier g fun b =>
          { b with ranks := if b.ranks.contains s.rank then b.ranks else b.ranks ++ [s.rank] }) g
      else ship s (.barArrive (barRoot s g) (BitVec.ofNat 4 g) b.gen)
    else s

/-- BARRIER_ARRIVAL_PACKET (R163, R346): a device of the group has arrived at a generation. -/
def arrivalPacket (g : Nat) (gen : BitVec 32) (rank : Nat) (s : State) : State :=
  let b := s.barrier g
  if barRoot s g = s.rank ∧ b.gen = gen ∧ (barRanks s g).contains rank = true ∧ b.ranks.contains rank = false then
    releaseIfComplete (s.modBarrier g fun b => { b with ranks := b.ranks ++ [rank] }) g
  else s

/-- BARRIER_RELEASE_PACKET (R163, R164): the release of the current generation; any other generation is discarded. -/
def releasePacketBar (g : Nat) (gen : BitVec 32) (s : State) : State :=
  if (s.barrier g).gen = gen ∧ (barRanks s g).contains s.rank = true ∧ barRoot s g ≠ s.rank then releaseLocal s g else s

/-- Whether the writes of a core's bundles before `seq` are done: no write is held, no transfer waits (R161). -/
def writesDone (k : Core) (seq : Nat) : Bool :=
  (k.heldWrites.all fun w => decide (seq ≤ w.seq)) && k.transfers.all fun t => decide (seq ≤ t.seq)

/-- The first look of a BAR's bundle (R163): once every earlier write is done, the core's arrival at the current generation. -/
def barFirst (s : State) (c g : Nat) : State :=
  let k := s.core c
  if k.barWait.isSome || !writesDone k k.seqNo then s
  else
    let gen := (s.barrier g).gen
    barArrive (s.modCore c fun k => { k with barWait := some (BitVec.ofNat 4 g, gen) }) c g

/-- Whether a BAR's condition holds: the generation at which the core arrived has been released. -/
def barHolds (s : State) (c g : Nat) : Bool :=
  match (s.core c).barWait with
  | some (_, gen) => gen != (s.barrier g).gen
  | none => false

/-! ### Signals and increments (R160 to R162) -/

/-- TOKEN_INCREMENT of a signal (R161): the oldest signal of a core leaves once every earlier write of the core is done. -/
def signalLeave (src : Nat) (s : State) : State :=
  let k := s.core src
  match k.signals with
  | [] => s
  | g :: r =>
    if writesDone k g.seq then (s.modCore src fun k => { k with signals := r }).addToken g.dst g.tok.toNat g.inc.toNat
    else s

/-! ### Timeouts (R164, R174, R393) -/

/-- WAIT_TIMEOUT: the timer of a WAIT that still does not hold expires. -/
def waitTimeout (c : Nat) (s : State) : State :=
  let k := s.core c
  match k.heldAt with
  | some b =>
    if b.sync.op = 1 ∧ k.st = .holding ∧ timerOut s c = true ∧ waitHolds k b.sync = false then
      s.haltCore c 0x0B 6 (syncToken b.sync) k.pc k.pc
    else s
  | none => s

/-- BARRIER_TIMEOUT: the timer of a BAR that is not released expires, its arrival sent or not; an arrival sent stands, and a later release
is late. -/
def barrierTimeout (c : Nat) (s : State) : State :=
  let k := s.core c
  match k.heldAt with
  | some b =>
    let g := syncGrp b.sync
    if b.sync.op = 3 ∧ k.st = .holding ∧ timerOut s c = true ∧ barHolds s c g = false then
      (s.modCore c fun k => { k with barLate := k.barLate ++ k.barWait.toList }).haltCore c 0x0C 6 g k.pc k.pc
    else s
  | none => s

/-- RENDEZVOUS_TIMEOUT: the partner of a TESTWIN has not come (R164, R170, R573). -/
def rendezvousTimeout (c : Nat) (s : State) : State :=
  let k := s.core c
  if k.twHere = true ∧ k.st = .holding ∧ timerOut s c = true then s.haltCore c 0x0B 2 0xFF k.pc k.pc else s

end Sys2Proof.Machine
end

