-- ==== Sys2Proof/Machine/Flags.lean ====
section
/-!
DEFINITION. The conditions that the block computes: the mask bits of ICMP and FCMP (R153). The block has no condition flags beside the
mask registers; status bits of registers stand with their registers.
-/

namespace Sys2Proof.Machine

/-- Condition IMM[2:0] on two ordered facts: 0 equal, 1 not equal, 2 less, 3 less or equal, 4 greater, 5 greater or equal (R153). -/
def condHolds (cond : Nat) (eq lt gt : Bool) : Bool :=
  match cond with
  | 0 => eq
  | 1 => !eq
  | 2 => lt
  | 3 => lt || eq
  | 4 => gt
  | 5 => gt || eq
  | _ => false

/-- The condition on integers. -/
def intCond (cond : Nat) (a b : Int) : Bool := condHolds cond (a == b) (decide (a < b)) (decide (b < a))

/-- The condition on numbers: with a NaN it is true only for not equal (R153). -/
def numCond (cond : Nat) (a b : XNum) : Bool := condHolds cond (a.eq b) (a.lt b) (b.lt a)

end Sys2Proof.Machine
end

