-- ==== Sys2Proof/Machine/Vector.lean ====
section
/-!
DEFINITION. The vector engine (R117 to R128, R151 to R155): what each operation of the vector slot produces from the state before its
bundle, and how the product is kept.
-/

namespace Sys2Proof.Machine

/-- What a vector operation produces: register lanes, mask bits, tile store writes, accumulator writes, numerics events, the lane values
a norm tag adds, the poisoned lanes it keeps, a side accumulator to clear, and its latency. -/
structure VecOut where
  vdst : Option (BitVec 5 × List Lane) := none
  mdst : Option (Nat × BitVec 256) := none
  stores : List (Nat × List PByte) := []
  accs : List (Nat × Nat × Nat × Bool) := []
  sat : Nat := 0
  nf : Nat := 0
  tagged : List (Nat × XNum × Bool) := []
  kept : List Nat := []
  clearSa : Option Nat := none
  latency : Nat := 0

/-! ### Register operations -/

/-- An operation of the integer group on raw bits of width w (R120, R153). -/
def intOp (op w : Nat) (a b : Nat) : Nat :=
  match op with
  | 0x01 => (a + b) % 2 ^ w
  | 0x02 => (a + 2 ^ w - b % 2 ^ w) % 2 ^ w
  | 0x04 => if signed w a ≤ signed w b then a % 2 ^ w else b % 2 ^ w
  | 0x05 => if signed w b ≤ signed w a then a % 2 ^ w else b % 2 ^ w
  | 0x06 => a % 2 ^ w &&& b % 2 ^ w
  | 0x07 => a % 2 ^ w ||| b % 2 ^ w
  | _ => a % 2 ^ w ^^^ b % 2 ^ w

/-- SHL and SHR by a constant; SHR is arithmetic (R153). -/
def shiftOp (right : Bool) (w n a : Nat) : Nat :=
  if right then unsigned w (signed w a / (2 ^ n : Nat)) else a * 2 ^ n % 2 ^ w

/-- An operation of the floating group, exact before its one rounding (R121). -/
def floatOp (op : Nat) (a b d : XNum) : XNum :=
  match op with
  | 0x10 => a.add b
  | 0x11 => a.sub b
  | 0x12 => a.mul b
  | 0x13 => (a.mul b).add d
  | 0x14 => XNum.min a b
  | 0x15 => XNum.max a b
  | 0x17 => a.abs
  | _ => a.neg

/-- A function of FP32 before its rounding by RNE, with the results R121 names. -/
def functionOp (op : Nat) (a : XNum) : XNum :=
  match op with
  | 0x1C => if a.isZero then .inf a.sign else XNum.div (fun s => fFP32.big s) (XNum.ofInt 1 0) a
  | 0x1D => a.rsqrt
  | 0x1E => a.sqrt
  | 0x1F => a.exp2
  | _ => a.log2

/-- The scale X_t that a CVT names (R153). -/
def cvtScale (imm : Nat) : Int := signed 16 (nbits imm 5 16)

/-- A lane-wise operation: result lanes from a function of the lane number that gives bits, events and poison. -/
def laneWise (k : Core) (x : VectorSlot) (fmt : Nat) (scale : Int) (latency : Nat) (f : Nat → Conv × Bool) : VecOut :=
  let m := k.mreg x.mask.toNat
  let res := (List.range 256).map f
  let on := (List.range 256).filter fun i => m.getLsbD i
  let at' := fun i => nth res i (⟨0, 0, 0⟩, false)
  { vdst := some (x.a, maskLanes m (k.vreg x.a) (res.map fun r => laneOf r.1.bits r.2))
    sat := (on.map fun i => (at' i).1.sat).sum
    nf := (on.map fun i => (at' i).1.nf).sum
    tagged := on.map fun i => (i, decodeElem fmt scale (at' i).1.bits, (at' i).2)
    latency := latency }

/-- A comparison into mask register A[2:0]: it keeps the poisoned lanes that it uses (R127, R153). -/
def compareWise (k : Core) (x : VectorSlot) (latency : Nat) (f : Nat → Bool × Bool) : VecOut :=
  let m := k.mreg x.mask.toNat
  let dst := x.a.toNat % 8
  let old := k.mreg dst
  let bit := fun i => if m.getLsbD i then (f i).1 else old.getLsbD i
  { mdst := some (dst, BitVec.ofNat 256 ((List.range 256).foldl (fun acc i => if bit i then acc + 2 ^ i else acc) 0))
    kept := (List.range 256).filter fun i => m.getLsbD i && (f i).2
    latency := latency }

/-- The integer group (codes 0x01 to 0x0B). -/
def vecInt (k : Core) (x : VectorSlot) : VecOut :=
  let op := x.op.toNat
  let fmt := x.fmt.toNat
  let w := intWidth fmt
  let va := k.vreg x.b
  let vb := k.vreg x.c
  let imm := x.imm.toNat
  let la := laneAt va
  let lb := laneAt vb
  match op with
  | 0x03 => compareWise k x 2 fun i =>
      (intCond (imm % 8) (signed w (la i).val.toNat) (signed w (lb i).val.toNat), (la i).psn || (lb i).psn)
  | 0x09 => laneWise k x fmt 0 2 fun i => (⟨shiftOp false w (imm % 64) (la i).val.toNat, 0, 0⟩, (la i).psn)
  | 0x0A => laneWise k x fmt 0 2 fun i => (⟨shiftOp true w (imm % 64) (la i).val.toNat, 0, 0⟩, (la i).psn)
  | 0x0B =>
    let sel := k.mreg (x.d.toNat % 8)
    laneWise k x fmt 0 2 fun i =>
      let l := if sel.getLsbD i then la i else lb i
      (⟨l.val.toNat % 2 ^ w, 0, 0⟩, l.psn)
  | _ => laneWise k x fmt 0 2 fun i =>
      (⟨intOp op w (la i).val.toNat (lb i).val.toNat, 0, 0⟩, (la i).psn || (lb i).psn)

/-- The floating group (codes 0x10 to 0x18). -/
def vecFloat (k : Core) (x : VectorSlot) : VecOut :=
  let op := x.op.toNat
  let fmt := x.fmt.toNat
  let mode := rndOf x.rnd.toNat
  let lat := if fmt = 7 then 5 else 4
  let la := laneAt (k.vreg x.b)
  let lb := laneAt (k.vreg x.c)
  let ld := laneAt (k.vreg x.d)
  let two := !(op == 0x17 || op == 0x18)
  let psn := fun i => (la i).psn || (two && (lb i).psn) || (op == 0x13 && (ld i).psn)
  if op = 0x16 then
    compareWise k x lat fun i => (numCond (x.imm.toNat % 8) (laneNum fmt (la i)) (laneNum fmt (lb i)), psn i)
  else
    laneWise k x fmt 0 lat fun i =>
      (encodeElem fmt 0 mode 0 (floatOp op (laneNum fmt (la i)) (laneNum fmt (lb i)) (laneNum fmt (ld i))), psn i)

/-- The functions (codes 0x1C to 0x20), rounded by RNE (R121). -/
def vecFunction (k : Core) (x : VectorSlot) : VecOut :=
  let la := laneAt (k.vreg x.b)
  laneWise k x 0 0 12 fun i => (encodeElem 0 0 .rne 0 (functionOp x.op.toNat (laneNum 0 (la i))), (la i).psn)

/-- CVT between lane formats; X_t scales the end that is L64 (R153). -/
def vecCvt (k : Core) (x : VectorSlot) : VecOut :=
  let src := x.fmt.toNat
  let dst := x.imm.toNat % 32
  let sc := cvtScale x.imm.toNat
  let la := laneAt (k.vreg x.b)
  laneWise k x dst sc 3 fun i =>
    (encodeElem dst sc (rndOf x.rnd.toNat) 0 (decodeElem src sc (la i).val.toNat), (la i).psn)

/-! ### Tile store operations -/

/-- The offset `B` + 8 × IMM[15:0] of a memory operation (R153, R154). -/
def vecOffset (k : Core) (x : VectorSlot) : Nat := fld (k.sreg x.b) 0 23 + 8 * (x.imm.toNat % 2 ^ 16)

/-- The identity of the draws of a narrowing store or pack (R65, R122, R154). -/
def vecDraw (s : State) (k : Core) (x : VectorSlot) : DrawId :=
  ⟨s.seed, if x.cls = 2 then 1 else 4, k.step.toNat, fld (k.sreg x.c) 32 32, 0⟩

/-- The rounding of a write with a class: stochastic for gradient class (R57, R122). -/
def classMode (x : VectorSlot) : Rnd := if x.cls = 2 then .sr else rndOf x.rnd.toNat

/-- VLD: 256 elements widened to the lane format (R153). -/
def vecLoad (s : State) (c : Nat) (k : Core) (x : VectorSlot) : VecOut :=
  let fmt := x.fmt.toNat
  let lane := x.imm.toNat / 2 ^ 16
  let eb := elemBytes fmt
  let a := tileAddr c (vecOffset k x)
  laneWise k x lane 0 8 fun i =>
    (encodeElem lane 0 (rndOf x.rnd.toNat) 0 (decodeElem fmt 0 (readN s (a + i * eb) eb)), poisonedIn s (a + i * eb) eb)

/-- The bytes, events and tagged values of 256 numbers stored in a one-element format (R122). -/
def storeElems (s : State) (c : Nat) (k : Core) (x : VectorSlot) (src : Nat → XNum × Bool) : VecOut :=
  let fmt := x.fmt.toNat
  let d := vecDraw s k x
  let mode := classMode x
  let base := (k.sreg x.d).toNat
  let conv := (List.range 256).map fun i =>
    (encodeElem fmt 0 mode (if mode = .sr then drawElem d (base + i) else 0) (src i).1, (src i).2)
  { stores := [(tileAddr c (vecOffset k x), conv.flatMap fun r => marked r.2 (toBytes (elemBytes fmt) r.1.bits))]
    sat := (conv.map fun r => r.1.sat).sum
    nf := (conv.map fun r => r.1.nf).sum
    tagged := conv.zipIdx.map fun (r, i) => (i, decodeElem fmt 0 r.1.bits, r.2)
    kept := (conv.zipIdx.filter fun (r, _) => r.2).map (·.2) }

/-- VST: 256 lanes narrowed to the tile store (R122, R153). -/
def vecStore (s : State) (c : Nat) (k : Core) (x : VectorSlot) : VecOut :=
  let lane := x.imm.toNat / 2 ^ 16
  let la := laneAt (k.vreg x.a)
  storeElems s c k x fun i => (laneNum lane (la i), (la i).psn)

/-- The two offsets of a pack or unpack (R153). -/
def packOffsets (k : Core) (x : VectorSlot) : Nat × Nat := (fld (k.sreg x.b) 0 23, fld (k.sreg x.b) 23 23)

/-- PACK and PACKX: eight blocks of 32 lanes into the two planes (R39, R42, R43, R49, R123). -/
def vecPack (s : State) (c : Nat) (k : Core) (x : VectorSlot) : VecOut :=
  let fmt := x.fmt.toNat
  let w := blockWidth fmt
  let lane := if x.imm.getLsbD 15 then 7 else 0
  let d := vecDraw s k x
  let mode := classMode x
  let base := (k.sreg x.d).toNat
  let la := laneAt (k.vreg x.a)
  let takes := x.op == 0x2D
  let xr := laneAt (k.vreg (BitVec.ofNat 5 (x.imm.toNat / 2 ^ 16)))
  let blocks := (List.range 8).map fun b =>
    let els := (List.range 32).map fun i => laneNum lane (la (32 * b + i))
    let taken := if takes then some (fld (xr (32 * b)).val 0 8) else none
    let draw := fun i => if mode = .sr then drawElem d (base + 32 * b + i) else 0
    let p := ((List.range 32).any fun i => (la (32 * b + i)).psn) || (takes && (xr (32 * b)).psn)
    (toBlock fmt taken mode draw els, p)
  let off := packOffsets k x
  { stores :=
      [(tileAddr c off.1, blocks.flatMap fun r => marked r.2 (toBytes (4 * w) (packElems w r.1.elems))),
       (tileAddr c off.2, blocks.flatMap fun r => marked r.2 [BitVec.ofNat 8 r.1.x])]
    sat := (blocks.map fun r => r.1.sat).sum
    nf := (blocks.map fun r => r.1.nf).sum
    tagged := (List.range 256).map fun i =>
      let r := nth blocks (i / 32) (⟨0, [], 0, 0⟩, false)
      (i, blockElem fmt r.1.x (nth r.1.elems (i % 32) 0), r.2)
    kept := (List.range 256).filter fun i => (nth blocks (i / 32) (⟨0, [], 0, 0⟩, false)).2 }

/-- UNPACK: eight blocks into 256 lanes (R55, R123). -/
def vecUnpack (s : State) (c : Nat) (k : Core) (x : VectorSlot) : VecOut :=
  let fmt := x.fmt.toNat
  let w := blockWidth fmt
  let lane := if x.imm.getLsbD 15 then 7 else 0
  let off := packOffsets k x
  let sig := tileAddr c off.1
  let ex := tileAddr c off.2
  laneWise k x lane 0 6 fun i =>
    let b := i / 32
    let e := fromBytes (readB s (ex + b) 1)
    let bits := packedElem (readB s (sig + 4 * w * b) (4 * w)) w (i % 32)
    let lo := sig + 4 * w * b + w * (i % 32) / 8
    let hi := sig + 4 * w * b + (w * (i % 32) + w - 1) / 8
    (encodeElem lane 0 .rne 0 (blockElem fmt e bits), poisonedIn s lo 1 || poisonedIn s hi 1 || poisonedIn s (ex + b) 1)

/-! ### Reductions (R124) -/

/-- One level of the tree: neighbours combined, first of each pair kept (R124). -/
def pairUp (f : XNum → XNum → XNum) : List XNum → List XNum
  | a :: b :: r => f a b :: pairUp f r
  | l => l

/-- m levels of the tree. -/
def treeReduce (f : XNum → XNum → XNum) : Nat → List XNum → List XNum
  | 0, l => l
  | m + 1, l => treeReduce f m (pairUp f l)

/-- A sum in Z56, rounded once (R46). -/
def addZ56 (a b : XNum) : XNum := rZ56 (a.add b)

/-- The largest or smallest of two numbers of which either may be left out. -/
def pick (f : XNum → XNum → XNum) : Option XNum → Option XNum → Option XNum
  | none, y => y
  | x, none => x
  | some a, some b => some (f a b)

/-- RSUM, RSSQ, RMAX and RMIN over groups of 2^m lanes (R124). -/
def vecReduce (k : Core) (x : VectorSlot) : VecOut :=
  let m := x.imm.toNat % 16
  let g := 2 ^ m
  let mask := k.mreg x.mask.toNat
  let la := laneAt (k.vreg x.b)
  let num := fun i => laneNum 7 (la i)
  let value := fun (j : Nat) =>
    let idx := (List.range g).map (g * j + ·)
    match x.op.toNat with
    | 0x30 => (treeReduce addZ56 m (idx.map fun i => if mask.getLsbD i then num i else XNum.zero)).headD .zero
    | 0x31 => (treeReduce addZ56 m (idx.map fun i => if mask.getLsbD i then rZ56 ((num i).mul (num i)) else XNum.zero)).headD .zero
    | 0x32 => (idx.foldl (fun acc i => if mask.getLsbD i then pick XNum.max acc (some (num i)) else acc) none).getD .zero
    | _ => (idx.foldl (fun acc i => if mask.getLsbD i then pick XNum.min acc (some (num i)) else acc) none).getD .zero
  let groups := (List.range (256 / g)).map fun j =>
    laneOf (toZ56 (value j)) ((List.range g).any fun i => mask.getLsbD (g * j + i) && (la (g * j + i)).psn)
  let res := lanes256 fun i => if i % g = 0 then nth groups (i / g) {} else {}
  { vdst := some (x.a, res)
    tagged := ((List.range 256).filter fun i => mask.getLsbD i).map fun i =>
      (i, laneNum 7 (laneAt res i), (laneAt res i).psn)
    latency := 3 + m }

/-! ### Permutations (R153) -/

/-- BCAST, ROT, ILV and DILV: the source lane of each destination lane. -/
def permSource (op imm i : Nat) (b c : List Lane) : Lane :=
  match op with
  | 0x34 => laneAt b (imm % 256)
  | 0x35 => laneAt b ((i + imm % 256) % 256)
  | 0x36 => if i % 2 = 0 then laneAt b (i / 2) else laneAt c (i / 2)
  | _ => if i < 128 then laneAt b (2 * i + imm % 2) else laneAt c (2 * (i - 128) + imm % 2)

/-- The permutations move 64-bit lanes with their poison. -/
def vecPerm (k : Core) (x : VectorSlot) : VecOut :=
  let m := k.mreg x.mask.toNat
  let b := k.vreg x.b
  let c := k.vreg x.c
  { vdst := some (x.a, maskLanes m (k.vreg x.a) (lanes256 fun i => permSource x.op.toNat x.imm.toNat i b c))
    latency := 2 }

/-! ### Accumulator access (R128) -/

/-- The logical array and entry that scalar register C names (R154). -/
def accTarget (k : Core) (x : VectorSlot) : Nat × Nat := (fld (k.sreg x.c) 16 2, fld (k.sreg x.c) 0 16)

/-- ARD: 256 entries into lanes. -/
def vecArd (s : State) (c : Nat) (k : Core) (x : VectorSlot) : VecOut :=
  let t := accTarget k x
  match s.physArray c t.1 with
  | none => {}
  | some ph =>
    laneWise k x 7 0 6 fun i =>
      let l := entryLane (s.entry ph (t.2 + i))
      (⟨l.val.toNat, 0, 0⟩, l.psn)

/-- AWR: lanes into 256 entries. -/
def vecAwr (s : State) (c : Nat) (k : Core) (x : VectorSlot) : VecOut :=
  let t := accTarget k x
  match s.physArray c t.1 with
  | none => {}
  | some ph =>
    let m := k.mreg x.mask.toNat
    let la := laneAt (k.vreg x.a)
    let on := (List.range 256).filter fun i => m.getLsbD i
    { accs := on.map fun i => (ph, t.2 + i, (la i).val.toNat, (la i).psn)
      tagged := on.map fun i => (i, laneNum 7 (la i), (la i).psn)
      kept := on.filter fun i => (la i).psn }

/-- ADRN: 256 entries narrowed into the tile store. -/
def vecAdrn (s : State) (c : Nat) (k : Core) (x : VectorSlot) : VecOut :=
  let t := accTarget k x
  match s.physArray c t.1 with
  | none => {}
  | some ph =>
    storeElems s c k x fun i =>
      let l := entryLane (s.entry ph (t.2 + i))
      (laneNum 7 l, l.psn)

/-- The record of a side accumulator (R126). -/
def saRecord (sa : SideAcc) : List Byte := toBytes 8 sa.ssq.toNat ++ toBytes 8 sa.amax.toNat ++ toBytes 4 sa.nf.toNat ++ toBytes 12 0

/-- SARD: the record of a side accumulator into the tile store, with its clear option (R126, R153). -/
def vecSard (c : Nat) (k : Core) (x : VectorSlot) : VecOut :=
  let n := x.a.toNat % 16
  let sa := mget {} k.side n
  { stores := [(tileAddr c (vecOffset k x), marked sa.psn (saRecord sa))]
    clearSa := if x.a.getLsbD 4 then some n else none }

/-- What the vector slot produces from the state before its bundle. -/
def vecOut (s : State) (c : Nat) (k : Core) (x : VectorSlot) : VecOut :=
  match x.op.toNat with
  | 0x00 => {}
  | 0x24 => vecCvt k x
  | 0x28 => vecLoad s c k x
  | 0x29 => vecStore s c k x
  | 0x2C | 0x2D => vecPack s c k x
  | 0x2E => vecUnpack s c k x
  | 0x30 | 0x31 | 0x32 | 0x33 => vecReduce k x
  | 0x34 | 0x35 | 0x36 | 0x37 => vecPerm k x
  | 0x38 => vecArd s c k x
  | 0x39 => vecAwr s c k x
  | 0x3A => vecAdrn s c k x
  | 0x3C => vecSard c k x
  | 0x1C | 0x1D | 0x1E | 0x1F | 0x20 => vecFunction k x
  | 0x10 | 0x11 | 0x12 | 0x13 | 0x14 | 0x15 | 0x16 | 0x17 | 0x18 => vecFloat k x
  | _ => vecInt k x

/-! ### Checks at issue -/

/-- The tile store spans of a memory operation: offsets and lengths (R154). -/
def vecSpans (k : Core) (x : VectorSlot) : List (Nat × Nat) :=
  let fmt := x.fmt.toNat
  match x.op.toNat with
  | 0x28 | 0x29 | 0x3A => [(vecOffset k x, 256 * elemBytes fmt)]
  | 0x3C => [(vecOffset k x, 32)]
  | 0x2C | 0x2D | 0x2E => [((packOffsets k x).1, 32 * blockWidth fmt), ((packOffsets k x).2, 8)]
  | _ => []

/-- Whether the vector slot writes the tile store. -/
def vecWrites (x : VectorSlot) : Bool := [0x29, 0x2C, 0x2D, 0x3A, 0x3C].contains x.op.toNat

/-- Whether the vector slot names accumulator entries. -/
def vecAcc (x : VectorSlot) : Bool := [0x38, 0x39, 0x3A].contains x.op.toNat

/-- The address fault of a vector slot (R154, R520). -/
def vecFault (s : State) (c : Nat) (k : Core) (x : VectorSlot) : Bool :=
  ((vecSpans k x).any fun (off, n) => off % 8 != 0 || decide (Config.tileData < off + n)) ||
    (vecAcc x && (s.physArray c (accTarget k x).1).isNone)

/-- The reads of the vector slot that errors can meet (R82, R197): its spans in the tile store and the entries it reads. -/
def vecFetch (c : Nat) (x : VectorSlot) (s : State) : State :=
  let k := s.core c
  let s := if vecWrites x then s else (vecSpans k x).foldl (fun s (off, n) => fetchRange s (tileAddr c off) n) s
  if x.op = 0x38 ∨ x.op = 0x3A then
    match s.physArray c (accTarget k x).1 with
    | some ph => readEntries s ph (accTarget k x).2 256
    | none => s
  else s

/-! ### Keeping the product -/

/-- A side-accumulator update from tagged lanes (R125, R126). -/
def sideUpdate (sa : SideAcc) (tagged : List (Nat × XNum × Bool)) : SideAcc :=
  let square := fun i => match tagged.find? fun t => t.1 == i with
    | some (_, v, _) => if v.finite then rZ56 (v.mul v) else XNum.zero
    | none => XNum.zero
  let sum := (treeReduce addZ56 8 ((List.range 256).map square)).headD .zero
  let amax := tagged.foldl (fun m (_, v, _) => if v.finite then XNum.max m v.abs else m) (ofZ56 sa.amax.toNat)
  let nf := (tagged.filter fun (_, v, _) => !v.finite).length
  { ssq := BitVec.ofNat 64 (toZ56 (addZ56 (ofZ56 sa.ssq.toNat) sum))
    amax := BitVec.ofNat 64 (toZ56 amax)
    nf := satAdd 32 sa.nf nf
    psn := sa.psn || tagged.any fun (_, _, p) => p }

/-- What a vector operation leaves in its core: the register or mask with its latency, the side accumulator, the events. -/
def keepCore (now : Nat) (x : VectorSlot) (o : VecOut) (k : Core) : Core :=
  let k := match o.vdst with
    | some (r, l) => { k.setVreg r l with vReady := mset 0 k.vReady r.toNat (now + o.latency) }
    | none => k
  let k := match o.mdst with
    | some (r, m) => { k.setMreg r m with mReady := mset 0 k.mReady r (now + o.latency) }
    | none => k
  let k := if x.ntag.getLsbD 4 then
      { k with side := mset {} k.side (x.ntag.toNat % 16) (sideUpdate (mget {} k.side (x.ntag.toNat % 16)) o.tagged) }
    else k
  let k := match o.clearSa with
    | some n => { k with side := mset {} k.side n {} }
    | none => k
  { k with numCnt := k.numCnt.count now o.sat o.nf }

/-- The lanes whose poison a vector operation consumes: those kept in memory, masks or entries, else those its norm tag adds (R127). -/
def bittenLanes (x : VectorSlot) (o : VecOut) : List Nat :=
  if o.kept ≠ [] then o.kept
  else if x.ntag.getLsbD 4 then (o.tagged.filter fun t => t.2.2).map (·.1) else []

/-- The bite record of the lanes consumed (R127, R202). -/
def keepBite (c : Nat) (b : BitVec 32) (x : VectorSlot) (o : VecOut) (t : State) : State :=
  match bittenLanes x o with
  | [] => t
  | l :: r => t.bite 4 c (opidBundle c b) l (r.length + 1)

/-- Keep what a vector operation produced: registers, side accumulator, entries, tile store, events, and its bite (R82, R127). -/
def vecKeep (c : Nat) (b : BitVec 32) (x : VectorSlot) (o : VecOut) (t : State) : State :=
  let seq := (t.core c).seqNo
  let t := t.modCore c (keepCore t.cycle x o)
  let t := o.accs.foldl (fun t e => t.setEntry e.1 e.2.1 e.2.2.1 e.2.2.2) t
  let t := o.stores.foldl (fun t e => tileWrite t c seq e.1 e.2) t
  keepBite c b x o t

/-- The vector slot's effect: read before the bundle in `s`, written into `t`. -/
def vecApply (c : Nat) (b : BitVec 32) (x : VectorSlot) (s t : State) : State :=
  if x.op = 0 then t else vecKeep c b x (vecOut s c (s.core c) x) t

end Sys2Proof.Machine
end

