-- ==== Sys2Proof/Machine/Issue.lean ====
section
/-!
DEFINITION. The issue of a bundle (R134 to R139, R143 to R148, R158 to R177): its exceptions, its holds, its effects on the state before
it, and taking an exception. Every operation of a bundle goes through this one pipeline.
-/

namespace Sys2Proof.Machine

/-! ### Fetch (R112, R134, R136, R537) -/

/-- The bundle image of core c in the loaded program. -/
def imageOf (s : State) (c : Nat) : Option CoreImage :=
  match s.prog with | some p => p.images.find? fun i => i.core.val == c | none => none

/-- The image length in bundles. -/
def imageLen (s : State) (c : Nat) : Nat := match imageOf s c with | some i => i.bundles.length | none => 0

/-- INSTRUCTION_STREAM_FILL (R112, R537): the next bundle of the image goes from device memory into the ring; a bundle that has not
issued is never overwritten. -/
def streamFill (c : Nat) (s : State) : State :=
  match imageOf s c with
  | none => s
  | some im =>
    let k := s.core c
    let b := k.fill.toNat
    if im.bundles.length ≤ b ∨ k.pc.toNat + Config.ringBundles ≤ b then s
    else
      let s := fetchRange s (im.base + 32 * b) 32
      let bytes := readP s (im.base + 32 * b) 32
      let t := writeP s (bundleAddr c k.fill) bytes
      t.modCore c fun k =>
        { k with
          fill := BitVec.ofNat 32 (b + 1)
          ringLo := BitVec.ofNat 32 (max k.ringLo.toNat (b + 1 - Config.ringBundles)) }

/-- INSTRUCTION_FETCH (R134, R136): the next bundle below SEQ_FILL enters the fetch buffer of 16; it comes bad when its granule is
poisoned or the read was uncorrectable. -/
def fetchBundle (c : Nat) (uncorrectable : Bool) (s : State) : State :=
  let k := s.core c
  let n := k.pc.toNat + k.fetched.length
  if 16 ≤ k.fetched.length ∨ k.fill.toNat ≤ n ∨ n < k.ringLo.toNat then s
  else
    let a := bundleAddr c (BitVec.ofNat 32 n)
    let s := fetchRange s a 32
    let bits := BitVec.ofNat 256 (readN s a 32)
    let bad := uncorrectable || poisonedIn s a 32
    let s := if uncorrectable then
        setMark (s.emit { code := 0x15, uclass := 5, uinst := c * 16 + nbits a 7 4, addr := a - a % 64 }) (a / 64)
      else s
    s.modCore c fun k => { k with fetched := k.fetched ++ [⟨n, bits, bad⟩] }

/-! ### What a bundle reads -/

/-- Scalar registers that a bundle reads. -/
def scalarReads (b : Bundle) : List (BitVec 5) :=
  let x := b.scalar
  let sb := x.imm.extractLsb' 20 5
  let sc := match x.op.toNat with
    | 0x01 | 0x07 | 0x08 | 0x0A | 0x0C | 0x11 | 0x12 | 0x14 => [x.sa]
    | 0x02 | 0x03 | 0x04 | 0x05 | 0x06 | 0x0B | 0x0E | 0x0F => [x.sa, sb]
    | 0x0D => [x.sa, x.sd]
    | 0x13 => [x.sd]
    | _ => []
  let mx := if b.matrix.op = 1 then (if b.matrix.keep = 1 then [b.matrix.sa, b.matrix.sacc] else
    [b.matrix.sa, b.matrix.sw, b.matrix.sacc]) else []
  let vc := match b.vector.op.toNat with
    | 0x28 | 0x2E | 0x3C => [b.vector.b]
    | 0x29 | 0x2C | 0x2D | 0x3A => [b.vector.b, b.vector.c, b.vector.d]
    | 0x38 | 0x39 => [b.vector.c]
    | _ => []
  let mv := match b.move.op.toNat with
    | 1 => [b.move.sa, b.move.sb, b.move.sc]
    | 2 => [b.move.sa, b.move.sb, b.move.sc, b.move.sd]
    | 3 => [b.move.sa, b.move.sb]
    | 0 => []
    | _ => [b.move.sa]
  let sy := if b.sync.op = 1 ∧ syncSrc b.sync then [syncReg b.sync] else if b.sync.op = 6 then [syncSreg b.sync] else []
  sc ++ mx ++ vc ++ mv ++ sy

/-- Vector registers that a bundle reads. -/
def vectorReads (x : VectorSlot) : List (BitVec 5) :=
  match x.op.toNat with
  | 0x00 | 0x28 | 0x2E | 0x38 | 0x3A | 0x3C => []
  | 0x01 | 0x02 | 0x03 | 0x04 | 0x05 | 0x06 | 0x07 | 0x08 | 0x0B | 0x10 | 0x11 | 0x12 | 0x14 | 0x15 | 0x16 | 0x36 | 0x37 => [x.b, x.c]
  | 0x13 => [x.b, x.c, x.d]
  | 0x29 | 0x2C | 0x39 => [x.a]
  | 0x2D => [x.a, BitVec.ofNat 5 (x.imm.toNat / 2 ^ 16)]
  | _ => [x.b]

/-- Mask registers that a bundle reads. -/
def maskReads (x : VectorSlot) : List Nat :=
  if x.op = 0 then [] else x.mask.toNat :: (if x.op = 0x0B then [x.d.toNat % 8] else [])

/-- The offset of an SLD or SST (R146). -/
def sldOffset (k : Core) (x : ScalarSlot) : Nat := (k.sreg x.sa + x.imm.signExtend 64).toNat

/-- Tile store offsets that a bundle reads at issue. -/
def tileReads (k : Core) (b : Bundle) : List (Nat × Nat) :=
  (if b.scalar.op = 0x0C then [(sldOffset k b.scalar, 8)] else []) ++
    (if vecWrites b.vector then [] else vecSpans k b.vector) ++ moveReads k b.move

/-- Tile store offsets that a bundle writes at issue. -/
def tileWrites (k : Core) (b : Bundle) : List (List (Nat × Nat)) :=
  [if b.scalar.op = 0x0D then [(sldOffset k b.scalar, 8)] else [],
   if vecWrites b.vector then vecSpans k b.vector else []]

/-! ### Exceptions (R173, R174, R573) -/

/-- Whether the scalar slot branches (R146, R147). -/
def isBranch (x : ScalarSlot) : Bool := x.op == 0x10 || x.op == 0x11 || x.op == 0x12 || x.op == 0x13

/-- Causes that no register value decides, as code, SLOT and DETAIL. -/
def staticCauses (k : Core) (len : Nat) (b : Bundle) (bad : Bool) : List (Nat × Nat × Nat) :=
  if bad then [(0x01, 0, 0)]
  else
    (match reservedEncoding b with | some (sl, d) => [(0x02, sl, d)] | none => []) ++
      (if vmarkBad b then [(0x03, 1, 0)] else []) ++
      (if k.vrefuse && b.hdr.v then [(0x04, 1, 0)] else []) ++
      (if isBranch b.scalar && decide (len ≤ b.scalar.imm.toNat) then [(0x05, 2, 0)] else []) ++
      (if !(scalarDests b).Nodup then [(0x06, 0, 0)] else [])

/-- Whether some range of a list meets a later one. -/
def rangesMeet : List (Nat × Nat) → Bool
  | [] => false
  | (a, n) :: r => (r.any fun (b, m) => rangesOverlap a n b m) || rangesMeet r

/-- Whether two writes of a bundle to its own tile store overlap (R115): those of different slots, or the two planes of a pack. The rows of
a strided copy are one write. -/
def writesConflict (s : State) (c : Nat) (k : Core) (b : Bundle) : Bool :=
  let writes := (tileWrites k b).flatten
  rangesMeet writes || (moveWrites s c k b.move).any fun (a, n) => writes.any fun (b, m) => rangesOverlap a n b m

/-- Causes that register values decide, and the breakpoint. -/
def dynamicCauses (s : State) (c : Nat) (k : Core) (b : Bundle) : List (Nat × Nat × Nat) :=
  let off := sldOffset k b.scalar
  (if writesConflict s c k b then [(0x06, 0, 0)] else []) ++
    (if (b.scalar.op == 0x0C || b.scalar.op == 0x0D) && (off % 8 != 0 || decide (Config.tileData < off + 8)) then [(0x07, 2, 0)]
      else []) ++
    (if vecFault s c k b.vector then [(0x07, 4, 0)] else []) ++
    (match moveFault s c k b.move with | some (code, d) => [(code, 5, d)] | none => []) ++
    (if b.matrix.op = 1 then match passCondition s c k b.matrix with | some n => [(0x08, 3, n)] | none => [] else []) ++
    (if b.hdr.brk && k.brkEn && !k.brkSkip then [(0x0F, 1, 0)] else [])

/-- The cause that is recorded: the lowest code, then the lowest SLOT (R174, R573). -/
def lowestCause : List (Nat × Nat × Nat) → Option (Nat × Nat × Nat)
  | [] => none
  | x :: xs =>
    match lowestCause xs with
    | none => some x
    | some y => if y.1 < x.1 ∨ (y.1 = x.1 ∧ y.2.1 < x.2.1) then some y else some x

/-! ### Holds (R135, R138, R139) -/

/-- Whether a scalar operand is not ready (R148). -/
def scalarsNotReady (k : Core) (now : Nat) (b : Bundle) : Bool :=
  (scalarReads b).any fun r => decide (now < mget 0 k.sReady r.toNat)

/-- Whether a vector or mask operand is not ready (R120). -/
def vectorsNotReady (k : Core) (now : Nat) (x : VectorSlot) : Bool :=
  ((vectorReads x).any fun r => decide (now < mget 0 k.vReady r.toNat)) ||
    (maskReads x).any fun r => decide (now < mget 0 k.mReady r)

/-- Whether an accumulator access of the vector slot waits (R84, R101, R128): for a pass issued earlier, or for a transfer issued earlier that
writes the entries, or that reads them when the slot writes. -/
def entriesNotReady (c : Nat) (k : Core) (x : VectorSlot) : Bool :=
  let (a, n) := accTarget k x
  let meets := fun (y m : Nat) => [(n, min 256 (65536 - n)), (0, n + 256 - 65536)].any fun (e, len) =>
    rangesOverlap (accBaseOf c + a * 0x80000 + 8 * e) (8 * len) y m
  vecAcc x && (k.writtenByPass k.seqNo a n 256 ||
    k.transfers.any fun t => t.segs.any fun (y, z, m) => meets z m || (x.op == 0x39 && meets y m))

/-- Whether a descriptor of core c that a unit has accepted still runs: lookups, gradients, row jobs, exchange operations, ledger
operations and checkpoints. -/
def descsRun (s : State) (c : Nat) : Bool :=
  let mine := fun (w : WaitingDesc) => w.core == c
  let tok := fun (t : Option LedgerTok) => match t with | some x => x.core == c | none => false
  (s.lookups.any fun l => l.core == c && !l.outDone) || s.lookupQueue.any mine || s.waitingGrads.any mine ||
    (s.rowJobs.any fun j => j.core == c) || (s.xops.any fun o => o.core == c) ||
    (s.banks.any fun b => tok b.2.sealTok || b.2.applies.any fun x => x.core == c) || (s.commitWait.any fun w => w.tok.core == c) ||
    s.mirror.waitingSnaps.any mine || match s.mirror.ckpt with | some k => (match k.ctok with | some t => t.1 == c | none => false) | none => false

/-- Whether every operation that core c issued earlier has completed: passes, transfers, descriptors, held writes, signals and results
(R148, R170). -/
def allDone (s : State) (c : Nat) : Bool :=
  let k := s.core c
  let now := s.cycle
  k.passesDone && k.transfers.isEmpty && k.descs.isEmpty && k.heldWrites.isEmpty && k.signals.isEmpty && !descsRun s c &&
    (k.sReady.all fun e => decide (e.2 ≤ now)) && (k.vReady.all fun e => decide (e.2 ≤ now)) &&
    k.mReady.all fun e => decide (e.2 ≤ now)

/-- The Campion partner of core c (R170). -/
def partner (c : Nat) : Nat := (c + 16) % 32

/-- Whether the sync condition of a bundle fails to hold. -/
def syncWaits (s : State) (c : Nat) (k : Core) (b : Bundle) : Bool :=
  if b.sync.op = 1 then !waitHolds k b.sync else if b.sync.op = 3 then !barHolds s c (syncGrp b.sync) else false

/-- Whether END or TESTWIN waits for earlier operations, or TESTWIN for its partner (R148, R170). -/
def endWaits (s : State) (c : Nat) (b : Bundle) : Bool :=
  (b.scalar.op == 0x19 && !allDone s c) || (b.scalar.op == 0x17 && (!allDone s c || !(s.core (partner c)).twHere))

/-- The hold bits of a bundle that raises no exception (R138, R139): every reason that applies in this cycle. -/
def bundleHolds (s : State) (c : Nat) (k : Core) (b : Bundle) : Holds :=
  { fetch := decide (s.cycle < k.earliest)
    sync := syncWaits s c k b || endWaits s c b
    desc := moveDescFull k b.move
    move := moveQueueFull k b.move
    vec := scalarsNotReady k s.cycle b || vectorsNotReady k s.cycle b.vector
    mat := b.matrix.op == 1 && passHolds k b.matrix }

/-- Whether any hold bit is set. -/
def Holds.any (h : Holds) : Bool := h.fetch || h.sync || h.desc || h.move || h.vec || h.mat

/-- The hold bits of a core as a read of SEQ_STAT finds them (R139): those of the bundle it holds at, in the cycle of the read. -/
def State.holds (s : State) (c : Nat) : Holds :=
  let k := s.core c
  if k.st = .holding then
    match k.heldAt with
    | some b => bundleHolds s c k b
    | none => { fetch := k.fetched.isEmpty }
  else {}

/-- Whether an access of the bundle to the tile store or to accumulator entries must wait for an earlier one of its core (R84, R114). SEQ_STAT
has no hold bit for it. -/
def orderWaits (c : Nat) (k : Core) (b : Bundle) : Bool :=
  let reads := tileReads k b
  let writes := (tileWrites k b).flatten
  entriesNotReady c k b.vector || (reads ++ writes).any (fun (off, n) => transferWrites k c k.seqNo [(off, n)] || k.heldMeets k.seqNo (tileAddr c off) n) ||
    writes.any fun (off, n) => k.transfers.any fun t => t.segs.any fun (a, _, m) => rangesOverlap (tileAddr c off) n a m

/-! ### Effects -/

/-- The value that a scalar operation gives its SD, when it writes one (R146). -/
def scalarResult (s : State) (c : Nat) (k : Core) (x : ScalarSlot) : Option Word :=
  let a := k.sreg x.sa
  let b := k.sreg (x.imm.extractLsb' 20 5)
  match x.op.toNat with
  | 0x01 => some (a + x.imm.signExtend 64)
  | 0x02 => some (a + b)
  | 0x03 => some (a - b)
  | 0x04 => some (a &&& b)
  | 0x05 => some (a ||| b)
  | 0x06 => some (a ^^^ b)
  | 0x07 => some (a <<< (x.imm.toNat % 64))
  | 0x08 => some (a >>> (x.imm.toNat % 64))
  | 0x09 => some (x.imm.zeroExtend 64)
  | 0x0A => some ((a <<< 25) ||| x.imm.zeroExtend 64)
  | 0x0B => some (a * b)
  | 0x0C => some (BitVec.ofNat 64 (readN s (tileAddr c (sldOffset k x)) 8))
  | 0x0E => some (if a.slt b then 1 else 0)
  | 0x0F => some (if a = b then 1 else 0)
  | 0x13 => some (k.sreg x.sd - 1)
  | _ => none

/-- The branch target of a scalar operation, when it is taken (R146, R147). -/
def branchTarget (k : Core) (x : ScalarSlot) : Option (BitVec 32) :=
  let t := x.imm.zeroExtend 32
  match x.op.toNat with
  | 0x10 => some t
  | 0x11 => if k.sreg x.sa = 0 then some t else none
  | 0x12 => if k.sreg x.sa = 0 then none else some t
  | 0x13 => if k.sreg x.sd - 1 = 0 then none else some t
  | _ => none

/-- The scalar slot's effect but for branches, TRAP, END and TESTWIN: read in `s`, written into `t`. -/
def scalarApply (c : Nat) (b : BitVec 32) (x : ScalarSlot) (s t : State) : State :=
  let k := s.core c
  let t := match scalarResult s c k x with
    | some v => t.modCore c fun y => y.setSreg x.sd v
    | none => t
  match x.op.toNat with
  | 0x0C =>
    let a := tileAddr c (sldOffset k x)
    let t := t.modCore c fun y =>
      if x.sd = 0 then y else { y with sReady := mset 0 y.sReady x.sd.toNat (s.cycle + 8) }
    if poisonedIn s a 8 then t.bite 1 c (opidBundle c b) a 1 else t
  | 0x0D => tileWrite t c k.seqNo (tileAddr c (sldOffset k x)) (clean (toBytes 8 (k.sreg x.sd).toNat))
  | 0x14 => t.modCore c fun y => { y with step := (k.sreg x.sa).truncate 32 }
  | 0x15 => t.modCore c fun y => { y with step := y.step + 1 }
  | 0x16 => t.modCore c fun y => { y with phase := x.imm.truncate 8 }
  | _ => t

/-- The sync slot's effect (R159 to R165): read in `s`, written into `t`. -/
def syncApply (c : Nat) (x : SyncSlot) (s t : State) : State :=
  let k := s.core c
  match x.op.toNat with
  | 1 => if syncConsume x then
      t.modCore c fun y => y.setToken (syncToken x) (BitVec.ofNat 32 ((k.token (syncToken x)).toNat - waitThreshold k x))
    else t
  | 2 => t.modCore c fun y =>
      { y with signals := y.signals ++ [⟨k.seqNo, syncTarget x, BitVec.ofNat 6 (syncToken x), syncInc x⟩] }
  | 3 => t.modCore c fun y => { y with barWait := none }.ramp c s.cycle
  | 4 => t.modCore c fun y => y.setToken (syncToken x) (BitVec.ofNat 32 (syncVal x + k.incsNow s.cycle (syncToken x)))
  | 5 =>
    let v : BitVec 32 := mget 0 s.workCtrs (syncGrp x)
    let t := t.modCore c fun y => y.setSreg (syncSreg x) (v.zeroExtend 64)
    if v = 0xFFFFFFFF then t else { t with workCtrs := mset 0 t.workCtrs (syncGrp x) (v + 1) }
  | 6 => { t with workCtrs := mset 0 t.workCtrs (syncGrp x) ((k.sreg (syncSreg x)).truncate 32) }
  | _ => t

/-- After the slots: the issue number, PC, the fetch buffer, and the stream of a branch that leaves the ring (R112, R147). -/
def advance (c : Nat) (next : Option (BitVec 32)) (t : State) : State :=
  let now := t.cycle
  t.modCore c fun k =>
    let k := { k with seqNo := k.seqNo + 1, st := .running, issuedAt := some now, heldAt := none, waitStart := none, brkSkip := false }
    match next with
    | none => { k with pc := k.pc + 1, fetched := k.fetched.drop 1 }
    | some b =>
      if k.ringLo ≤ b ∧ b < k.fill then { k with pc := b, fetched := [], earliest := now + 4 }
      else { k with pc := b, fetched := [], fill := b, ringLo := b }

/-- The reads of a bundle that errors can meet, as it issues (R197). -/
def bundleFetch (c : Nat) (b : Bundle) (s : State) : State :=
  let k := s.core c
  let s := ((if b.scalar.op = 0x0C then [(sldOffset k b.scalar, 8)] else []) ++ moveReads k b.move).foldl
    (fun s (off, n) => fetchRange s (tileAddr c off) n) s
  vecFetch c b.vector s

/-- Every slot of a bundle takes effect (R115, R135, R143). TRAP halts after its bundle; END makes the core idle (R148, R173). -/
def bundleEffect (c : Nat) (b : Bundle) (s : State) : State :=
  let k := s.core c
  let pc := k.pc
  let t := scalarApply c pc b.scalar s s
  let t := passApply c pc b.matrix s t
  let t := moveApply c pc b.move s t
  let t := vecApply c pc b.vector s t
  let t := syncApply c b.sync s t
  let t := advance c (branchTarget k b.scalar) t
  if b.scalar.op = 0x18 then t.haltCore c 0x0E 2 (fld b.scalar.imm 0 8) pc (pc + 1)
  else if b.scalar.op = 0x19 then t.modCore c fun k => if k.st = .running then { k with st := .idle } else k
  else t

/-! ### Test windows (R170, R171) -/

/-- A core begins a test window (R171, R437). -/
def beginWindow (s : State) (c : Nat) : State :=
  s.modCore c fun k => { k with preWindow := k.st, st := .window, winStart := some s.cycle, winStep := k.step }

/-- Both partners pass their TESTWIN: the bundle issues, and the window runs when the pair is due (R170). -/
def meetPartners (s : State) (c : Nat) : State :=
  let pass := fun (s : State) (d : Nat) =>
    (advance d none s).modCore d fun k => { k with twHere := false, twCount := k.twCount + 1 }
  let t := pass (pass s c) (partner c)
  if (t.pair (c % 16)).due then
    let t := beginWindow (beginWindow t c) (partner c)
    let t := t.modPair (c % 16) fun p => { p with due := false, start := t.cycle, overdueSent := false }
    [c, partner c].foldl (fun t d => t.modCore d fun k => { k with winForced := false }) t
  else t

/-- TESTWIN (R170): it holds until the core's earlier operations are done, then for its partner; unequal counts halt both. -/
def testwinIssue (c : Nat) (b : Bundle) (s : State) : State :=
  let k := s.core c
  let here := allDone s c && decide (k.earliest ≤ s.cycle)
  let s := s.modCore c fun k =>
    { k with st := .holding, heldAt := some b, twHere := here, waitStart := if here then some (k.waitStart.getD s.cycle) else none }
  let q := s.core (partner c)
  if here && q.twHere then
    if q.twCount = k.twCount then meetPartners s c
    else
      let s := s.haltCore c 0x0D 2 0 k.pc k.pc
      s.haltCore (partner c) 0x0D 2 0 q.pc q.pc
  else s

/-! ### The pipeline -/

/-- Whether core c looks at a bundle now: the device lives, no stop is in force, the core runs or holds, and it has issued no bundle in this
array cycle (R135). -/
def canLook (s : State) (c : Nat) : Bool :=
  let k := s.core c
  s.live && !s.stopped && (k.st == .running || k.st == .holding) && k.issuedAt != some s.cycle

/-- Take an exception at the bundle at PC (R173, R177). -/
def takeException (c : Nat) (x : Nat × Nat × Nat) (s : State) : State :=
  let k := s.core c
  s.haltCore c x.1 x.2.1 x.2.2 k.pc k.pc

/-- The bundle holds: STATE, and the timer of a condition that does not hold (R138, R164). -/
def holdBundle (c : Nat) (b : Bundle) (s : State) : State :=
  let timed := syncWaits s c (s.core c) b
  s.modCore c fun k =>
    { k with st := .holding, heldAt := some b, waitStart := if timed then some (k.waitStart.getD s.cycle) else none }

/-- A bundle that raises no exception issues, or holds (R135). -/
def issueOrHold (c : Nat) (b : Bundle) (s : State) : State :=
  if b.scalar.op = 0x17 then testwinIssue c b s
  else
    let s := if b.sync.op = 3 then barFirst s c (syncGrp b.sync) else s
    let k := s.core c
    if orderWaits c k b || (bundleHolds s c k b).any then holdBundle c b s
    else bundleEffect c b (bundleFetch c b s)

/-- The causes of an exception that apply to bundle b in this cycle (R174): those of its encoding, and those that register values decide
once its scalar operands are ready (R148). -/
def bundleCauses (s : State) (c : Nat) (b : Bundle) (bad : Bool) : List (Nat × Nat × Nat) :=
  let k := s.core c
  staticCauses k (imageLen s c) b bad ++ (if scalarsNotReady k s.cycle b then [] else dynamicCauses s c k b)

/-- The issue of bundle `b` on core c (R135, R144, R173, R174): the lowest cause halts the core; else the bundle holds or has its effects.
A gather descriptor is read before it is checked. -/
def issueBundle (c : Nat) (b : Bundle) (bad : Bool) (s : State) : State :=
  if !canLook s c then s
  else
    let s := if bad = false ∧ b.move.op = 3 then fetchRange s (tileAddr c (descOffset (s.core c) b.move)) 64 else s
    match lowestCause (bundleCauses s c b bad) with
    | some x => takeException c x s
    | none => issueOrHold c b s

/-! ### Checks of the units of a core (R436) -/

/-- A control-parity error of core c (R436): its record, and the class 0 stop of the job. -/
def parityStop (s : State) (uclass uinst addr : Nat) (opid : Word) : State :=
  (s.emit { code := 0x1D, uclass := uclass, uinst := uinst, addr := addr, opid := opid }).haltJob

/-- The outputs of the vector slot written poisoned after a mismatch that recurs (R436): the lane of a register or of the entries, and
the bytes stored. -/
def poisonOutputs (c : Nat) (lane : Nat) (x : VectorSlot) (s t : State) : State :=
  let o := vecOut s c (s.core c) x
  let t := match o.vdst with
    | some (r, l) => t.modCore c fun k =>
        k.setVreg r (l.zipIdx.map fun (e, i) => if i = lane then { e with psn := true } else e)
    | none => t
  let t := o.accs.zipIdx.foldl (fun t ((ph, n, z, p), i) => t.setEntry ph n z (p || i == lane)) t
  o.stores.foldl (fun t (a, bs) => tileWrite t c (s.core c).seqNo a (bs.map fun b => (b.1, true))) t

/-- Whether the bundle at PC has issued between two states. -/
def hasIssued (c : Nat) (s t : State) : Bool := (s.core c).seqNo != (t.core c).seqNo

/-- What a check of the vector engine found while a bundle issued (R436). -/
def checkedIssue (c : Nat) (b : Bundle) (fault : UnitFault) (s t : State) : State :=
  let k := s.core c
  let op := opidBundle c k.pc
  if b.vector.op = 0 ∨ hasIssued c s t = false then t
  else
    match fault with
    | .transient lane => t.emit { code := 0x11, uclass := 4, uinst := c, addr := lane.toNat, opid := op }
    | .recurs lane =>
      let t := poisonOutputs c lane.toNat b.vector s t
      classify (t.emit { code := 0x11, uclass := 4, uinst := c, addr := lane.toNat, opid := op }) 4 c lane.toNat 0x11
    | _ => t

/-- BUNDLE_ISSUE: the bundle at the head of the fetch buffer, or a hold for fetch (R135, R139); a control-parity error stops the core
and the job (R436). -/
def bundleIssue (c : Nat) (fault : UnitFault) (s : State) : State :=
  if !canLook s c then s
  else if fault = .parity then
    let k := s.core c
    (parityStop s 1 c (bundleAddr c k.pc) (opidBundle c k.pc)).modCore c fun k => { k with st := .idle, heldAt := none, waitStart := none }
  else
    match (s.core c).fetched with
    | [] => s.modCore c fun k => { k with st := .holding, heldAt := none, waitStart := none }
    | f :: _ => checkedIssue c (decodeBundle f.bits) fault s (issueBundle c (decodeBundle f.bits) f.bad s)

end Sys2Proof.Machine
end

