-- ==== Sys2Proof/Machine/Exec.lean ====
section
/-!
DEFINITION. The meanings of the bundle operations: each command is the issue, on its core, of the bundle whose only operation it is
(R135, R140), through the one pipeline of Issue.lean.
-/

namespace Sys2Proof.Machine

/-- The outcome of every meaning of this block: a next state. -/
abbrev Result := Host.Outcome State Fault Refusal

/-- INSTRUCTION_STREAM_FILL (R112, R537). -/
def execInstructionStreamFill (c : CoreId) (s : State) : Result := .next (if s.live then streamFill c s else s)
/-- INSTRUCTION_FETCH (R134, R136). -/
def execInstructionFetch (c : CoreId) (uncorrectable : Bool) (s : State) : Result :=
  .next (if s.live then fetchBundle c uncorrectable s else s)
/-- BUNDLE_ISSUE (R135, R436). -/
def execBundleIssue (c : CoreId) (fault : UnitFault) (s : State) : Result := .next (bundleIssue c fault s)

/-! ### Scalar and control slot (R146) -/

/-- NOP (R142, R146): the bundle whose slots are all no-operations. -/
def execNop (c : CoreId) (s : State) : Result := .next (issueBundle c (scalarBundle nopScalar) false s)
/-- ADD (R146). -/
def execAdd (c : CoreId) (sd sa sb : BitVec 5) (s : State) : Result :=
  .next (issueBundle c (scalarBundle ⟨0x02, sd, sa, sb ++ (0 : BitVec 20)⟩) false s)
/-- SUB (R146). -/
def execSub (c : CoreId) (sd sa sb : BitVec 5) (s : State) : Result :=
  .next (issueBundle c (scalarBundle ⟨0x03, sd, sa, sb ++ (0 : BitVec 20)⟩) false s)
/-- AND (R146). -/
def execAnd (c : CoreId) (sd sa sb : BitVec 5) (s : State) : Result :=
  .next (issueBundle c (scalarBundle ⟨0x04, sd, sa, sb ++ (0 : BitVec 20)⟩) false s)
/-- OR (R146). -/
def execOr (c : CoreId) (sd sa sb : BitVec 5) (s : State) : Result :=
  .next (issueBundle c (scalarBundle ⟨0x05, sd, sa, sb ++ (0 : BitVec 20)⟩) false s)
/-- XOR (R146). -/
def execXor (c : CoreId) (sd sa sb : BitVec 5) (s : State) : Result :=
  .next (issueBundle c (scalarBundle ⟨0x06, sd, sa, sb ++ (0 : BitVec 20)⟩) false s)
/-- MUL (R146). -/
def execMul (c : CoreId) (sd sa sb : BitVec 5) (s : State) : Result :=
  .next (issueBundle c (scalarBundle ⟨0x0B, sd, sa, sb ++ (0 : BitVec 20)⟩) false s)
/-- CMPLT (R146). -/
def execCmplt (c : CoreId) (sd sa sb : BitVec 5) (s : State) : Result :=
  .next (issueBundle c (scalarBundle ⟨0x0E, sd, sa, sb ++ (0 : BitVec 20)⟩) false s)
/-- CMPEQ (R146). -/
def execCmpeq (c : CoreId) (sd sa sb : BitVec 5) (s : State) : Result :=
  .next (issueBundle c (scalarBundle ⟨0x0F, sd, sa, sb ++ (0 : BitVec 20)⟩) false s)
/-- ADDI (R146). -/
def execAddi (c : CoreId) (sd sa : BitVec 5) (imm : BitVec 25) (s : State) : Result :=
  .next (issueBundle c (scalarBundle ⟨0x01, sd, sa, imm⟩) false s)
/-- SHLI (R146). -/
def execShli (c : CoreId) (sd sa : BitVec 5) (imm : BitVec 25) (s : State) : Result :=
  .next (issueBundle c (scalarBundle ⟨0x07, sd, sa, imm⟩) false s)
/-- SHRI (R146). -/
def execShri (c : CoreId) (sd sa : BitVec 5) (imm : BitVec 25) (s : State) : Result :=
  .next (issueBundle c (scalarBundle ⟨0x08, sd, sa, imm⟩) false s)
/-- SHLOR (R146). -/
def execShlor (c : CoreId) (sd sa : BitVec 5) (imm : BitVec 25) (s : State) : Result :=
  .next (issueBundle c (scalarBundle ⟨0x0A, sd, sa, imm⟩) false s)
/-- SLD (R146, R148). -/
def execSld (c : CoreId) (sd sa : BitVec 5) (imm : BitVec 25) (s : State) : Result :=
  .next (issueBundle c (scalarBundle ⟨0x0C, sd, sa, imm⟩) false s)
/-- SST (R146, R148). -/
def execSst (c : CoreId) (sd sa : BitVec 5) (imm : BitVec 25) (s : State) : Result :=
  .next (issueBundle c (scalarBundle ⟨0x0D, sd, sa, imm⟩) false s)
/-- MOVI (R146). -/
def execMovi (c : CoreId) (sd : BitVec 5) (imm : BitVec 25) (s : State) : Result :=
  .next (issueBundle c (scalarBundle ⟨0x09, sd, 0, imm⟩) false s)
/-- JMP (R146). -/
def execJmp (c : CoreId) (imm : BitVec 25) (s : State) : Result :=
  .next (issueBundle c (scalarBundle ⟨0x10, 0, 0, imm⟩) false s)
/-- BZ (R146). -/
def execBz (c : CoreId) (sa : BitVec 5) (imm : BitVec 25) (s : State) : Result :=
  .next (issueBundle c (scalarBundle ⟨0x11, 0, sa, imm⟩) false s)
/-- BNZ (R146). -/
def execBnz (c : CoreId) (sa : BitVec 5) (imm : BitVec 25) (s : State) : Result :=
  .next (issueBundle c (scalarBundle ⟨0x12, 0, sa, imm⟩) false s)
/-- LOOP (R146). -/
def execLoop (c : CoreId) (sd : BitVec 5) (imm : BitVec 25) (s : State) : Result :=
  .next (issueBundle c (scalarBundle ⟨0x13, sd, 0, imm⟩) false s)
/-- STEPSET (R146). -/
def execStepset (c : CoreId) (sa : BitVec 5) (s : State) : Result :=
  .next (issueBundle c (scalarBundle ⟨0x14, 0, sa, 0⟩) false s)
/-- STEPINC (R146). -/
def execStepinc (c : CoreId) (s : State) : Result :=
  .next (issueBundle c (scalarBundle ⟨0x15, 0, 0, 0⟩) false s)
/-- PHASE (R146). -/
def execPhase (c : CoreId) (imm : BitVec 25) (s : State) : Result :=
  .next (issueBundle c (scalarBundle ⟨0x16, 0, 0, imm⟩) false s)
/-- TESTWIN (R146). -/
def execTestwin (c : CoreId) (s : State) : Result :=
  .next (issueBundle c (scalarBundle ⟨0x17, 0, 0, 0⟩) false s)
/-- TRAP (R146). -/
def execTrap (c : CoreId) (imm : BitVec 25) (s : State) : Result :=
  .next (issueBundle c (scalarBundle ⟨0x18, 0, 0, imm⟩) false s)
/-- END (R146). -/
def execEndProgram (c : CoreId) (s : State) : Result :=
  .next (issueBundle c (scalarBundle ⟨0x19, 0, 0, 0⟩) false s)

/-! ### Matrix slot and array events (R87 to R106, R149, R442) -/

/-- PASS (R88, R97, R149): the slot's operation code is 1 whatever the operand holds there. -/
def execPass (c : CoreId) (m : MatrixSlot) (s : State) : Result :=
  .next (issueBundle c (matrixBundle { m with op := 1 }) false s)
/-- WEIGHT_BROADCAST (R75, R87, R90). -/
def execWeightBroadcast (c : CoreId) (arr : Fin 4) (half : HalfId) (row : Fin 128) (s : State) : Result :=
  .next (if s.live then weightBroadcast c arr half row s else s)
/-- PASS_COMPLETE (R79, R96, R101, R104). Vectors already in an array run on through a stop. -/
def execPassComplete (c : CoreId) (arr : Fin 4) (half : HalfId) (fault : Option ArrayFault) (s : State) : Result :=
  .next (if s.live then passComplete c arr half fault s else s)
/-- CHAIN_REPLAY (R101, R104, R442). -/
def execChainReplay (c : CoreId) (arr : Fin 4) (half : HalfId) (fault : Option ArrayFault) (s : State) : Result :=
  .next (if s.live then chainReplay c arr half fault s else s)
/-- ARRAY_ARBITRATION (R442, R443). -/
def execArrayArbitration (c : CoreId) (arr : Fin 4) (half : HalfId) (agree otherMismatch : Bool) (s : State) : Result :=
  .next (if s.live then arrayArbitration c arr half agree otherMismatch s else s)

/-! ### Vector slot (R153) -/

/-- IADD (R153). -/
def execIadd (c : CoreId) (f : VFields) (s : State) : Result := .next (issueBundle c (vectorBundle (f.slot 0x01)) false s)
/-- ISUB (R153). -/
def execIsub (c : CoreId) (f : VFields) (s : State) : Result := .next (issueBundle c (vectorBundle (f.slot 0x02)) false s)
/-- ICMP (R153). -/
def execIcmp (c : CoreId) (f : VFields) (s : State) : Result := .next (issueBundle c (vectorBundle (f.slot 0x03)) false s)
/-- IMIN (R153). -/
def execImin (c : CoreId) (f : VFields) (s : State) : Result := .next (issueBundle c (vectorBundle (f.slot 0x04)) false s)
/-- IMAX (R153). -/
def execImax (c : CoreId) (f : VFields) (s : State) : Result := .next (issueBundle c (vectorBundle (f.slot 0x05)) false s)
/-- AND of vector lanes (R153). -/
def execVecAnd (c : CoreId) (f : VFields) (s : State) : Result := .next (issueBundle c (vectorBundle (f.slot 0x06)) false s)
/-- OR of vector lanes (R153). -/
def execVecOr (c : CoreId) (f : VFields) (s : State) : Result := .next (issueBundle c (vectorBundle (f.slot 0x07)) false s)
/-- XOR of vector lanes (R153). -/
def execVecXor (c : CoreId) (f : VFields) (s : State) : Result := .next (issueBundle c (vectorBundle (f.slot 0x08)) false s)
/-- SHL (R153). -/
def execShl (c : CoreId) (f : VFields) (s : State) : Result := .next (issueBundle c (vectorBundle (f.slot 0x09)) false s)
/-- SHR (R153). -/
def execShr (c : CoreId) (f : VFields) (s : State) : Result := .next (issueBundle c (vectorBundle (f.slot 0x0A)) false s)
/-- SEL (R153). -/
def execSel (c : CoreId) (f : VFields) (s : State) : Result := .next (issueBundle c (vectorBundle (f.slot 0x0B)) false s)
/-- FADD (R153). -/
def execFadd (c : CoreId) (f : VFields) (s : State) : Result := .next (issueBundle c (vectorBundle (f.slot 0x10)) false s)
/-- FSUB (R153). -/
def execFsub (c : CoreId) (f : VFields) (s : State) : Result := .next (issueBundle c (vectorBundle (f.slot 0x11)) false s)
/-- FMUL (R153). -/
def execFmul (c : CoreId) (f : VFields) (s : State) : Result := .next (issueBundle c (vectorBundle (f.slot 0x12)) false s)
/-- FMA (R153). -/
def execFma (c : CoreId) (f : VFields) (s : State) : Result := .next (issueBundle c (vectorBundle (f.slot 0x13)) false s)
/-- FMIN (R153). -/
def execFmin (c : CoreId) (f : VFields) (s : State) : Result := .next (issueBundle c (vectorBundle (f.slot 0x14)) false s)
/-- FMAX (R153). -/
def execFmax (c : CoreId) (f : VFields) (s : State) : Result := .next (issueBundle c (vectorBundle (f.slot 0x15)) false s)
/-- FCMP (R153). -/
def execFcmp (c : CoreId) (f : VFields) (s : State) : Result := .next (issueBundle c (vectorBundle (f.slot 0x16)) false s)
/-- FABS (R153). -/
def execFabs (c : CoreId) (f : VFields) (s : State) : Result := .next (issueBundle c (vectorBundle (f.slot 0x17)) false s)
/-- FNEG (R153). -/
def execFneg (c : CoreId) (f : VFields) (s : State) : Result := .next (issueBundle c (vectorBundle (f.slot 0x18)) false s)
/-- FRCP (R153). -/
def execFrcp (c : CoreId) (f : VFields) (s : State) : Result := .next (issueBundle c (vectorBundle (f.slot 0x1C)) false s)
/-- FRSQ (R153). -/
def execFrsq (c : CoreId) (f : VFields) (s : State) : Result := .next (issueBundle c (vectorBundle (f.slot 0x1D)) false s)
/-- FSQRT (R153). -/
def execFsqrt (c : CoreId) (f : VFields) (s : State) : Result := .next (issueBundle c (vectorBundle (f.slot 0x1E)) false s)
/-- FEXP2 (R153). -/
def execFexp2 (c : CoreId) (f : VFields) (s : State) : Result := .next (issueBundle c (vectorBundle (f.slot 0x1F)) false s)
/-- FLOG2 (R153). -/
def execFlog2 (c : CoreId) (f : VFields) (s : State) : Result := .next (issueBundle c (vectorBundle (f.slot 0x20)) false s)
/-- CVT (R153). -/
def execCvt (c : CoreId) (f : VFields) (s : State) : Result := .next (issueBundle c (vectorBundle (f.slot 0x24)) false s)
/-- VLD (R153). -/
def execVld (c : CoreId) (f : VFields) (s : State) : Result := .next (issueBundle c (vectorBundle (f.slot 0x28)) false s)
/-- VST (R153). -/
def execVst (c : CoreId) (f : VFields) (s : State) : Result := .next (issueBundle c (vectorBundle (f.slot 0x29)) false s)
/-- PACK (R153). -/
def execPack (c : CoreId) (f : VFields) (s : State) : Result := .next (issueBundle c (vectorBundle (f.slot 0x2C)) false s)
/-- PACKX (R153). -/
def execPackx (c : CoreId) (f : VFields) (s : State) : Result := .next (issueBundle c (vectorBundle (f.slot 0x2D)) false s)
/-- UNPACK (R153). -/
def execUnpack (c : CoreId) (f : VFields) (s : State) : Result := .next (issueBundle c (vectorBundle (f.slot 0x2E)) false s)
/-- RSUM (R153). -/
def execRsum (c : CoreId) (f : VFields) (s : State) : Result := .next (issueBundle c (vectorBundle (f.slot 0x30)) false s)
/-- RSSQ (R153). -/
def execRssq (c : CoreId) (f : VFields) (s : State) : Result := .next (issueBundle c (vectorBundle (f.slot 0x31)) false s)
/-- RMAX (R153). -/
def execRmax (c : CoreId) (f : VFields) (s : State) : Result := .next (issueBundle c (vectorBundle (f.slot 0x32)) false s)
/-- RMIN (R153). -/
def execRmin (c : CoreId) (f : VFields) (s : State) : Result := .next (issueBundle c (vectorBundle (f.slot 0x33)) false s)
/-- BCAST (R153). -/
def execBcast (c : CoreId) (f : VFields) (s : State) : Result := .next (issueBundle c (vectorBundle (f.slot 0x34)) false s)
/-- ROT (R153). -/
def execRot (c : CoreId) (f : VFields) (s : State) : Result := .next (issueBundle c (vectorBundle (f.slot 0x35)) false s)
/-- ILV (R153). -/
def execIlv (c : CoreId) (f : VFields) (s : State) : Result := .next (issueBundle c (vectorBundle (f.slot 0x36)) false s)
/-- DILV (R153). -/
def execDilv (c : CoreId) (f : VFields) (s : State) : Result := .next (issueBundle c (vectorBundle (f.slot 0x37)) false s)
/-- ARD (R153). -/
def execArd (c : CoreId) (f : VFields) (s : State) : Result := .next (issueBundle c (vectorBundle (f.slot 0x38)) false s)
/-- AWR (R153). -/
def execAwr (c : CoreId) (f : VFields) (s : State) : Result := .next (issueBundle c (vectorBundle (f.slot 0x39)) false s)
/-- ADRN (R153). -/
def execAdrn (c : CoreId) (f : VFields) (s : State) : Result := .next (issueBundle c (vectorBundle (f.slot 0x3A)) false s)
/-- SARD (R153). -/
def execSard (c : CoreId) (f : VFields) (s : State) : Result := .next (issueBundle c (vectorBundle (f.slot 0x3C)) false s)

/-! ### Move slot and transfers (R129 to R133, R156, R359) -/

/-- COPY (R130, R156). -/
def execCopy (c : CoreId) (f : MFields) (s : State) : Result := .next (issueBundle c (moveBundle (f.slot 1)) false s)
/-- SCOPY (R130, R156). -/
def execScopy (c : CoreId) (f : MFields) (s : State) : Result := .next (issueBundle c (moveBundle (f.slot 2)) false s)
/-- TRANSFER_COMPLETE (R131, R157). -/
def execTransferComplete (c : CoreId) (q : Fin 4) (s : State) : Result :=
  .next (if s.live && !s.stopped then transferComplete c q s else s)
/-- GATHER (R359, R360). -/
def execGather (c : CoreId) (q : Fin 4) (s : State) : Result := .next (if s.live && !s.stopped then gatherRun c q s else s)
/-- OPEN (R359). -/
def execOpenVersion (c : CoreId) (q : Fin 4) (s : State) : Result := .next (if s.live && !s.stopped then openVersion c q s else s)
/-- PUBLISH (R359). -/
def execPublish (c : CoreId) (q : Fin 4) (s : State) : Result := .next (if s.live && !s.stopped then publishVersion c q s else s)

/-! ### Sync slot and its events (R159 to R164) -/

/-- WAIT (R159, R160). -/
def execWait (c : CoreId) (tok : BitVec 6) (consume src : Bool) (imm : BitVec 20) (s : State) : Result :=
  .next (issueBundle c (syncBundle ⟨1, tok ++ BitVec.ofBool consume ++ BitVec.ofBool src ++ imm⟩) false s)
/-- SIGNAL (R159, R161). -/
def execSignal (c : CoreId) (tok : BitVec 6) (dst : BitVec 5) (inc : BitVec 16) (s : State) : Result :=
  .next (issueBundle c (syncBundle ⟨2, tok ++ dst ++ (0 : BitVec 1) ++ inc⟩) false s)
/-- BAR (R163). -/
def execBar (c : CoreId) (grp : BitVec 4) (s : State) : Result :=
  .next (issueBundle c (syncBundle ⟨3, grp ++ (0 : BitVec 24)⟩) false s)
/-- TSET (R160). -/
def execTset (c : CoreId) (tok : BitVec 6) (val : BitVec 20) (s : State) : Result :=
  .next (issueBundle c (syncBundle ⟨4, tok ++ (0 : BitVec 2) ++ val⟩) false s)
/-- CLAIM (R165). -/
def execClaim (c : CoreId) (ctr : BitVec 4) (sd : BitVec 5) (s : State) : Result :=
  .next (issueBundle c (syncBundle ⟨5, ctr ++ sd ++ (0 : BitVec 19)⟩) false s)
/-- WSET (R165). -/
def execWset (c : CoreId) (ctr : BitVec 4) (sa : BitVec 5) (s : State) : Result :=
  .next (issueBundle c (syncBundle ⟨6, ctr ++ sa ++ (0 : BitVec 19)⟩) false s)
/-- TOKEN_INCREMENT (R158, R160 to R162): the oldest signal of a core leaves it, or a completion notice arrives. -/
def execTokenIncrement (a : TokenArrival) (s : State) : Result :=
  .next (if s.live then
    (match a with
      | .signal src => signalLeave src s
      | .notice dst tok => s.addToken dst tok.toNat 1)
    else s)
/-- WAIT_TIMEOUT (R164, R392). -/
def execWaitTimeout (c : CoreId) (s : State) : Result := .next (if s.live && !s.stopped then waitTimeout c s else s)
/-- BARRIER_TIMEOUT (R164, R393). -/
def execBarrierTimeout (c : CoreId) (s : State) : Result := .next (if s.live && !s.stopped then barrierTimeout c s else s)
/-- RENDEZVOUS_TIMEOUT (R164, R170). -/
def execRendezvousTimeout (c : CoreId) (s : State) : Result := .next (if s.live && !s.stopped then rendezvousTimeout c s else s)

/-! ### Control of a core (R168, R175, R176) -/

/-- SEQ_CTRL.RESUME (R175): a core halted with a resumable cause issues its bundle afresh; a token overflow that came meanwhile halts it at
that bundle (R162). -/
def resumeCore (c : Nat) (s : State) : State :=
  let k := s.core c
  let cause := k.exc.cause
  if k.st = .halted ∧ (cause = 0x0B ∨ cause = 0x0E ∨ cause = 0x0F) then
    let t := s.modCore c fun k => { k with st := .running, exc := {}, brkSkip := cause == 0x0F, waitStart := none, overflow := none }
    match k.overflow with
    | some n => t.haltCore c 0x0A 6 n k.pc k.pc
    | none => t
  else s
/-- SEQ_CTRL.START (R176): an idle core begins issue at PC. -/
def startCore (c : Nat) (s : State) : State :=
  s.modCore c fun k => if k.st = .idle then { k with st := .running } else k
/-- SEQ_CTRL_RESUME (R175). -/
def execSeqCtrlResume (c : CoreId) (s : State) : Result := .next (if s.live then resumeCore c s else s)
/-- SEQ_CTRL_START (R176). -/
def execSeqCtrlStart (c : CoreId) (s : State) : Result := .next (if s.live then startCore c s else s)
/-- VREFUSE_SET (R168, R176): the bit is W1S. -/
def execVrefuseSet (c : CoreId) (s : State) : Result :=
  .next (if s.live then s.modCore c fun k => { k with vrefuse := true } else s)

end Sys2Proof.Machine
end

