-- ==== Sys2Proof/Machine/Embedding.lean ====
section
/-!
DEFINITION. Embedding lookups (chapter 07): bins of an accepted batch, the lookup descriptor, the two-round exchange, pooling, combining,
tier fetches, pins, imports and exports.
-/

namespace Sys2Proof.Machine

/-! ### Landing space (R331, R332) -/

/-- The first free reservation tag (R331, R332). -/
def freeTag (s : State) : Option Nat := ((List.range 32704).map (· + 64)).find? fun t => (mget none s.landings t).isNone

/-- Reserve landing space for a source, when a tag is free. -/
def reserve (s : State) (src size : Nat) (use : LandingUse) : Option (State × Nat) :=
  match freeTag s with
  | some t => some ({ s with landings := mset none s.landings t (some ⟨src, size, use, false, false⟩) }, t)
  | none => none

/-- Free the reservations of a use, because their operation completed (R332). -/
def freeLanding (s : State) (use : LandingUse) : State :=
  { s with landings := s.landings.filter fun e => match e.2 with | some l => l.use != use || l.dead | none => false }

/-- Keep reservations until the next job reset, because their operation failed (R332). -/
def killLandings (s : State) (failed : LandingUse → Bool) : State :=
  { s with landings := s.landings.map fun e => (e.1, e.2.map fun l => if failed l.use then { l with dead := true } else l) }

/-! ### Batches and bins (R234, R237) -/

/-- The accepted batch of a step. -/
def batchOf (s : State) (step : BitVec 32) : Option Batch := s.batches.find? fun b => b.step == step

/-- The feature of a program. -/
def featureOf (s : State) (f : Nat) : Option Feature := match s.prog with | some p => p.features[f]? | none => none

/-- The bag of a position (R234). -/
def bagOf (offsets : List Nat) (p : Nat) : Nat := (offsets.filter fun o => decide (o ≤ p)).length - 1

/-- Bags of a part. -/
def bagCount (x : Part) : Nat := x.offsets.length - 1

/-- The unique rows of a part that an owner holds, ascending (R237). -/
def uniqueRows (s : State) (d : TableDesc) (x : Part) (o : Nat) : List Nat :=
  (sortNats x.rows).filter fun r => (ownerOf s d r).1 == o

/-- A position with its weight: its row's ordinal or name, its bag, itself (R234, R245). -/
structure Position where
  ord : Nat
  bag : Nat
  pos : Nat
  weight : BitVec 32

/-- The position list of an owner, ascending (R237). -/
def ownerPositions (s : State) (d : TableDesc) (x : Part) (o : Nat) : List Position :=
  let uniq := uniqueRows s d x o
  (x.rows.zipIdx.filter fun (r, _) => (ownerOf s d r).1 == o).map fun (r, p) =>
    ⟨uniq.idxOf r, bagOf x.offsets p, p, nth x.weights p 0⟩

/-- The positions of a payload (R245). -/
def positionsOf (m : PayloadMsg) : List Position :=
  m.entries.zipIdx.map fun (e, i) => ⟨e.ord, e.bag, e.pos, nth m.weights i 0⟩

/-- The payload of a lookup for an owner (R245); a weighted sum sends the weights. -/
def payloadFor (s : State) (d : TableDesc) (x : Part) (descId : BitVec 16) (batch : BitVec 32) (o : Nat) (weighted : Bool) : PayloadMsg :=
  let uniq := uniqueRows s d x o
  let ps := ownerPositions s d x o
  { descId := descId, batch := batch, requester := s.rank, u := uniq.length, p := ps.length,
    rows := uniq.map fun r => (ownerOf s d r).2, entries := ps.map fun e => ⟨e.ord, e.bag, e.pos⟩,
    weights := if weighted then ps.map (·.weight) else [] }

/-! ### The lookup descriptor (R240, R241) -/

/-- TABLE of a descriptor of R240, R262 or R281. -/
def dTable (d : Desc) : Nat := fld d.w0 4 12
/-- DESC_ID. -/
def dId (d : Desc) : BitVec 16 := d.w0.extractLsb' 16 16
/-- FEATURE of a lookup. -/
def lFeature (d : Desc) : Nat := fld d.w0 32 8
/-- POOL: 0 sum, 1 mean, 2 weighted sum, 3 none. -/
def lPool (d : Desc) : Nat := fld d.w0 40 2
/-- PFMT: partials are FP32. -/
def lFp32 (d : Desc) : Bool := d.w0.getLsbD 42
/-- OFMT. -/
def lOfmt (d : Desc) : Nat := fld d.w0 43 5
/-- TOK of a lookup. -/
def lTok (d : Desc) : Nat := fld d.w0 52 6
/-- CORE of a lookup. -/
def lCore (d : Desc) : Nat := fld d.w0 58 5
/-- DST of a lookup. -/
def lDst (d : Desc) : Nat := fld d.w1 0 48
/-- PITCH of a lookup. -/
def lPitch (d : Desc) : Nat := fld d.w2 0 32
/-- FENCE. -/
def lFence (d : Desc) : BitVec 32 := d.w3.extractLsb' 0 32
/-- BATCH. -/
def lBatch (d : Desc) : BitVec 32 := d.w3.extractLsb' 32 32

/-- Whether words from `i` on of a descriptor are not zero. -/
def wordsFrom (d : Desc) (i : Nat) : Bool := ((descWords d).drop i).any (· != 0)

/-- Whether a lookup descriptor breaks R18. -/
def lookupReserved (d : Desc) : Bool :=
  fld d.w0 0 4 != 1 || strayBits d.w0 [(0, 63)] || strayBits d.w1 [(0, 48)] || fld d.w0 50 2 != 0 || decide (0x12 < lOfmt d) ||
    wordsFrom d 4

/-- Whether the output is the row format unchanged (R242). -/
def lRaw (t : TableDesc) (d : Desc) : Bool := lPool d == 3 && lOfmt d == tFmt t

/-- The bytes of one output vector. -/
def lVector (t : TableDesc) (d : Desc) : Nat := if lRaw t d then tW t else elemBytes (lOfmt d) * tDim t

/-- The number of output vectors. -/
def lOutputs (d : Desc) (x : Part) : Nat := if lPool d = 3 then x.rows.length else bagCount x

/-- Whether a range lies in the program's windows: a memory window or a tile store's data region. -/
def inProgram (s : State) (a n : Nat) : Bool := inWindows s a n false || (tileCore a n).isSome

/-- Whether a unit may write an output to a range: it lies in the program's windows and in no record region (R225). -/
def mayOutput (s : State) (a n : Nat) : Bool := inProgram s a n && !inRecords s a n

/-- Whether a write by a unit outside the cores takes effect at once (R186): in a tile store, no pass of the core still reads the range and
no earlier write waits on it (R101, R116). -/
def landsNow (s : State) (a n : Nat) : Bool :=
  match tileCore a n with
  | some c => !(s.core c).writeWaits c (s.core c).seqNo a n && !(s.core c).heldMeets (s.core c).seqNo a n
  | none => true

/-- The bytes from the first to the last output. -/
def lSpan (t : TableDesc) (d : Desc) (x : Part) : Nat := (lOutputs d x - 1) * lPitch d + lVector t d

/-- The fault of a lookup (R241): 0 for none. -/
def lookupFault (s : State) (d : Desc) : Nat :=
  match featureOf s (lFeature d), tableOf s (dTable d) with
  | some f, some t =>
    let fmtOk := [0x00, 0x01, 0x02, 0x03, 0x04, 0x07].contains (lOfmt d) || lRaw t d
    if f.table ≠ dTable d ∨ (lPool d = 2 ∧ f.weighted = false) ∨ fmtOk = false ∨ lPitch d % 8 ≠ 0 ∨ lPitch d < lVector t d then 0x32
    else
      match batchOf s (lBatch d) with
      | none => 0x33
      | some b =>
        let x := nth b.parts (lFeature d) ⟨[], [], []⟩
        if lOutputs d x ≠ 0 ∧ mayOutput s (lDst d) (lSpan t d x) = false then 0x32 else 0
  | _, _ => 0x32

/-! ### Faults of a Teasel unit (R266, R267) -/

/-- A descriptor is refused or fails at a Teasel unit: its record, and DESC_FLT for the codes of R266. -/
def teaselFault (s : State) (unit code : Nat) (opid : Word) : State :=
  let t := s.emit { code := code, uclass := 8, uinst := unit, opid := opid }
  if 0x30 ≤ code ∧ code ≤ 0x39 then t.modTeasel unit fun u => { u with descFlt := satAdd 16 u.descFlt 1 } else t

/-! ### Descriptors in their places (R22, R133, R201) -/

/-- The oldest of core c's descriptors for one destination, a Teasel unit or an exchange engine, that its unit does not hold already: one
channel of R22 delivers them in order. -/
def nextPlaced (s : State) (c : Nat) (eng : Option (Nat × Bool)) : Option PlacedDesc :=
  (s.core c).descs.find? fun x => x.eng == eng &&
    !((s.waitingGrads ++ s.mirror.waitingSnaps).any fun w => w.core == c && w.desc == x.desc)

/-- Whether a descriptor may reach its unit now: it is the oldest for its destination. DESIGN CHOICE (log 130): where the core holds none for
that destination, the command itself brings the descriptor. -/
def arrives (s : State) (c : Nat) (eng : Option (Nat × Bool)) (d : Desc) (psn : Bool) : Bool :=
  match nextPlaced s c eng with
  | some x => x.desc == d && x.psn == psn
  | none => true

/-- The place of a descriptor of core c; of one that has none, the descriptor as the command brings it now, read at address 0. -/
def descPlace (s : State) (c : Nat) (eng : Option (Nat × Bool)) (d : Desc) : PlacedDesc :=
  ((s.core c).descs.find? fun x => x.eng == eng && x.desc == d).getD
    { desc := d, psn := false, eng := eng, seq := 0, addr := 0, cycle := s.cycle, step := (s.core c).step, bundle := 0 }

/-- The unit accepts a descriptor of core c and frees its place (R133, R242). -/
def freePlace (s : State) (c : Nat) (eng : Option (Nat × Bool)) (d : Desc) : State :=
  s.modCore c fun k => { k with descs := k.descs.eraseP fun x => x.eng == eng && x.desc == d }

/-- A poisoned descriptor bites and is refused (R201, R202): the address is where it was read. -/
def biteDesc (s : State) (c unit : Nat) (d : Desc) : State :=
  let x := descPlace s c none d
  (freePlace s c none d).bite 8 unit (opidDesc (dId d) x.step) x.addr 1

/-! ### Running a lookup (R242 to R244) -/

/-- The open lookups of a unit. -/
def openLookups (s : State) (unit : Nat) : Nat := (s.lookups.filter fun l => l.unit == unit && !l.closed).length

/-- Whether a lookup has an identity. -/
def Lookup.isFor (l : Lookup) (batch : BitVec 32) (descId : BitVec 16) : Bool := l.batch == batch && l.descId == descId
/-- The lookup of an identity. -/
def lookupOf (s : State) (batch : BitVec 32) (descId : BitVec 16) : Option Lookup := s.lookups.find? fun l => l.isFor batch descId
/-- The state with a lookup changed. -/
def modLookup (s : State) (batch : BitVec 32) (descId : BitVec 16) (f : Lookup → Lookup) : State :=
  { s with lookups := s.lookups.map fun l => if l.isFor batch descId then f l else l }

/-- The part of a lookup's feature in its batch. -/
def partOf (s : State) (d : Desc) : Part :=
  match batchOf s (lBatch d) with | some b => nth b.parts (lFeature d) ⟨[], [], []⟩ | none => ⟨[], [], []⟩

/-- The count for an owner (R243). -/
def countFor (s : State) (t : TableDesc) (d : Desc) (o : Nat) : CountMsg :=
  let x := partOf s d
  let es := ownerPositions s t x o
  ⟨dId d, lBatch d, s.rank, o, tId t, (uniqueRows s t x o).length, es.length, (sortNats (es.map (·.bag))).length⟩

/-- A lookup starts in the unit that runs it (R242, R243): its checks, then the count round. -/
def startLookup (s : State) (c : Nat) (d : Desc) : State :=
  let unit := lFeature d % 4
  let code := lookupFault s d
  if code ≠ 0 then teaselFault s unit code (opidDesc (dId d) (lBatch d))
  else
    match tableOf s (dTable d) with
    | none => s
    | some t =>
      let owners := ownersOf s t
      let counts := owners.map fun o => countFor s t d o
      let waiting := (counts.filter fun m => m.u != 0).map (·.owner)
      let s := { s with lookups := s.lookups ++
        [{ descId := dId d, batch := lBatch d, desc := d, core := c, unit := unit, waiting := waiting, granted := [], resps := [],
           outDone := false, closed := false }] }
      counts.foldl (fun s m =>
        if m.owner = s.rank then { s with counts := s.counts ++ [m] } else sendMsg s m.owner 64 (.count m.owner m)) s

/-- A forwarded lookup reaches its unit: it starts, or waits for one of the unit's 64 places (R242). -/
def arriveLookup (s : State) (c : Nat) (d : Desc) : State :=
  if openLookups s (lFeature d % 4) < 64 then startLookup s c d
  else { s with lookupQueue := s.lookupQueue ++ [⟨c, d, (descPlace s c none d).cycle⟩] }

/-- Lookups that wait start in order while their units have places; `n` bounds them. -/
def startQueued : Nat → State → State
  | 0, s => s
  | n + 1, s =>
    match s.lookupQueue.find? fun w => decide (openLookups s (lFeature w.desc % 4) < 64) with
    | none => s
    | some w => startQueued n (startLookup { s with lookupQueue := s.lookupQueue.erase w } w.core w.desc)

/-- COUNT_MESSAGE (R243, R244): the owner keeps the count, and grants landing space for the payload when one will come. -/
def countMessage (m : CountMsg) (s : State) : State :=
  if m.owner ≠ s.rank ∨ (tableOf s m.table).isNone ∨ s.counts.any (fun x => x.requester == m.requester && x.descId == m.descId &&
      x.batch == m.batch) then s
  else
    -- the weights are included, which the count does not tell of (log 128)
    let size := 64 + 8 * m.u + 12 * m.p
    if m.u = 0 then releaseTo { s with counts := s.counts ++ [m] } m.requester 64
    else
      match reserve s m.requester size (.lookupPayload m.requester m.batch m.descId) with
      | none => { s with tagWait := s.tagWait ++ [.count m] }
      | some (t, tag) =>
        releaseTo (ship { t with counts := t.counts ++ [m] }
          (.grant m.requester ⟨s.rank, tag, size, true, m.batch, m.descId⟩)) m.requester 64

/-- A lookup's grant reaches the requester (R244): it reserves space for the response, then sends the payload. -/
def lookupGrant (g : GrantPkt) (s : State) : State :=
  match lookupOf s g.opStep g.opDesc with
  | none => s
  | some l =>
    match tableOf s (dTable l.desc) with
    | none => s
    | some t =>
      if l.closed || !l.waiting.contains g.peer || l.granted.contains g.peer then s
      else
        let m := payloadFor s t (partOf s l.desc) l.descId l.batch g.peer (lPool l.desc == 2)
        let c := countFor s t l.desc g.peer
        let size := if lPool l.desc = 3 then c.p * (8 + 8 * ceilDiv (tW t) 8)
          else c.bo * (8 + tDim t * (if lFp32 l.desc then 4 else 8))
        match reserve s g.peer size (.lookupResponse g.peer l.batch l.descId) with
        | none => { s with tagWait := s.tagWait ++ [.grant g] }
        | some (u, _) =>
          modLookup (ship u (.payload g.peer m)) l.batch l.descId
            fun l => { l with granted := l.granted ++ [g.peer] }

/-- The reservations that wait for a tag are tried again, in order (R332). -/
def retryTags (s : State) : State :=
  s.tagWait.foldl (fun s w => match w with | .count m => countMessage m s | .grant g => lookupGrant g s) { s with tagWait := [] }

/-! ### At the owner: tier fetches and fences (R230, R252) -/

/-- Start the fetch of an absent record, once (R230): a read of the host range of its tier source. -/
def startFetch (s : State) (t l : Nat) : State :=
  if s.fetches.any fun f => f.table == t && f.lidx == l then s
  else
    let q := s.fetchSeq
    let s := { s with fetches := s.fetches ++ [⟨t, l, s.cycle, none, q⟩], fetchSeq := q + 1 }
    match tableOf s t, s.tierSources.find? (fun x => x.table == t && decide (x.first ≤ l) && decide (l ≤ x.last)) with
    | some d, some x => { s with hostOut := s.hostOut ++ [.tierRead x.sid x.buf (x.hoff + (l - x.first) * x.stride) (tRec d) t l q] }
    | _, _ => s

/-- A fetch of record l of a table is in progress. -/
def fetching (s : State) (t l : Nat) : Bool := s.fetches.any fun f => f.table == t && f.lidx == l

/-- Whether the apply of step f of a table has completed, or its seal decided skip (R252); a table without a ledger has no apply to wait
for. -/
def applyDone (s : State) (t : Nat) (f : BitVec 32) : Bool :=
  let b := s.bank t f
  let before := match s.prog with | some p => decide (f.toNat < p.firstStep.toNat) | none => false
  let frozen := match tableOf s t with | some d => tFrozen s d | none => true
  frozen || before || (b.step == f && (b.applied || (b.decided && b.decide == 2))) || decide (f.toNat < b.step.toNat)

/-- Whether the apply of a step later than f has begun (R252). -/
def laterApply (s : State) (t : Nat) (f : BitVec 32) : Bool := decide (f.toNat + 1 < mget 0 s.begun t)

/-- What the fence of a lookup says: 0 pass, 1 wait, 2 fault. -/
def fenceState (s : State) (d : Desc) : Nat :=
  let f := lFence d
  if f = 0xFFFFFFFF then 0
  else if laterApply s (dTable d) f then 2
  else if applyDone s (dTable d) f then 0 else 1

/-! ### Pooling (R248, R249) -/

/-- One unique row as read: its vault, its bytes, its values and its mark. -/
structure RowRead where
  vault : Nat
  bytes : List Byte
  vals : List XNum
  psn : Bool

/-- Read every unique row of a payload once (R248). -/
def readRows (s : State) (t : TableDesc) (rows : List Nat) : State × List RowRead :=
  rows.foldl (fun (x : State × List RowRead) l =>
    let r := readRow x.1 t l
    (r.1, x.2 ++ [⟨vaultOf (recordAddr t l), r.2.1, weightValues t r.2.1, r.2.2⟩])) (s, [])

/-- The reads that a list of ordinals names. -/
def readAt (rs : List RowRead) (k : Nat) : RowRead := nth rs k ⟨0, [], [], false⟩

/-- One term added into a partial, rounded once (R249). -/
def addTerm (weighted : Bool) (w : BitVec 32) (q x : XNum) : XNum :=
  if weighted then rZ56 (q.add ((fFP32.decode w.toNat).mul x)) else addZ56 q x

/-- vault_partial of R249. -/
def vaultPartial (rs : List RowRead) (es : List Position) (weighted : Bool) (n v g : Nat) : List XNum :=
  (es.filter fun e => e.bag == g && (readAt rs e.ord).vault == v).foldl (fun q e =>
    (List.range n).map fun i => addTerm weighted e.weight (nth q i XNum.zero) (nth (readAt rs e.ord).vals i XNum.zero))
    (List.replicate n XNum.zero)

/-- owner_partial of R249 before PFMT: vault partials folded in ascending vault order. -/
def ownerPartial (rs : List RowRead) (es : List Position) (weighted : Bool) (n g : Nat) : List XNum :=
  let vaults := sortNats ((es.filter fun e => e.bag == g).map fun e => (readAt rs e.ord).vault)
  vaults.foldl (fun p v =>
    let q := vaultPartial rs es weighted n v g
    (List.range n).map fun i => addZ56 (nth p i XNum.zero) (nth q i XNum.zero)) (List.replicate n XNum.zero)

/-- The partial as it travels: Z56, or FP32 with its saturation events (R249). -/
def partialElems (fp32 : Bool) (p : List XNum) : List Conv :=
  p.map fun x => if fp32 then fFP32.encode .rne 0 x else ⟨toZ56 x, 0, 0⟩

/-- The records of a response (R247), and the saturation events of its partials. -/
def poolPayload (t : TableDesc) (d : Desc) (m : PayloadMsg) (rs : List RowRead) (bad : Bool) : List RespRecord × Nat :=
  if lPool d = 3 then
    (m.entries.map fun e =>
      let r := readAt rs e.ord
      let n := ceilDiv (tW t) 8
      ⟨e.pos, (List.range n).map fun i => BitVec.ofNat 64 (fromBytes ((r.bytes.drop (8 * i)).take 8)),
        List.replicate n (r.psn || bad)⟩, 0)
  else
    let bags := sortNats (m.entries.map (·.bag))
    let parts := bags.map fun g => (g, partialElems (lFp32 d) (ownerPartial rs (positionsOf m) (lPool d == 2) (tDim t) g),
      (m.entries.any fun e => e.bag == g && (readAt rs e.ord).psn) || bad)
    (parts.map fun (g, p, psn) => ⟨g, p.map fun c => BitVec.ofNat 64 c.bits, List.replicate (tDim t) psn⟩,
      (parts.map fun (_, p, _) => (p.map (·.sat)).sum).sum)

/-! ### Responses and failures (R246, R250, R253) -/

/-- Count saturation and non-finite events in the NUM_CNT of an exchange engine (R58). -/
def countEngine (s : State) (e sat nf : Nat) : State :=
  s.modPort e fun p => { p with numCnt := p.numCnt.count s.cycle sat nf }

/-- A response of this device reaches its requester: inside the device, or over the fabric (R247, R249). -/
def respond (s : State) (requester : Nat) (r : RespMsg) : State :=
  if requester = s.rank then
    modLookup s r.batch r.descId fun l =>
      if l.waiting.contains s.rank then
        { l with waiting := l.waiting.erase s.rank, resps := l.resps ++ [(s.rank, r.records)] }
      else l
  else ship s (.response requester r)

/-- The bytes of a failed lookup's outputs are free values (R253). -/
def freeOutputs (s : State) (t : TableDesc) (d : Desc) : State :=
  let x := partOf s d
  (List.range (lOutputs d x)).foldl (fun s g =>
    let n := lVector t d
    let bytes := (List.range n).map fun i => (Config.freeByte (s.fresh + i), false)
    outsideStore { s with fresh := s.fresh + n } (lDst d + g * lPitch d) bytes) s

/-- A lookup fails at its requester (R253, R332): its record, its outputs left undefined, no token; the tags of its responses stay taken. -/
def failLookup (s : State) (l : Lookup) (code : Nat) : State :=
  let s := killLandings s fun u => match u with | .lookupResponse _ b i => b == l.batch && i == l.descId | _ => false
  let s := teaselFault s l.unit code (opidDesc l.descId l.batch)
  let s := match tableOf s (dTable l.desc) with | some t => freeOutputs s t l.desc | none => s
  modLookup s l.batch l.descId fun l => { l with closed := true }

/-- A payload fails at its owner: a failure response goes in place of the partials, or its own lookup fails (R232, R246, R252). -/
def failPayload (s : State) (m : PayloadMsg) (code : Nat) : State :=
  let s := killLandings s (· == .lookupPayload m.requester m.batch m.descId)
  if m.requester = s.rank then
    match lookupOf s m.batch m.descId with | some l => if l.closed then s else failLookup s l code | none => s
  else ship s (.response m.requester ⟨m.descId, m.batch, s.rank, some (BitVec.ofNat 8 code), false, []⟩)

/-- A failure found at the owner (R246, R252): its record there, and the failure of the payload. -/
def ownerFail (s : State) (m : PayloadMsg) (uclass uinst code : Nat) : State :=
  let opid := opidDesc m.descId m.batch
  let s := if uclass = 8 then teaselFault s uinst code opid else s.emit { code := code, uclass := uclass, uinst := uinst, opid := opid }
  failPayload s m code

/-- Whether a payload agrees with its count and its table (R246). -/
def payloadOk (t : TableDesc) (m : PayloadMsg) (c : CountMsg) : Bool :=
  m.u == c.u && m.p == c.p && m.rows.length == m.u && m.entries.length == m.p &&
    (m.entries.all fun e => decide (e.ord < m.u)) && m.rows.all fun l => decide (l < tLrows t)

/-- Serve a payload whose rows may be read (R248, R249): the rows are read, the partials formed and the response sent. -/
def servePayload (s : State) (t : TableDesc) (l : Lookup) (m : PayloadMsg) (e : Nat) (fault : UnitFault) : State :=
  let r := readRows s t m.rows
  let v := vaultOf (recordAddr t (m.rows.headD 0))
  let op := opidDesc m.descId m.batch
  let bad := match fault with | .recurs _ => true | _ => false
  let p := poolPayload t l.desc m r.2 bad
  let s := countEngine r.1 e p.2 0
  let s := match fault with
    | .transient n => s.emit { code := 0x11, uclass := 7, uinst := v, addr := n.toNat, opid := op }
    | .recurs n => classify (s.emit { code := 0x11, uclass := 7, uinst := v, addr := n.toNat, opid := op }) 7 v n.toNat 0x11
    | _ => s
  let s := { s with payloads := s.payloads ++ [m] }
  respond (freeLanding s (.lookupPayload m.requester m.batch m.descId)) m.requester
    ⟨m.descId, m.batch, s.rank, none, lFp32 l.desc && lPool l.desc != 3, p.1⟩

/-- A payload at its owner (R246, R248, R252): refused, waiting for its lookup, its fence or absent records, or served. -/
def payloadArrives (s : State) (m : PayloadMsg) (e : Nat) (fault : UnitFault) : State :=
  let same := fun (x : PayloadMsg) => x.requester == m.requester && x.descId == m.descId && x.batch == m.batch
  let wait := fun (s : State) => { s with waitingPayloads := s.waitingPayloads.filter (fun x => !same x.msg) ++ [⟨m, e, fault⟩] }
  let s := { s with waitingPayloads := s.waitingPayloads.filter fun x => !same x.msg }
  match s.counts.find? fun c => c.requester == m.requester && c.descId == m.descId && c.batch == m.batch with
  | none => s
  | some c =>
    match lookupOf s m.batch m.descId, tableOf s c.table with
    | some l, some t =>
      if s.payloads.any same then s
      else if !payloadOk t m c then ownerFail s m 8 l.unit 0x34
      else
        let fence := fenceState s l.desc
        if fence = 2 then ownerFail s m 7 (vaultOf (recordAddr t (m.rows.headD 0))) 0x35
        else if fence = 1 then wait s
        else
          let x := absentOf s t m.rows
          if !x.2.isEmpty then wait (x.2.foldl (fun s r => startFetch s c.table r) x.1) else servePayload x.1 t l m e fault
    | _, _ => wait s

/-- The payloads that wait are looked at again (R230, R248, R252). -/
def retryPayloads (s : State) : State := s.waitingPayloads.foldl (fun s w => payloadArrives s w.msg w.eng w.fault) s

/-- Lookups that wait for a place start, payloads that wait are looked at, and what waits for a tag; a failure may free a place for the next: `n` rounds. -/
def rounds : Nat → State → State
  | 0, s => s
  | n + 1, s => rounds n (retryTags (retryPayloads (startQueued s.lookupQueue.length s)))

/-- What lookups have freed is taken up by those that wait. -/
def onward (s : State) : State := rounds (s.lookupQueue.length + 1) s

/-- LOOKUP (R240 to R243): the unit of the core checks encodings and poison, frees the place and forwards the descriptor. -/
def lookupDesc (c : Nat) (d : Desc) (psn : Bool) (s : State) : State :=
  if !arrives s c none d psn then s
  else if psn then biteDesc s c (c / 8) d
  else
    let t := freePlace s c none d
    if lookupReserved d then teaselFault t (c / 8) 0x02 (opidDesc (dId d) (lBatch d))
    else onward (arriveLookup t c d)

/-- LOOKUP_PAYLOAD (R246, R248, R249, R436). A payload for this device's own ranges passes inside the device. -/
def lookupPayload (m : PayloadMsg) (e : Nat) (fault : UnitFault) (s : State) : State :=
  let own := match lookupOf s m.batch m.descId with
    | some l => match tableOf s (dTable l.desc) with
      | some t => if l.closed || !l.waiting.contains s.rank then none
        else some (payloadFor s t (partOf s l.desc) l.descId l.batch s.rank (lPool l.desc == 2))
      | none => none
    | none => none
  let got := if m.requester = s.rank then own else some m
  match got with
  | none => s
  | some m =>
    if fault = .parity then parityStop s 7 (m.requester % 64) 0 (opidDesc m.descId m.batch)
    else onward (payloadArrives s m e fault)

/-- LOOKUP_RESPONSE (R246, R250): a response, or a failure response, reaches the requester. -/
def lookupResponse (m : RespMsg) (s : State) : State :=
  match lookupOf s m.batch m.descId with
  | none => s
  | some l =>
    if l.closed || !l.granted.contains m.owner || !l.waiting.contains m.owner then s
    else
      match m.fail with
      | some code => onward (failLookup s l code.toNat)
      | none => onward <| modLookup (freeLanding s (.lookupResponse m.owner m.batch m.descId)) m.batch m.descId fun l =>
          { l with waiting := l.waiting.erase m.owner, resps := l.resps ++ [(m.owner, m.records)] }

/-! ### Combining (R250) -/

/-- The records that the owners returned for a bag or position, in ascending rank. -/
def recordsFor (l : Lookup) (g : Nat) : List RespRecord :=
  (sortNats (l.resps.map (·.1))).filterMap fun o =>
    (l.resps.find? fun r => r.1 == o).bind fun r => r.2.find? fun x => x.key == g

/-- One element of a partial as a value. -/
def partialValue (fp32 : Bool) (w : Word) : XNum := if fp32 then fFP32.decode w.toNat else ofZ56 w.toNat

/-- The values of output g before their conversion (R250). -/
def combineBag (t : TableDesc) (l : Lookup) (x : Part) (g : Nat) : List XNum :=
  let n := tDim t
  let sum := (recordsFor l g).foldl (fun q r =>
    (List.range n).map fun i => addZ56 (nth q i XNum.zero) (partialValue (lFp32 l.desc) (nth r.elems i 0)))
    (List.replicate n XNum.zero)
  if lPool l.desc = 1 then
    let len := nth x.offsets (g + 1) 0 - nth x.offsets g 0
    if len = 0 then List.replicate n XNum.zero else sum.map fun v => divZ56 v (XNum.ofInt len 0)
  else sum

/-- The bytes of a raw record. -/
def rawBytes (t : TableDesc) (r : RespRecord) : List Byte := (r.elems.flatMap fun w => toBytes 8 w.toNat).take (tW t)

/-- The conversions of output g (R250): none in the row format, which is copied. -/
def outputConvs (s : State) (t : TableDesc) (l : Lookup) (x : Part) (g : Nat) : List Conv :=
  let d := l.desc
  let vals := if lRaw t d then []
    else if lPool d = 3 then (match recordsFor l g with | r :: _ => weightValues t (rawBytes t r) | [] => [])
    else combineBag t l x g
  let id : DrawId := ⟨s.seed, 4, l.batch.toNat, fld d.w2 32 32, 0⟩
  vals.zipIdx.map fun (v, i) => encodeElem (lOfmt d) 0 (rndOf (fld d.w0 48 2)) (drawElem id (g * tDim t + i)) v

/-- The bytes of output g (R242, R250). -/
def outputBytes (s : State) (t : TableDesc) (l : Lookup) (x : Part) (g : Nat) : List Byte :=
  if lRaw t l.desc then match recordsFor l g with | r :: _ => rawBytes t r | [] => []
  else (outputConvs s t l x g).flatMap fun c => toBytes (elemBytes (lOfmt l.desc)) c.bits

/-- The events of the output conversions (R53, R54, R250). DESIGN CHOICE (log 131): a Teasel unit has no NUM_CNT of R58; they count in that
of the lookup's core. -/
def countOutputs (s : State) (t : TableDesc) (l : Lookup) (x : Part) : State :=
  let cs := (List.range (lOutputs l.desc x)).flatMap fun g => outputConvs s t l x g
  s.modCore l.core fun k => { k with numCnt := k.numCnt.count s.cycle (cs.map (·.sat)).sum (cs.map (·.nf)).sum }

/-- LOOKUP_COMPLETE (R250, R253): every partial has come; the outputs are written and the token is added. It waits while an output write
could not take effect at once (R116). -/
def lookupComplete (batch : BitVec 32) (descId : BitVec 16) (s : State) : State :=
  match lookupOf s batch descId with
  | none => s
  | some l =>
    match tableOf s (dTable l.desc) with
    | none => s
    | some t =>
      let x := partOf s l.desc
      if l.closed || !l.waiting.isEmpty ||
          !((List.range (lOutputs l.desc x)).all fun g => landsNow s (lDst l.desc + g * lPitch l.desc) (lVector t l.desc)) then s
      else
        let t' := (List.range (lOutputs l.desc x)).foldl (fun u g =>
          outsideStore u (lDst l.desc + g * lPitch l.desc)
            (marked ((recordsFor l g).any fun r => r.psn.any id) (outputBytes s t l x g))) (countOutputs s t l x)
        let t' := modLookup t' batch descId fun l => { l with outDone := true, closed := true }
        onward (t'.addToken (lCore l.desc) (lTok l.desc) 1)

/-! ### Prefetch (R239, R257) -/

/-- One record that a prefetch message lists (R239, R257): it is installed, or fetched first when it is absent (R230). -/
def prefetchRow (d : TableDesc) (batch : BitVec 32) (s : State) (l : Nat) : State :=
  if tLrows d ≤ l then s
  else
    let x := absentOf s d [l]
    if x.2.isEmpty then installRow x.1 d l (some (batch.toNat % 8)) false
    else
      let s := startFetch x.1 (tId d) l
      { s with fetches := s.fetches.map fun f => if f.table = tId d ∧ f.lidx = l then { f with prefetch := some batch } else f }

/-- PREFETCH_MESSAGE at an owner (R239): a message for no table that prefetches is dropped and counted. DESIGN CHOICE (log 137): a message
names no vault of its own; vault 0 counts it. -/
def prefetchMessage (m : PrefetchMsg) (s : State) : State :=
  match tableOf s m.table with
  | some d => if tPrefetch d then m.rows.foldl (prefetchRow d m.batch) s else countDrop s 0
  | none => countDrop s 0

/-- The prefetch messages of an accepted batch (R239): one per owner for each feature whose table asks for it; one that finds no inbox
credit is dropped at the source (R331) and counted there. -/
def sendPrefetch (s : State) (b : Batch) : State :=
  b.parts.zipIdx.foldl (fun s (x, f) =>
    match featureOf s f with
    | none => s
    | some ft =>
      match tableOf s ft.table with
      | none => s
      | some d =>
        if !tPrefetch d then s
        else (ownersOf s d).foldl (fun s o =>
          let m : PrefetchMsg := ⟨tId d, b.step, (uniqueRows s d x o).map fun r => (ownerOf s d r).2⟩
          let n := 64 + 8 * m.rows.length
          if o = s.rank then prefetchMessage m s
          else if inboxRoom s o n && !(s.outWait.any fun w => w.1 == o) then intoInbox s o n (.prefetch o m)
          else countDrop s 0) s) s

/-! ### PIN, IMPORT and EXPORT (R260 to R265) -/

/-- TOK of a row or ledger descriptor (R262, R281). -/
def rTok (d : Desc) : BitVec 6 := d.w0.extractLsb' 32 6
/-- CORE of a row or ledger descriptor. -/
def rCore (d : Desc) : Nat := fld d.w0 38 5

/-- Whether a PIN, IMPORT or EXPORT breaks R18. -/
def rowReserved (kind : Nat) (d : Desc) : Bool :=
  fld d.w0 0 4 != kind ||
    match kind with
    | 2 => strayBits d.w0 [(0, 43), (44, 2)] || fld d.w0 44 2 == 3 || strayBits d.w1 [(0, 48)] || strayBits d.w2 [(0, 40)] || wordsFrom d 3
    | 3 => strayBits d.w0 [(0, 43)] || strayBits d.w1 [(0, 48)] || strayBits d.w2 [(0, 40)] || wordsFrom d 3
    | _ => strayBits d.w0 [(0, 43), (44, 2)] || strayBits d.w1 [(0, 48)] || strayBits d.w2 [(0, 40)] || strayBits d.w3 [(0, 40)] ||
        strayBits d.w4 [(0, 32)] || strayBits d.w5 [(0, 48)] || wordsFrom d 6

/-- The rows that a PIN lists, or the first words of the images of an IMPORT. -/
def listedRows (s : State) (d : Desc) (step : Nat) : List Nat :=
  (List.range (fld d.w2 0 40)).map fun i => readN s (fld d.w1 0 48 + step * i) 8 % 2 ^ 40

/-- The bytes from one listed row of a PIN or image of an IMPORT to the next. -/
def listStep (t : TableDesc) (d : Desc) : Nat := if fld d.w0 0 4 = 3 then 128 + tRec t else 8

/-- The reads of the list of a PIN or IMPORT (R193). -/
def fetchList (s : State) (t : TableDesc) (d : Desc) : State :=
  if fld d.w0 0 4 = 4 then s
  else (List.range (fld d.w2 0 40)).foldl (fun s i => fetchRange s (fld d.w1 0 48 + listStep t d * i) 8) s

/-- The rows of an EXPORT that this device owns, ascending. -/
def exportRows (s : State) (t : TableDesc) (d : Desc) : List Nat :=
  ((List.range (fld d.w3 0 40)).map (fld d.w2 0 40 + ·)).filter fun r => decide (r < tRows t) && (ownerOf s t r).1 == s.rank

/-- The bytes of one export record (R264). -/
def exportBytes (t : TableDesc) (withState : Bool) : Nat :=
  16 + 16 * ceilDiv (tW t) 16 + (if withState then 16 * ceilDiv (tRec t - (tH t + 16)) 16 else 0)

/-- Bytes padded with zeros to a multiple of 16. -/
def pad16 (bs : List PByte) : List PByte := bs ++ List.replicate (16 * ceilDiv bs.length 16 - bs.length) (0, false)

/-- Write the export record of one row (R264). -/
def exportRow (s : State) (t : TableDesc) (withState : Bool) (dst r : Nat) : State :=
  let l := (ownerOf s t r).2
  let a := recordAddr t l
  let s := fetchRange s a (tRec t)
  let head := marked (poisonedIn s (a + tH t) 4) (toBytes 16 (r + tId t * 2 ^ 40 + readN s (a + tH t) 2 * 2 ^ 64 + readN s (a + tH t + 2) 2 * 2 ^ 80))
  let w := pad16 (readP s a (tW t))
  let st := if withState then pad16 (readP s (a + tH t + 16) (tRec t - (tH t + 16))) else []
  outsideStore s dst (head ++ w ++ st)

/-- The local rows of a list that this device owns. -/
def localRows (s : State) (t : TableDesc) (rows : List Nat) : List Nat :=
  (rows.filter fun r => decide (r < tRows t) && (ownerOf s t r).1 == s.rank).map fun r => (ownerOf s t r).2

/-- The rows that a row job installs or reads: those a PIN pins, unless it only clears or the table has no pinned set (R220, R260); those of
an EXPORT. -/
def jobRows (s : State) (t : TableDesc) (j : RowJob) : List Nat :=
  match fld j.desc.w0 0 4 with
  | 2 => if fld j.desc.w0 44 2 = 2 || !tPinned t then [] else localRows s t (listedRows s j.desc 8)
  | 4 => (exportRows s t j.desc).map fun r => (ownerOf s t r).2
  | _ => []

/-- The records that an IMPORT writes. -/
def importedRows (s : State) (t : TableDesc) (j : RowJob) : List Nat :=
  if fld j.desc.w0 0 4 = 3 then localRows s t (listedRows s j.desc (128 + tRec t)) else []

/-- Make the writes of a row job. -/
def runRowJob (s : State) (t : TableDesc) (j : RowJob) : State :=
  let d := j.desc
  match fld d.w0 0 4 with
  | 2 =>
    let mode := fld d.w0 44 2
    let s := if mode = 0 then s else clearPins s t
    (jobRows s t j).foldl (fun s l => pinRow s t l) s
  | 3 =>
    let size := 128 + tRec t
    (List.range (fld d.w2 0 40)).foldl (fun s i =>
      let a := fld d.w1 0 48 + size * i
      let r := readN s a 8 % 2 ^ 40
      let x := loadBytes s (a + 128) (tRec t)
      writeRecord x.1 t (ownerOf s t r).2 x.2) s
  | _ =>
    let withState := d.w0.getLsbD 44
    (exportRows s t d).zipIdx.foldl (fun s (r, i) => exportRow s t withState (fld d.w1 0 48 + exportBytes t withState * i) r) s

/-- The destination range of an EXPORT. -/
def exportRange (s : State) (t : TableDesc) (d : Desc) : Nat × Nat :=
  (fld d.w1 0 48, exportBytes t (d.w0.getLsbD 44) * (exportRows s t d).length)

/-- A row job runs when its records are present and nobody fetches those it writes, its fence has passed, and its writes can take effect
(R116, R230, R265); absent records are fetched. -/
def tryRowJob (s : State) (j : RowJob) : State :=
  match tableOf s j.table with
  | none => s
  | some t =>
    if j.ran then s
    else
      let x := absentOf (fetchList s t j.desc) t (jobRows (fetchList s t j.desc) t j)
      let s := x.1
      let exports := fld j.desc.w0 0 4 == 4
      let fenced := exports && j.desc.w0.getLsbD 45 && !applyDone s j.table (j.desc.w4.extractLsb' 0 32)
      let r := exportRange s t j.desc
      if !x.2.isEmpty then x.2.foldl (fun s l => startFetch s j.table l) s
      else if fenced || ((importedRows s t j).any fun l => fetching s j.table l) || (exports && !landsNow s r.1 r.2) then s
      else
        let s := runRowJob s t j
        { s with rowJobs := s.rowJobs.map fun x => if x = j then { x with ran := true } else x }

/-- Whether a bank of a table is open for a step: from its opening until its commit (R305). -/
def bankBusy (s : State) (t : Nat) : Bool :=
  !(match tableOf s t with | some d => tFrozen s d | none => true) && [mget {} s.banks (2 * t), mget {} s.banks (2 * t + 1)].any fun b => b.state != 0 && !b.committed

/-- The fault of an accepted row descriptor (R225, R263, R264). DEDUCED (log 138): a destination outside the program's windows or in a
record region is an address fault. -/
def rowFault (s : State) (kind : Nat) (t : TableDesc) (d : Desc) : Nat :=
  match kind with
  | 3 =>
    let rows := listedRows s d (128 + tRec t)
    if rows.any fun r => decide (tRows t ≤ r) || (ownerOf s t r).1 != s.rank then 0x37
    else if bankBusy s (dTable d) then 0x38 else 0
  | 4 =>
    let r := exportRange s t d
    if fld d.w5 0 48 < r.2 then 0x39 else if r.2 ≠ 0 ∧ mayOutput s r.1 r.2 = false then 0x07 else 0
  | _ => 0

/-- A PIN, IMPORT or EXPORT reaches the Teasel unit of its core (R133, R262): refused, or accepted and run as soon as it may. -/
def rowDesc (kind c : Nat) (d : Desc) (psn : Bool) (s : State) : State :=
  let unit := c / 8
  let step := (descPlace s c none d).step
  let op := opidDesc (dId d) step
  if !arrives s c none d psn then s
  else if psn then biteDesc s c unit d
  else
    let s := freePlace s c none d
    if rowReserved kind d then teaselFault s unit 0x02 op
    else
    match tableOf s (dTable d) with
    | none => teaselFault s unit 0x02 op
    | some t =>
      let s := fetchList s t d
      let code := rowFault s kind t d
      if code ≠ 0 then teaselFault s unit code op
      else
        let j : RowJob := ⟨dId d, rTok d, rCore d, dTable d, d, unit, step, false⟩
        tryRowJob { s with rowJobs := s.rowJobs ++ [j] } j

/-- PIN_IMPORT_EXPORT_COMPLETE (R262): the last write has taken effect; the token is added. -/
def rowComplete (descId : BitVec 16) (tok : BitVec 6) (c : Nat) (s : State) : State :=
  let here := fun (j : RowJob) => j.descId == descId && j.tok == tok && j.core == c
  match s.rowJobs.find? here with
  | none => s
  | some j =>
    let s := tryRowJob s j
    match s.rowJobs.find? here with
    | some j => if j.ran then { s with rowJobs := s.rowJobs.erase j }.addToken c tok.toNat 1 else s
    | none => s

/-! ### Tier fetches (R230 to R232) -/

/-- TIER_FETCH_COMPLETE (R230, R231): the record's image is written and its presence bit set; what waits goes on. -/
def tierComplete (t l q : Nat) (image : List Byte) (s : State) : State :=
  match tableOf s t with
  | none => s
  | some d =>
    if image.length ≠ tRec d then s
    else
      match s.fetches.find? fun f => f.table == t && f.lidx == l && f.seq == q with
      | none => { s with late := satAdd 32 s.late 1 }
      | some f =>
        let s := { s with fetches := s.fetches.erase f }
        let s := writeRecord s d l (clean image)
        let s := match f.prefetch with | some b => installRow s d l (some (b.toNat % 8)) false | none => s
        onward (s.rowJobs.foldl tryRowJob s)

/-- Whether a row job waits on record l: it needs the record, or writes it while it is fetched (R230). -/
def waitsOn (s : State) (d : TableDesc) (l : Nat) (j : RowJob) : Bool :=
  j.table == tId d && !j.ran && ((jobRows s d j).contains l || (importedRows s d j).contains l)

/-- TIER_FETCH_TIMEOUT (R232): the record stays absent, and every access that waits on it completes failed. -/
def tierTimeout (t l : Nat) (s : State) : State :=
  match tableOf s t, s.fetches.find? fun f => f.table == t && f.lidx == l with
  | some d, some f =>
    if s.tierTmo = 0 ∨ s.cycle < f.start + cyclesOfUs s.tierTmo.toNat then s
    else
      let s := { s with fetches := s.fetches.erase f }
      let s := s.emit { code := 0x36, uclass := 7, uinst := vaultOf (recordAddr d l), addr := recordAddr d l }
      let onL := fun (w : WaitingPayload) => w.msg.rows.contains l && s.counts.any fun c =>
        c.requester == w.msg.requester && c.descId == w.msg.descId && c.batch == w.msg.batch && c.table == t
      let (hit, rest) := s.waitingPayloads.partition onL
      let s := hit.foldl (fun s w => failPayload s w.msg 0x36) { s with waitingPayloads := rest }
      let applies := [2 * t, 2 * t + 1].filter fun k => mget 0 (mget {} s.banks k).used l != 0 && !(mget {} s.banks k).ran
      let s := applies.foldl (fun s k =>
        let b : Bank := mget {} s.banks k
        { b.applies.foldl (fun s x => teaselFault s x.unit 0x36 (opidDesc x.descId b.step)) s with
          banks := mset {} s.banks k { b with applies := [] } }) s
      let jobs := s.rowJobs.filter (waitsOn s d l)
      let s := jobs.foldl (fun s j => teaselFault s j.unit 0x36 (opidDesc j.descId j.step)) s
      onward { s with rowJobs := s.rowJobs.filter fun j => !jobs.contains j }
  | _, _ => s

/-- BACKGROUND_TIER_FETCH (R231): the next absent record of a tiered table in ascending local index. -/
def backgroundFetch (t : Nat) (s : State) : State :=
  match tableOf s t with
  | none => s
  | some d =>
    if !s.jobRuns || !tTier d then s
    else
      match (List.range (tLrows d)).find? fun l => !present s d l && !fetching s t l with
      | some l => startFetch (fetchRange s (tPbase d + l / 8) 1) t l
      | none => s

/-! ### The commands -/

/-- LOOKUP (R240). -/
def execLookup (c : CoreId) (d : Desc) (poisoned : Bool) (s : State) : Result :=
  .next (if s.live && !s.stopped then lookupDesc c.val d poisoned s else s)
/-- PIN (R260). -/
def execPin (c : CoreId) (d : Desc) (poisoned : Bool) (s : State) : Result :=
  .next (if s.live && !s.stopped then rowDesc 2 c.val d poisoned s else s)
/-- IMPORT (R263). -/
def execImportRows (c : CoreId) (d : Desc) (poisoned : Bool) (s : State) : Result :=
  .next (if s.live && !s.stopped then rowDesc 3 c.val d poisoned s else s)
/-- EXPORT (R264, R265). -/
def execExportRows (c : CoreId) (d : Desc) (poisoned : Bool) (s : State) : Result :=
  .next (if s.live && !s.stopped then rowDesc 4 c.val d poisoned s else s)
/-- PREFETCH_MESSAGE (R239). -/
def execPrefetchMessage (m : PrefetchMsg) (s : State) : Result := .next (if s.live && !s.stopped then prefetchMessage m s else s)
/-- COUNT_MESSAGE (R243). -/
def execCountMessage (m : CountMsg) (s : State) : Result := .next (if s.live && !s.stopped then countMessage m s else s)
/-- LOOKUP_PAYLOAD (R248). -/
def execLookupPayload (m : PayloadMsg) (e : EngineId) (fault : UnitFault) (s : State) : Result :=
  .next (if s.live && !s.stopped then lookupPayload m e.val fault s else s)
/-- LOOKUP_RESPONSE (R250). -/
def execLookupResponse (m : RespMsg) (s : State) : Result := .next (if s.live && !s.stopped then lookupResponse m s else s)
/-- LOOKUP_COMPLETE (R253). -/
def execLookupComplete (batch : BitVec 32) (descId : BitVec 16) (s : State) : Result :=
  .next (if s.live && !s.stopped then lookupComplete batch descId s else s)
/-- TIER_FETCH_COMPLETE (R230). -/
def execTierFetchComplete (table lidx : Nat) (image : TierImage) (s : State) : Result :=
  .next (if s.live && !s.stopped then tierComplete table lidx image.seq image.bytes s else s)
/-- TIER_FETCH_TIMEOUT (R232). -/
def execTierFetchTimeout (table lidx : Nat) (s : State) : Result :=
  .next (if s.live && !s.stopped then tierTimeout table lidx s else s)
/-- BACKGROUND_TIER_FETCH (R231). -/
def execBackgroundTierFetch (table : Nat) (s : State) : Result :=
  .next (if s.live && !s.stopped then backgroundFetch table s else s)
/-- PIN_IMPORT_EXPORT_COMPLETE (R262). -/
def execPinImportExportComplete (descId : BitVec 16) (tok : BitVec 6) (c : CoreId) (s : State) : Result :=
  .next (if s.live && !s.stopped then rowComplete descId tok c.val s else s)

end Sys2Proof.Machine
end

