-- ==== Sys2Proof/Machine/Ledger.lean ====
section
/-!
DEFINITION. The ledger (R270 to R298, R302 to R304): contributions and their conversion, folds, the seal and its decision, COMMIT and the
lifecycle of a bank.
-/

namespace Sys2Proof.Machine

/-! ### The parameter block (R276) -/

/-- Words of a parameter block. -/
structure Params where
  w0 : Word
  w1 : Word
  w2 : Word
  w3 : Word
  deriving DecidableEq, Repr

/-- Words 0 to 3 of the parameter block of a table. -/
def paramsOf (s : State) (t : TableDesc) : Params := ⟨paramWord s t 0, paramWord s t 1, paramWord s t 2, paramWord s t 3⟩

/-- The reads of the parameter block of a table (R193). -/
def fetchParams (s : State) (t : TableDesc) : State := fetchRange s (tPblk t) 64

/-- OPT. -/
def Params.opt (p : Params) : Nat := fld p.w0 0 4
/-- The state format as a code of R152. -/
def Params.sfmt (p : Params) : Nat := if p.w0.getLsbD 4 then 2 else 0
/-- NACT: 0 skip, 1 clip, 2 halt. -/
def Params.nact (p : Params) : Nat := fld p.w0 9 2
/-- X0. -/
def Params.x0 (p : Params) : Int := signed 16 (fld p.w0 16 16)
/-- TENSOR. -/
def Params.tensor (p : Params) : Nat := fld p.w0 32 32
/-- An FP32 field of a parameter block as a number. -/
def f32At (w : Word) (lo : Nat) : XNum := fFP32.decode (fld w lo 32)
/-- LR. -/
def Params.lr (p : Params) : XNum := f32At p.w1 0
/-- WD. -/
def Params.wd (p : Params) : XNum := f32At p.w1 32
/-- B1. -/
def Params.b1 (p : Params) : XNum := f32At p.w2 0
/-- B2. -/
def Params.b2 (p : Params) : XNum := f32At p.w2 32
/-- EPS. -/
def Params.eps (p : Params) : XNum := f32At p.w3 0
/-- NCEIL. -/
def Params.nceil (p : Params) : XNum := f32At p.w3 32

/-- LBASE. -/
def lBase (s : State) (t : TableDesc) : Nat := fld (paramWord s t 4) 0 48
/-- LCAP. -/
def lCap (s : State) (t : TableDesc) : Nat := fld (paramWord s t 5) 0 32
/-- AUX. -/
def lAux (s : State) (t : TableDesc) : Nat := fld (paramWord s t 6) 0 48

/-- Whether a parameter block holds a reserved encoding (R276). -/
def paramReserved (s : State) (t : TableDesc) : Bool :=
  let p := paramsOf s t
  decide (6 < p.opt) || p.nact == 3 || strayBits p.w0 [(0, 11), (16, 48)] || strayBits (paramWord s t 4) [(0, 48)] ||
    strayBits (paramWord s t 5) [(0, 32)] || strayBits (paramWord s t 6) [(0, 48)] || strayBits (paramWord s t 7) [(0, 4), (8, 8)] ||
    decide (8 < fld (paramWord s t 7) 0 4)

/-- Whether NCEIL is refused at a SEAL: negative or NaN (R289). -/
def nceilBad (p : Params) : Bool := p.nceil.isNan || (p.nceil.sign && !p.nceil.isZero)

/-- The trained tables of the program, in the order of their ids. -/
def trained (s : State) : List TableDesc :=
  match s.prog with
  | some p =>
    let ts := p.tables.filter fun t => (paramsOf s t).opt != 0
    (sortNats (ts.map tId)).filterMap fun i => ts.find? fun t => tId t == i
  | none => []

/-- The owners of a trained table (R283): a replicated table is owned by every device of the job. -/
def ledgerOwners (s : State) (t : TableDesc) : List Nat := if tSharded t then ownersOf s t else List.range (jobSize s)

/-- Whether this device owns a range of the table. -/
def ownsRange (s : State) (t : TableDesc) : Bool := (ledgerOwners s t).contains s.rank

/-! ### The ledger region (R277, R279, R280) -/

/-- The device address of vault-local offset o (R277). -/
def ledgerAddr (base v o : Nat) : Nat := base + 1048576 * (o / 16384) + 16384 * v + o % 16384

/-- Bytes of a slot, S. -/
def slotBytes (t : TableDesc) : Nat := 64 + 8 * tDim t
/-- Bytes of a bank in a vault, Bv. -/
def bankBytes (s : State) (t : TableDesc) : Nat := 128 + lCap s t * (16 + slotBytes t)
/-- The offset of slot k of bank b. -/
def slotOffset (s : State) (t : TableDesc) (b k : Nat) : Nat := b * bankBytes s t + 128 + 16 * lCap s t + k * slotBytes t
/-- The bytes of a ledger region from LBASE. -/
def ledgerRegion (s : State) (t : TableDesc) : Nat := 1048576 * ceilDiv (2 * bankBytes s t) 16384

/-- The contiguous pieces of `n` bytes at offset o: address and length. `fuel` bounds them. -/
def ledgerPieces (base v : Nat) : Nat → Nat → Nat → List (Nat × Nat)
  | 0, _, _ => []
  | f + 1, o, n =>
    if n = 0 then []
    else
      let m := min n (16384 - o % 16384)
      (ledgerAddr base v o, m) :: ledgerPieces base v f (o + m) (n - m)

/-- The pieces of a range of a vault's part of a ledger. -/
def piecesOf (base v o n : Nat) : List (Nat × Nat) := ledgerPieces base v (n / 16384 + 2) o n

/-- Read a range of a ledger. -/
def ledgerRead (s : State) (base v o n : Nat) : State × List PByte :=
  (piecesOf base v o n).foldl (fun (x : State × List PByte) (a, m) =>
    let r := loadBytes x.1 a m
    (r.1, x.2 ++ r.2)) (s, [])

/-- Write a range of a ledger. -/
def ledgerWrite (s : State) (base v o : Nat) (bs : List PByte) : State :=
  ((piecesOf base v o bs.length).foldl (fun (x : State × List PByte) (a, m) => (store x.1 a (x.2.take m), x.2.drop m)) (s, bs)).1

/-- Z56 1.0. -/
def oneZ56 : Word := BitVec.ofNat 64 (toZ56 (.fin false 1 0))

/-- Word 0 of the bank head. -/
def headWord0 (b : Bank) : Nat := b.step.toNat + b.state.toNat * 2 ^ 32 + b.decide.toNat * 2 ^ 35

/-- Write bytes into the bank head of every vault (R280). -/
def writeHeads (s : State) (t : TableDesc) (step : BitVec 32) (o : Nat) (bs : List Byte) : State :=
  (List.range 64).foldl (fun s v => ledgerWrite s (lBase s t) v (step.toNat % 2 * bankBytes s t + o) (clean bs)) s

/-- Write word 0 of the bank heads: STEP, STATE and DECIDE. -/
def writeState (s : State) (t : TableDesc) (step : BitVec 32) : State :=
  writeHeads s t step 0 (toBytes 8 (headWord0 (s.bank (tId t) step)))

/-- Write the bank heads at the decision, with the copy of the parameter block (R280). -/
def writeDecision (s : State) (t : TableDesc) (step : BitVec 32) : State :=
  let b := s.bank (tId t) step
  let p := paramsOf s t
  let s := writeHeads s t step 0
    (toBytes 8 (headWord0 b) ++ toBytes 8 (unsigned 16 b.xs + unsigned 16 b.xn * 2 ^ 16) ++ toBytes 8 b.k.toNat ++ toBytes 8 b.trows)
  writeHeads s t step 64 ([p.w0, p.w1, p.w2, p.w3].flatMap fun w => toBytes 8 w.toNat)

/-- The reads of the copy of the parameter block in the bank head of vault 0 (R193, R280). -/
def fetchHead (s : State) (t : TableDesc) (step : BitVec 32) : State :=
  (ledgerRead s (lBase s t) 0 (step.toNat % 2 * bankBytes s t + 64) 32).1

/-- The parameter words that a bank head keeps since its seal. -/
def sealedParams (s : State) (t : TableDesc) (step : BitVec 32) : Params :=
  let w := fun i => BitVec.ofNat 64 (readN s (ledgerAddr (lBase s t) 0 (step.toNat % 2 * bankBytes s t + 64 + 8 * i)) 8)
  ⟨w 0, w 1, w 2, w 3⟩

/-- A slot as it is read: its head's low word, its elements with their marks, and the number of its poisoned granules. -/
structure SlotRead where
  head : Nat
  bytes : List PByte
  psn : Bool

/-- NF of a slot. -/
def SlotRead.nf (r : SlotRead) : Bool := r.head.testBit 40
/-- DONE of a slot. -/
def SlotRead.done (r : SlotRead) : Bool := r.head.testBit 41
/-- The L64 elements of a slot. -/
def SlotRead.elems (r : SlotRead) (n : Nat) : List Int :=
  (List.range n).map fun i => signed 64 (fromBytes (((r.bytes.drop (64 + 8 * i)).take 8).map (·.1)))

/-- The vault of a row's record, which holds its ledger slot too. -/
def rowVault (t : TableDesc) (l : Nat) : Nat := vaultOf (recordAddr t l)

/-- Read the slot of local row l. -/
def readSlot (s : State) (t : TableDesc) (step : BitVec 32) (l : Nat) : State × SlotRead :=
  let k := mget 0 (s.bank (tId t) step).used l - 1
  let r := ledgerRead s (lBase s t) (rowVault t l) (slotOffset s t (step.toNat % 2) k) (slotBytes t)
  (r.1, ⟨fromBytes ((r.2.take 8).map (·.1)), r.2, r.2.any (·.2)⟩)

/-- Write the first bytes of the slot of local row l. -/
def writeSlot (s : State) (t : TableDesc) (step : BitVec 32) (l : Nat) (bs : List PByte) : State :=
  let k := mget 0 (s.bank (tId t) step).used l - 1
  ledgerWrite s (lBase s t) (rowVault t l) (slotOffset s t (step.toNat % 2) k) bs

/-! ### Contributions (R270 to R273) -/

/-- A gradient vector as it is read or received: its elements and their marks. -/
structure GradVec where
  vals : List XNum
  psn : List Bool

/-- c_p of a position (R270). -/
def positionContrib (pool len : Nat) (w : BitVec 32) (g : XNum) : XNum :=
  match pool with
  | 1 => divZ56 g (XNum.ofInt len 0)
  | 2 => rZ56 ((fFP32.decode w.toNat).mul g)
  | _ => g

/-- C(g, r): its bag, its row as the lists name it, and its elements (R271). -/
structure Contribution where
  bag : Nat
  row : Nat
  vals : List XNum
  psn : List Bool

/-- The contributions of a list of positions, in ascending order (R270, R271). -/
def contributions (pool n : Nat) (lenOf : Nat → Nat) (grad : Nat → GradVec) (es : List Position) : List Contribution :=
  ((es.map fun e => (e.bag, e.ord)).eraseDups).map fun (g, r) =>
    let mine := es.filter fun e => e.bag == g && e.ord == r
    let key := fun (e : Position) => if pool = 3 then e.pos else e.bag
    { bag := g, row := r,
      vals := mine.foldl (fun q e => (List.range n).map fun i =>
        addZ56 (nth q i XNum.zero) (positionContrib pool (lenOf g) e.weight (nth (grad (key e)).vals i XNum.zero)))
        (List.replicate n XNum.zero),
      psn := (List.range n).map fun i => mine.any fun e => nth (grad (key e)).psn i false }

/-- The largest magnitude of a converted element (R272). -/
def clipBound : Nat := 2 ^ 39 - 1

/-- One conversion to L64 at quantum 2^x with its draw (R272): the integer, and whether it clipped. -/
def convertL64 (x : Int) (w : Nat) : XNum → Int × Bool
  | .fin sg n e =>
    let m := roundQ .sr w n e x
    let c := min m clipBound
    (if sg then -(c : Int) else c, decide (clipBound < m))
  | _ => (0, false)

/-- A converted contribution: integers, the number of non-finite elements and of clips, and the largest exponent. -/
structure Converted where
  ints : List Int
  nf : Nat
  clips : Nat
  emax : Option Int

/-- The larger of two exponents. -/
def maxExp : Option Int → Option Int → Option Int
  | some a, some b => some (max a b)
  | none, b => b
  | a, none => a

/-- The exponent of a finite non-zero value (R274). -/
def exponentOf : XNum → Option Int
  | .fin _ n e => if n = 0 then none else some (flog2 n e)
  | _ => none

/-- The conversion of C(g, r) for global row r of table t at step s, from sample `src` (R272). -/
def convertRow (seed t step : Nat) (x : Int) (r src : Nat) (vals : List XNum) : Converted :=
  let id : DrawId := ⟨seed, 2, step, t, src % 2 ^ 16⟩
  let per := ceilDiv vals.length 8
  let cs := vals.zipIdx.map fun (v, i) => convertL64 x (drawAt id (r * per + i / 8) (i % 8)) v
  ⟨cs.map (·.1), countNf vals, (cs.filter (·.2)).length, (vals.map exponentOf).foldl maxExp none⟩

/-! ### Late contributions and folds (R287, R297) -/

/-- Whether the bank of a step is open. -/
def bankIsOpen (s : State) (t : Nat) (step : BitVec 32) : Bool := (s.bank t step).step == step && (s.bank t step).state == 1

/-- Whether the bank of a step has been sealed, or has passed that step. -/
def bankPast (s : State) (t : Nat) (step : BitVec 32) : Bool :=
  let b := s.bank t step
  (b.step == step && (decide (2 ≤ b.state.toNat) || b.committed)) || decide (step.toNat < b.step.toNat)

/-- A late message (R297): discarded with its record; the bank remembers it. -/
def lateMessage (s : State) (t : Nat) (step : BitVec 32) : State :=
  (s.emit { code := 0x46, uclass := 0, uinst := 0 }).modBank t step fun b => if b.step = step then { b with late := true } else b

/-- Slots used of a bank in a vault. -/
def usedIn (t : TableDesc) (b : Bank) (v : Nat) : Nat := (b.used.filter fun e => rowVault t e.1 == v).length

/-- Allocate the slot of local row l at its first fold (R287, R303): the next free slot, zeroed, with its LIDX. -/
def allocateSlot (s : State) (t : TableDesc) (step : BitVec 32) (l : Nat) : State :=
  let v := rowVault t l
  let k := usedIn t (s.bank (tId t) step) v
  let s := s.modBank (tId t) step fun b => { b with used := mset 0 b.used l (k + 1) }
  let s := s.modVault v fun u =>
    { u with ledUsed := satAdd 32 u.ledUsed 1, hwm := BitVec.ofNat 32 (max u.hwm.toNat (k + 1)) }
  writeSlot s t step l (clean (toBytes 8 (l % 2 ^ 40) ++ List.replicate (slotBytes t - 8) 0))

/-- Add elements to a slot's bytes, each 64-bit sum wrapping, with the marks joined (R287). -/
def addElems (old : List PByte) (elems : List Word) (psn : List Bool) : List PByte :=
  (elems.zipIdx.map fun (x, i) =>
    let here := (old.drop (64 + 8 * i)).take 8
    let sum := (fromBytes (here.map (·.1)) + x.toNat) % 2 ^ 64
    (toBytes 8 sum).map fun b => (b, nth psn i false || here.any (·.2))).flatten

/-- Fold one record into the open bank of its step (R287). -/
def fold (s : State) (t : TableDesc) (step : BitVec 32) (l : Nat) (nf : Bool) (elems : List Word) (psn : List Bool) : State :=
  let v := rowVault t l
  let has := mget 0 (s.bank (tId t) step).used l != 0
  if !has && decide (lCap s t ≤ usedIn t (s.bank (tId t) step) v) then
    (s.emit { code := 0x45, uclass := 7, uinst := v }).modBank (tId t) step fun b => { b with capFault := true }
  else
    let s := if has then s else allocateSlot s t step l
    let r := readSlot s t step l
    let head := toBytes 8 (r.2.head ||| (if nf then 2 ^ 40 else 0))
    let mark := (r.2.bytes.take 8).any (·.2)
    writeSlot r.1 t step l (marked mark head ++ (r.2.bytes.drop 8).take 56 ++ addElems r.2.bytes elems psn)

/-- A record to fold, with what its conversion counted. -/
structure FoldRec where
  lidx : Nat
  nf : Bool
  elems : List Word
  psn : List Bool

/-- The word of a 64-bit integer. -/
def wordOf (i : Int) : Word := BitVec.ofInt 64 i

/-- The kept payload of a lookup (R285). -/
def keptPayload (s : State) (m : ContribMsg) : Option PayloadMsg :=
  s.payloads.find? fun p => p.requester == m.source && p.batch == m.batch && p.descId == m.descId

/-- Convert a bag-mode message at the owner and fold it (R285): clips and non-finite conversions count at the row's unit. -/
def foldBags (s : State) (t : TableDesc) (m : ContribMsg) : State :=
  match keptPayload s m, lookupOf s m.batch m.descId with
  | some p, some lk =>
    let pool := lPool lk.desc
    let recOf := fun k => (m.records.find? fun r => r.key == k).getD ⟨k, 0, false, [], []⟩
    let grad := fun k => (⟨(recOf k).elems.map fun w => ofZ56 w.toNat, (recOf k).psn⟩ : GradVec)
    let ps := positionsOf p
    let bagLen := fun g => match ps.find? fun e => e.bag == g with
      | some e => (recOf (if pool = 3 then e.pos else g)).len | none => 0
    let here := ps.filter fun e => m.records.any fun r => r.key == (if pool = 3 then e.pos else e.bag)
    (contributions pool (tDim t) bagLen grad here).foldl (fun s c =>
      let l := nth p.rows c.row 0
      let v := rowVault t l
      let b := s.bank (tId t) m.batch
      let x := convertRow s.seed (tId t) m.batch.toNat b.xs (globalRow s t l) (m.sbase.toNat + c.bag) c.vals
      let s := s.modVault v fun u => { u with clip := satAdd 16 u.clip x.clips, numCnt := u.numCnt.count s.cycle 0 x.nf }
      let s := s.modBank (tId t) m.batch fun b => { b with ed := maxExp b.ed x.emax }
      fold s t m.batch l (x.nf != 0) (x.ints.map wordOf) c.psn) s
  | _, _ => s

/-- The totals with one slot's part added (R288 step 4): NF set counts the row, a poisoned slot counts for nothing. -/
def addSlot (n : Nat) (a : SealTotals) (r : SlotRead) : SealTotals :=
  if r.nf then { a with nfRows := a.nfRows + 1 }
  else if r.psn then a
  else { a with rows := a.rows + 1, q := (List.range n).map fun j => nth a.q j 0 + nth (r.elems n) j 0 ^ 2 }

/-- The exact totals over the bank's finite unpoisoned slots (R288 step 4), and the state after the reads. -/
def sealTotals (s : State) (t : TableDesc) (step : BitVec 32) : State × SealTotals :=
  let b := s.bank (tId t) step
  b.used.foldl (fun (x : State × SealTotals) e =>
    let r := readSlot x.1 t step e.1
    (r.1, addSlot (tDim t) x.2 r.2)) (s, ⟨b.ed, List.replicate (tDim t) 0, 0, 0⟩)

/-- Whether every end marker has come and every message they count (R288 step 3). -/
def markersDone (s : State) (b : Bank) : Bool :=
  (List.range (jobSize s)).all fun d => b.markers.any fun m => m.1 == d && m.2 == mget 0 b.got d

/-- The bank of a step is sealed when its SEAL has been issued and its contributions are complete (R288 step 3): STATE, and this device's
part of the totals goes out to the job. -/
def trySeal (s : State) (t : TableDesc) (step : BitVec 32) : State :=
  let b := s.bank (tId t) step
  if bankIsOpen s (tId t) step && b.sealIssued && (!ownsRange s t || markersDone s b) then
    let x := sealTotals s t step
    let s := writeState (x.1.modBank (tId t) step fun b => { b with state := 2, totals := x.2 }) t step
    ship s (.sealReduce (tId t) step x.2)
  else s

/-- A contribution message at its owner (R286, R287, R297). -/
def contributionArrives (m : ContribMsg) (s : State) : State :=
  match tableOf s m.table with
  | none => s
  | some t =>
    if (paramsOf s t).opt = 0 ∨ ownsRange s t = false then s
    else if bankPast s m.table m.batch then releaseTo (lateMessage s m.table m.batch) m.source m.image.length
    else if !bankIsOpen s m.table m.batch then { s with waitingFolds := s.waitingFolds ++ [m] }
    else
      let b := s.bank m.table m.batch
      let got := mget 0 b.got m.source
      if b.markers.any fun x => x.1 == m.source && decide (x.2 ≤ got) then
        releaseTo (lateMessage s m.table m.batch) m.source m.image.length
      else
        let s := s.modBank m.table m.batch fun b => { b with got := mset 0 b.got m.source (got + 1) }
        let s := if m.bag then foldBags s t m
          else m.records.foldl (fun s r => fold s t m.batch r.key r.nf r.elems r.psn) s
        trySeal (releaseTo s m.source m.image.length) t m.batch

/-- An end marker at an owner (R288, R297). -/
def markerArrives (m : EndMarker) (s : State) : State :=
  match tableOf s m.table with
  | none => s
  | some t =>
    if (paramsOf s t).opt = 0 ∨ ownsRange s t = false then s
    else if bankPast s m.table m.step then releaseTo (lateMessage s m.table m.step) m.source 64
    else if !bankIsOpen s m.table m.step then { s with waitingMarkers := s.waitingMarkers ++ [m] }
    else
      let b := s.bank m.table m.step
      if (b.markers.any fun x => x.1 == m.source) || decide (m.count < mget 0 b.got m.source) then
        releaseTo (lateMessage s m.table m.step) m.source 64
      else
        let s := s.modBank m.table m.step fun b => { b with markers := b.markers ++ [(m.source, m.count)] }
        trySeal (releaseTo s m.source 64) t m.step

/-! ### GRAD (R281 to R284) -/

/-- RET: bag mode. -/
def gBag (d : Desc) : Bool := d.w0.getLsbD 43
/-- GFMT as a code of R152. -/
def gFmt (d : Desc) : Nat := if d.w0.getLsbD 44 then 7 else 0
/-- SRC. -/
def gSrc (d : Desc) : Nat := fld d.w1 0 48
/-- PITCH. -/
def gPitch (d : Desc) : Nat := fld d.w2 0 32
/-- SBASE. -/
def gSbase (d : Desc) : Nat := fld d.w2 32 32
/-- LDESC. -/
def gLdesc (d : Desc) : BitVec 16 := d.w3.extractLsb' 0 16
/-- BATCH of a GRAD. -/
def gBatch (d : Desc) : BitVec 32 := d.w3.extractLsb' 32 32
/-- STEP of a SEAL, APPLY or COMMIT. -/
def dStep (d : Desc) : BitVec 32 := d.w2.extractLsb' 0 32

/-- Whether a ledger descriptor breaks R18 (R281). -/
def ledgerReserved (kind : Nat) (d : Desc) : Bool :=
  fld d.w0 0 4 != kind ||
    match kind with
    | 5 => strayBits d.w0 [(0, 45)] || strayBits d.w1 [(0, 48)] || strayBits d.w3 [(0, 16), (32, 32)] || wordsFrom d 4
    | 7 => strayBits d.w0 [(0, 44)] || d.w1 != 0 || strayBits d.w2 [(0, 32)] || wordsFrom d 3
    | 8 => strayBits d.w0 [(0, 4), (16, 27)] || strayBits d.w1 [(0, 48)] || strayBits d.w2 [(0, 32)] || wordsFrom d 3
    | _ => strayBits d.w0 [(0, 43)] || d.w1 != 0 || strayBits d.w2 [(0, 32)] || wordsFrom d 3

/-- Whether a waiting SEAL names a table and step, one that was issued before cycle `sent`. -/
def sealWaits (s : State) (t : Nat) (step : BitVec 32) (sent : Nat) : Bool :=
  s.waitingGrads.any fun w => fld w.desc.w0 0 4 == 6 && dTable w.desc == t && dStep w.desc == step && decide (w.sent < sent)

/-- Whether the SEAL of a table and step has gone on from this device: its end markers are out, or the bank has passed the step. -/
def sealGone (s : State) (t : Nat) (step : BitVec 32) : Bool :=
  bankPast s t step || ((s.bank t step).step == step && (s.bank t step).sealIssued)

/-- Whether the step of a batch has committed on this device: its lookups completed, and every SEAL of it was issued (R282, R302). -/
def committedStep (s : State) (step : BitVec 32) : Bool :=
  match s.job with | some j => j.lastCommit.any fun c => decide (step.toNat ≤ c.toNat) | none => false

/-- The fault of a GRAD sent in cycle `sent` (R282): 0 for none. -/
def gradFault (s : State) (d : Desc) (sent : Nat) : Nat :=
  match lookupOf s (gBatch d) (gLdesc d), tableOf s (dTable d) with
  | some l, some t =>
    let n := lOutputs l.desc (partOf s l.desc)
    let vec := elemBytes (gFmt d) * tDim t
    if !l.outDone || dTable l.desc != dTable d || (paramsOf s t).opt == 0 || (gBag d && !tSharded t) || gPitch d % 8 != 0 ||
        decide (gPitch d < vec) || (n != 0 && !inProgram s (gSrc d) ((n - 1) * gPitch d + vec)) then 0x43
    else if sealGone s (dTable d) (gBatch d) || sealWaits s (dTable d) (gBatch d) sent then 0x44 else 0
  | none, some t => if committedStep s (gBatch d) && !tFrozen s t && dTable d == tId t then 0x44 else 0x43
  | _, none => 0x43

/-- Read gradient vector k. -/
def readGrad (s : State) (t : TableDesc) (d : Desc) (k : Nat) : GradVec :=
  let eb := elemBytes (gFmt d)
  let bs := readP s (gSrc d + k * gPitch d) (eb * tDim t)
  let el := fun i => (bs.drop (eb * i)).take eb
  ⟨(List.range (tDim t)).map fun i => decodeElem (gFmt d) 0 (fromBytes ((el i).map (·.1))),
    (List.range (tDim t)).map fun i => (el i).any (·.2)⟩

/-- Send a contribution message to an owner, counted for the end marker (R283). -/
def sendContrib (s : State) (o : Nat) (m : ContribMsg) : State :=
  let s := s.modBank m.table m.batch fun b => { b with sent := mmod 0 b.sent o (· + 1) }
  if o = s.rank then contributionArrives m s else sendMsg s o m.image.length (.contrib o m)

/-- The position entries of a part, with the global row as the row's name. -/
def allEntries (x : Part) : List Position :=
  x.rows.zipIdx.map fun (r, p) => ⟨r, bagOf x.offsets p, p, nth x.weights p 0⟩

/-- The length of a bag. -/
def bagLength (x : Part) (g : Nat) : Nat := nth x.offsets (g + 1) 0 - nth x.offsets g 0

/-- The source records of a row-mode GRAD: global row, integers, non-finite mark, marks (R273). -/
structure SourceRec where
  row : Nat
  ints : List Int
  nf : Bool
  psn : List Bool

/-- Convert and add the contributions of a row-mode GRAD (R272, R273); the unit counts clips and non-finite elements (R307). -/
def sourceRecords (s : State) (unit : Nat) (t : TableDesc) (d : Desc) (cs : List Contribution) : State × List SourceRec :=
  let b := s.bank (tId t) (gBatch d)
  let conv := cs.map fun c => (c, convertRow s.seed (tId t) (gBatch d).toNat b.xs c.row (gSbase d + c.bag) c.vals)
  let s := s.modTeasel unit fun u =>
    { u with clip := satAdd 32 u.clip ((conv.map (·.2.clips)).sum), nfval := satAdd 32 u.nfval ((conv.map (·.2.nf)).sum) }
  let s := s.modBank (tId t) (gBatch d) fun b => { b with ed := (conv.map (·.2.emax)).foldl maxExp b.ed }
  let n := tDim t
  (s, (sortNats (cs.map (·.row))).map fun r =>
    let mine := conv.filter fun c => c.1.row == r
    { row := r, ints := (List.range n).map fun i => (mine.map fun c => nth c.2.ints i 0).sum, nf := mine.any fun c => c.2.nf != 0,
      psn := (List.range n).map fun i => mine.any fun c => nth c.1.psn i false })

/-- The owners of a row and its local index there (R283). -/
def rowOwners (s : State) (t : TableDesc) (r : Nat) : List (Nat × Nat) :=
  if tSharded t then [ownerOf s t r] else (List.range (jobSize s)).map fun o => (o, r)

/-- Send the row-mode messages of a GRAD. -/
def sendRows (s : State) (unit : Nat) (t : TableDesc) (d : Desc) (cs : List Contribution) : State :=
  let r := sourceRecords s unit t d cs
  let all := r.2.flatMap fun x => (rowOwners s t x.row).map fun (o, l) => (o, l, x)
  (sortNats (all.map (·.1))).foldl (fun s o =>
    let mine := all.filter fun y => y.1 == o
    let recs := (sortNats (mine.map (·.2.1))).filterMap fun l =>
      (mine.find? fun y => y.2.1 == l).map fun y => (⟨l, 0, y.2.2.nf, y.2.2.ints.map wordOf, y.2.2.psn⟩ : ContribRec)
    sendContrib s o ⟨gLdesc d, gBatch d, s.rank, tId t, false, 0, recs⟩) r.1

/-- Send the bag-mode messages of a GRAD: for each owner the vectors of the bags or positions of which it holds a row. -/
def sendBags (s : State) (t : TableDesc) (d : Desc) (pool : Nat) (x : Part) (grad : Nat → GradVec) : State :=
  let es := (allEntries x).map fun e => ((ownerOf s t e.ord).1, e)
  (sortNats (es.map (·.1))).foldl (fun s o =>
    let mine := (es.filter fun y => y.1 == o).map (·.2)
    let keys := sortNats (mine.map fun e => if pool = 3 then e.pos else e.bag)
    let recs := keys.map fun k =>
      let g := if pool = 3 then bagOf x.offsets k else k
      (⟨k, bagLength x g, false, (grad k).vals.map fun v => BitVec.ofNat 64 (toZ56 v), (grad k).psn⟩ : ContribRec)
    sendContrib s o ⟨gLdesc d, gBatch d, s.rank, tId t, true, BitVec.ofNat 32 (gSbase d), recs⟩) s

/-- Run a GRAD whose bank is open (R270 to R273, R282, R283): its place is freed, its source read, its token added, its messages sent. -/
def runGrad (s : State) (c : Nat) (d : Desc) : State :=
  let s := freePlace s c none d
  match lookupOf s (gBatch d) (gLdesc d), tableOf s (dTable d) with
  | some l, some t =>
    let x := partOf s l.desc
    let pool := lPool l.desc
    let s := (List.range (lOutputs l.desc x)).foldl (fun s k => fetchRange s (gSrc d + k * gPitch d) (elemBytes (gFmt d) * tDim t)) s
    let vecs := (List.range (lOutputs l.desc x)).map fun k => readGrad s t d k
    let grad := fun k => nth vecs k ⟨[], []⟩
    let s := if gBag d then sendBags s t d pool x grad
      else sendRows s l.unit t d (contributions pool (tDim t) (bagLength x) grad (allEntries x))
    s.addToken (rCore d) (rTok d).toNat 1
  | _, _ => s

/-- The unit that checks and runs a GRAD of core c (R242): that of the lookup it names; with no such lookup, the unit that receives it. -/
def gradUnit (s : State) (c : Nat) (d : Desc) : Nat :=
  match lookupOf s (gBatch d) (gLdesc d) with | some l => l.unit | none => c / 8

/-! ### SEAL (R288, R289) -/

/-- The token of a ledger descriptor of core c. -/
def ledgerTok (c : Nat) (d : Desc) : LedgerTok := ⟨c / 8, rCore d, rTok d, dId d⟩

/-- A SEAL whose bank is open and whose GRADs have sent their messages (R288 steps 2 and 3): end markers go to every owner, behind those
messages, then the bank is sealed when it is complete. -/
def runSeal (s : State) (c : Nat) (t : TableDesc) (d : Desc) : State :=
  let step := dStep d
  let s := s.modBank (tId t) step fun b => { b with sealIssued := true, sealTok := some (ledgerTok c d) }
  let sent := (s.bank (tId t) step).sent
  let s := (ledgerOwners s t).foldl (fun s o =>
    let m : EndMarker := ⟨tId t, step, s.rank, mget 0 sent o⟩
    if o = s.rank then markerArrives m s else sendMsg s o 64 (.marker o m)) s
  trySeal s t step

/-- Whether a GRAD of a table and step that this device issued no later than cycle `sent` still stands in a place (R288 step 1). -/
def gradsPending (s : State) (t : Nat) (step : BitVec 32) (sent : Nat) : Bool :=
  (List.range 32).any fun c => (s.core c).descs.any fun x =>
    x.eng.isNone && fld x.desc.w0 0 4 == 5 && dTable x.desc == t && gBatch x.desc == step && decide (x.cycle ≤ sent)

/-- The SEAL that waits for a table and step goes on when its bank is open and its GRADs are done. -/
def resumeSeal (s : State) (t : TableDesc) (step : BitVec 32) : State :=
  match s.waitingGrads.find? fun w => fld w.desc.w0 0 4 == 6 && dTable w.desc == tId t && dStep w.desc == step with
  | some w =>
    if bankIsOpen s (tId t) step && !gradsPending s (tId t) step w.sent then
      runSeal { s with waitingGrads := s.waitingGrads.erase w } w.core t w.desc
    else s
  | none => s

/-- The SEAL that may wait for a GRAD's end goes on. -/
def afterGrad (s : State) (d : Desc) : State :=
  match tableOf s (dTable d) with | some t => resumeSeal s t (gBatch d) | none => s

/-- GRAD (R242, R282): refused, held in its place until its bank opens, or run. -/
def gradDesc (c : Nat) (d : Desc) (psn : Bool) (s : State) : State :=
  let op := opidDesc (dId d) (gBatch d)
  if !arrives s c none d psn then s
  else if psn then afterGrad (biteDesc s c (c / 8) d) d
  else if ledgerReserved 5 d then teaselFault (freePlace s c none d) (c / 8) 0x02 op
  else
    let sent := (descPlace s c none d).cycle
    let code := gradFault s d sent
    if code ≠ 0 then afterGrad (teaselFault (freePlace s c none d) (gradUnit s c d) code op) d
    else if bankIsOpen s (dTable d) (gBatch d) then afterGrad (runGrad s c d) d
    else { s with waitingGrads := s.waitingGrads ++ [⟨c, d, sent⟩] }

/-- SEAL (R288): a second SEAL, or one of a table without a ledger, is refused; one whose bank is not open, or whose earlier GRADs have not
sent their messages, waits. -/
def sealDesc (c : Nat) (d : Desc) (psn : Bool) (s : State) : State :=
  let op := opidDesc (dId d) (dStep d)
  let sent := (descPlace s c none d).cycle
  if !arrives s c none d psn then s
  else if psn then biteDesc s c (c / 8) d
  else
    let s := freePlace s c none d
    if ledgerReserved 6 d then teaselFault s (c / 8) 0x02 op
    else
      match tableOf s (dTable d) with
      | none => teaselFault s (c / 8) 0x44 op
      | some t =>
        let second := sealGone s (dTable d) (dStep d) ||
          s.waitingGrads.any fun w => fld w.desc.w0 0 4 == 6 && dTable w.desc == dTable d && dStep w.desc == dStep d
        if tFrozen s t || second then teaselFault s (c / 8) 0x44 op
        else resumeSeal { s with waitingGrads := s.waitingGrads ++ [⟨c, d, sent⟩] } t (dStep d)

/-! ### BANK_OPEN (R286) -/

/-- What waited for a bank goes on: contributions, GRADs in order, markers, the SEAL. -/
def releaseBank (s : State) (t : TableDesc) (step : BitVec 32) : State :=
  let mine := fun (w : WaitingDesc) => fld w.desc.w0 0 4 == 5 && dTable w.desc == tId t && gBatch w.desc == step
  let folds := s.waitingFolds.filter fun m => m.table == tId t && m.batch == step
  let marks := s.waitingMarkers.filter fun m => m.table == tId t && m.step == step
  let grads := s.waitingGrads.filter mine
  let s := { s with
    waitingFolds := s.waitingFolds.filter fun m => !(m.table == tId t && m.batch == step)
    waitingMarkers := s.waitingMarkers.filter fun m => !(m.table == tId t && m.step == step)
    waitingGrads := s.waitingGrads.filter fun w => !mine w }
  let s := folds.foldl (fun s m => contributionArrives m s) s
  let s := grads.foldl (fun s w => runGrad s w.core w.desc) s
  resumeSeal (marks.foldl (fun s m => markerArrives m s) s) t step

/-- BANK_OPEN (R286): the scale is known and the bank is clear. -/
def bankOpens (tid : Nat) (step : BitVec 32) (s : State) : State :=
  match tableOf s tid, mget none s.scales tid with
  | some t, some x =>
    if x.step = step ∧ (s.bank tid step).state = 0 ∧ (paramsOf s t).opt ≠ 0 ∧ s.jobRuns then
      let s := s.modBank tid step fun _ => { step := step, state := 1, xs := x.x }
      releaseBank (writeState s t step) t step
    else s
  | _, _ => s

/-! ### The decision (R288 steps 5 and 6, R289, R298) -/

/-- N2 (R288). -/
def normSquared (xs : Int) (q : List Int) : XNum := XNum.ofInt q.sum (2 * xs)

/-- Whether the norm is above the ceiling: +0 and +infinity disable it. -/
def overCeiling (p : Params) (n2 : XNum) : Bool :=
  !p.nceil.isZero && p.nceil.finite && (p.nceil.mul p.nceil).lt n2

/-- DECIDE (R288): 0 apply, 1 apply clipped, 2 skip, 3 halt. -/
def decision (p : Params) (n2 : XNum) (nfRows : Nat) : BitVec 2 :=
  let high := overCeiling p n2
  let nf := decide (nfRows ≠ 0)
  match p.nact with
  | 0 => if nf || high then 2 else 0
  | 1 => if high then 1 else 0
  | _ => if nf || high then 3 else 0

/-- The clip factor k of a decision, in Z56. -/
def clipFactor (p : Params) (n2 : XNum) (dec : BitVec 2) : Word :=
  if dec = 1 then BitVec.ofNat 64 (toZ56 (divZ56 p.nceil (rZ56 n2.sqrt))) else oneZ56

/-- The column vector of OPT 0x5 after a SEAL (R298). -/
def newColumns (p : Params) (xs : Int) (q : List Int) (rows : Nat) (k : XNum) (col : List XNum) : List XNum :=
  let c2 := (XNum.fin false 1 0).sub p.b2
  let t := XNum.ofInt rows 0
  let col' := col.zipIdx.map fun (c, j) =>
    divZ56 (((p.b2.mul c).mul t).add (((c2.mul (XNum.ofInt (nth q j 0) (2 * xs))).mul k).mul k)) t
  col' ++ [divZ56 (col'.foldl XNum.add XNum.zero) (XNum.ofInt col.length 0)]

/-- Write the column vector (R298). -/
def writeColumns (s : State) (t : TableDesc) (p : Params) (xs : Int) (q : List Int) (rows : Nat) (k : Word) : State :=
  let s := fetchRange s (lAux s t) (8 * tDim t)
  let col := (List.range (tDim t)).map fun j => ofZ56 (readN s (lAux s t + 8 * j) 8)
  store s (lAux s t) (marked (poisonedIn s (lAux s t) (8 * tDim t)) ((newColumns p xs q rows (ofZ56 k.toNat) col).flatMap fun x => toBytes 8 (toZ56 x)))

/-- The fault of a SEAL at its decision (R289): 0 for none. -/
def sealFault (s : State) (t : TableDesc) (b : Bank) : Nat :=
  if paramReserved s t || nceilBad (paramsOf s t) then 0x41 else if b.capFault then 0x45 else if b.late then 0x46 else 0

/-- A total as five L64 limbs of 32 bits, the lowest first (R288 step 5). -/
def limbsOf (n : Int) : List Int := (List.range 5).map fun i => ((n.toNat / 2 ^ (32 * i) % 2 ^ 32 : Nat) : Int)

/-- The total that five limbs stand for. -/
def ofLimbs (l : List Int) : Int := (l.zipIdx.map fun (x, i) => x * 2 ^ (32 * i)).sum

/-- Two totals added limb by limb, as the exchange engines add them. -/
def addLimbs (a b : Int) : Int := ofLimbs ((limbsOf a).zipWith (· + ·) (limbsOf b))

/-- The totals of this device and those of the other devices of the job: the maximum of E and the exact sums (R288 step 5). -/
def addTotals (n : Nat) (a b : SealTotals) : SealTotals :=
  { emax := maxExp a.emax b.emax
    q := (List.range n).map fun j => addLimbs (nth a.q j 0) (nth b.q j 0)
    rows := (addLimbs a.rows b.rows).toNat
    nfRows := (addLimbs a.nfRows b.nfRows).toNat }

/-- The totals that decide (R288 step 5): of a sharded table the sums over every device, of a replicated one this device's own with the
maximum of E; `x` is what the other devices have. -/
def jobTotals (s : State) (t : TableDesc) (step : BitVec 32) (x : SealTotals) : SealTotals :=
  let own := (s.bank (tId t) step).totals
  if tSharded t then addTotals (tDim t) own x else { own with emax := maxExp own.emax x.emax }

/-! ### The commit (R302, R366) -/

/-- Whether the step's apply of a table is over on this device, or its seal decided skip. -/
def stepDone (s : State) (step : BitVec 32) (t : TableDesc) : Bool :=
  let b := s.bank (tId t) step
  b.step == step && b.decided && (b.state == 4 || b.decide == 2)

/-- Whether a seal of the step has decided halt. -/
def stepHalted (s : State) (step : BitVec 32) : Bool :=
  (trained s).any fun t => (s.bank (tId t) step).step == step && (s.bank (tId t) step).state == 5

/-- The step commit record (R302). -/
def commitRecord (s : State) (step : BitVec 32) : List Byte :=
  let ts := trained s
  let head := toBytes 64 (step.toNat + ts.length * 2 ^ 32 + s.rank % 2 ^ 10 * 2 ^ 64)
  let body := ts.flatMap fun t =>
    let b := s.bank (tId t) step
    toBytes 8 (tId t + b.decide.toNat * 2 ^ 12 + unsigned 16 b.xn * 2 ^ 16)
  (head ++ body) ++ toBytes 8 (crc64 (head ++ body)).toNat

/-- What the device lets go when a step has committed: its batch and the lists, payloads and lookups that belong to it (R285, R413). -/
def dropStep (s : State) (step : BitVec 32) : State :=
  { s with
    batches := s.batches.filter fun b => b.step != step
    lookups := s.lookups.filter fun l => l.batch != step
    counts := s.counts.filter fun m => m.batch != step
    payloads := s.payloads.filter fun m => m.batch != step }

/-- Write the commit record of a step and complete the COMMIT (R302): the token, the STEP event, and the step boundary. -/
def writeCommit (s : State) (w : CommitWait) : State :=
  let s := outsideStore s w.crec (clean (commitRecord s w.step))
  let s := s.addToken w.tok.core w.tok.tok.toNat 1
  let s := (trained s).foldl (fun s t => s.modBank (tId t) w.step fun b => { b with committed := true }) s
  let s := { s with job := s.job.map fun j => { j with lastCommit := some w.step } }
  let s := (dropStep s w.step).postAll 0 (.step w.step s.rank)
  s.atBoundary

/-- The bytes of the commit record. -/
def commitBytes (s : State) : Nat := 72 + 8 * (trained s).length

/-- Try a waiting COMMIT: written when every trained table is done; refused while replicas diverge, or when a seal decided halt. -/
def tryCommit (s : State) (w : CommitWait) : State :=
  if !s.commitWait.contains w then s
  else if s.mirror.mismatch then
    let s := teaselFault { s with commitWait := s.commitWait.erase w } w.tok.unit 0x66 (opidDesc w.tok.descId w.step)
    s.haltAtBoundary.atBoundary
  else if stepHalted s w.step then (State.haltAtBoundary { s with commitWait := s.commitWait.erase w }).atBoundary
  else if ((trained s).all fun t => stepDone s w.step t) && landsNow s w.crec (commitBytes s) then writeCommit { s with commitWait := s.commitWait.erase w } w
  else s

/-- Try every waiting COMMIT, in order. -/
def tryCommits (s : State) : State := s.commitWait.foldl tryCommit s

/-- COMMIT (R302). -/
def commitDesc (c : Nat) (d : Desc) (psn : Bool) (s : State) : State :=
  let op := opidDesc (dId d) (dStep d)
  let crec := fld d.w1 0 48
  if !arrives s c none d psn then s
  else if psn then biteDesc s c (c / 8) d
  else
    let s := freePlace s c none d
    if ledgerReserved 8 d then teaselFault s (c / 8) 0x02 op
    else if !mayOutput s crec (commitBytes s) then teaselFault s (c / 8) 0x07 op
    else
      let w : CommitWait := ⟨dStep d, crec, ledgerTok c d⟩
      tryCommit { s with commitWait := s.commitWait ++ [w] } w

/-- SEAL_DECISION (R288, R289): the decision of a sealed bank; `x` are the totals of the other devices of the job. -/
def sealDecides (tid : Nat) (step : BitVec 32) (x : SealTotals) (s : State) : State :=
  match tableOf s tid with
  | none => s
  | some t =>
    let b := s.bank tid step
    match b.sealTok with
    | none => s
    | some k =>
      if b.step ≠ step ∨ b.state ≠ 2 ∨ b.decided then s
      else
        let op := opidDesc k.descId step
        let s := fetchParams s t
        let code := sealFault s t b
        if code ≠ 0 then (teaselFault s k.unit code op).modBank tid step fun b => { b with sealTok := none }
        else
          let p := paramsOf s t
          let tot := jobTotals s t step x
          let n2 := normSquared b.xs tot.q
          let dec := decision p n2 tot.nfRows
          let kf := clipFactor p n2 dec
          let xn := match tot.emax with | some e => e - 14 | none => b.xs
          let s := s.modBank tid step fun b =>
            { b with decided := true, decide := dec, xn := xn, k := kf, trows := tot.rows, sealTok := none,
                     state := if dec = 3 then 5 else 2 }
          let s := if p.opt = 5 && decide (dec.toNat ≤ 1) && tot.rows != 0 then writeColumns s t p b.xs tot.q tot.rows kf else s
          let s := writeDecision s t step
          if dec = 3 then tryCommits (teaselFault s k.unit 0x47 op).haltAtBoundary
          else
            let s := { s with scales := mset none s.scales tid (some ⟨step + 1, xn⟩) }
            tryCommits (s.addToken k.core k.tok.toNat 1)

/-! ### BANK_CLEAR (R303) -/

/-- Clear a bank's bookkeeping and the STATE of its heads; the slots stay as they are until they are allocated again. -/
def clearBank (s : State) (t : TableDesc) (key : Nat) : State :=
  let b : Bank := mget {} s.banks key
  let s := b.used.foldl (fun s e => s.modVault (rowVault t e.1) fun u => { u with ledUsed := if u.ledUsed = 0 then 0 else u.ledUsed - 1 }) s
  let kept : Bank :=
    { step := b.step, decided := b.decided, decide := b.decide, ran := b.ran, applied := b.applied, committed := b.committed }
  let s := { s with banks := mset {} s.banks key kept }
  writeState s t b.step

/-- BANK_CLEAR (R303): after the commit of its step. -/
def bankClears (tid : Nat) (step : BitVec 32) (s : State) : State :=
  match tableOf s tid with
  | none => s
  | some t =>
    let b := s.bank tid step
    if b.step = step ∧ b.committed ∧ b.state ≠ 0 then clearBank s t (bankKey tid step) else s

/-! ### The commands -/

/-- GRAD (R282). -/
def execGrad (c : CoreId) (d : Desc) (poisoned : Bool) (s : State) : Result :=
  .next (if s.live && !s.stopped then gradDesc c.val d poisoned s else s)
/-- SEAL (R288). -/
def execSealBank (c : CoreId) (d : Desc) (poisoned : Bool) (s : State) : Result :=
  .next (if s.live && !s.stopped then sealDesc c.val d poisoned s else s)
/-- COMMIT (R302). -/
def execCommit (c : CoreId) (d : Desc) (poisoned : Bool) (s : State) : Result :=
  .next (if s.live && !s.stopped then commitDesc c.val d poisoned s else s)
/-- BANK_OPEN (R286). -/
def execBankOpen (table : Nat) (step : BitVec 32) (s : State) : Result :=
  .next (if s.live && !s.stopped then bankOpens table step s else s)
/-- CONTRIBUTION_MESSAGE (R287). -/
def execContributionMessage (m : ContribMsg) (s : State) : Result :=
  .next (if s.live && !s.stopped then contributionArrives m s else s)
/-- END_MARKER (R288). -/
def execEndMarker (m : EndMarker) (s : State) : Result := .next (if s.live && !s.stopped then markerArrives m s else s)
/-- SEAL_DECISION (R288). -/
def execSealDecision (table : Nat) (step : BitVec 32) (t : SealTotals) (s : State) : Result :=
  .next (if s.live && !s.stopped then sealDecides table step t s else s)
/-- BANK_CLEAR (R303). -/
def execBankClear (table : Nat) (step : BitVec 32) (s : State) : Result :=
  .next (if s.live && !s.stopped then bankClears table step s else s)

end Sys2Proof.Machine
end

