-- ==== Sys2Proof/Machine/Optimiser.lean ====
section
/-!
DEFINITION. APPLY and the row optimisers (R290 to R296, R299): gradient, built-in optimisers, row programs, narrowing, the serialised
write of a record, and APPLY_COMPLETE.
-/

namespace Sys2Proof.Machine

/-! ### State items (R295) -/

/-- Whether each state item of an optimiser is a scalar. -/
def stateItems (s : State) (t : TableDesc) (opt : Nat) : List Bool :=
  match opt with
  | 2 => [false]
  | 3 => [true]
  | 4 => [false, false]
  | 5 => [true]
  | 6 =>
    let w := paramWord s t 7
    (List.range (fld w 0 4)).map fun q => w.getLsbD (8 + q)
  | _ => []

/-- Elements of a state item. -/
def itemLength (n : Nat) (scalar : Bool) : Nat := if scalar then 1 else n

/-- The record offsets of the state items, each on an 8-byte boundary. -/
def itemOffsets (n eb : Nat) : List Bool → Nat → List Nat
  | [], _ => []
  | i :: is, o => o :: itemOffsets n eb is (o + 8 * ceilDiv (eb * itemLength n i) 8)

/-- The elements of an item in a record. -/
def itemValues (fmt n : Nat) (rec : List Byte) (o : Nat) (scalar : Bool) : List XNum :=
  let eb := elemBytes fmt
  (List.range (itemLength n scalar)).map fun i => decodeElem fmt 0 (fromBytes ((rec.drop (o + eb * i)).take eb))

/-! ### The optimisers (R293, R294) -/

/-- g: n × 2^XS × k, rounded once (R293). -/
def gradient (xs : Int) (k : XNum) (n : List Int) : List XNum := n.map fun i => rZ56 ((XNum.ofInt i xs).mul k)

/-- u: the gradient with weight decay (R293). -/
def decayed (wd : XNum) (g w : List XNum) : List XNum :=
  if wd.isZero then g else g.zipIdx.map fun (x, i) => rZ56 (x.add (wd.mul (nth w i XNum.zero)))

/-- The exact sum of squares of a vector. -/
def sumSquares (u : List XNum) : XNum := (u.map fun x => x.mul x).foldl XNum.add XNum.zero

/-- w − a × d, element by element, rounded once. -/
def stepWeights (w : List XNum) (a : XNum) (d : List XNum) : List XNum :=
  w.zipIdx.map fun (x, i) => rZ56 (x.sub (a.mul (nth d i XNum.zero)))

/-- A square root rounded to Z56. -/
def sqrtZ56 (x : XNum) : XNum := rZ56 x.sqrt

/-- a / (sqrt(v) + eps), each assignment rounded once. -/
def ratio (a v eps : XNum) : XNum := divZ56 a ((sqrtZ56 v).add eps)

/-- 1 − b, exactly. -/
def oneMinus (b : XNum) : XNum := (XNum.fin false 1 0).sub b

/-- (a + c × Σ u² / dim), rounded once: the sum times dim is exact. -/
def meanSquare (a c : XNum) (u : List XNum) : XNum :=
  let n := XNum.ofInt u.length 0
  divZ56 ((a.mul n).add (c.mul (sumSquares u))) n

/-- Whether a value is above zero. -/
def above (x : XNum) : Bool := XNum.zero.lt x

/-- New weights and new state of a built-in optimiser (R294); `col` holds the column vector, then cbar. -/
def optimise (p : Params) (w u : List XNum) (st : List (List XNum)) (col : List XNum) : List XNum × List (List XNum) :=
  let item := fun q => nth st q []
  let at0 := fun (l : List XNum) i => nth l i XNum.zero
  match p.opt with
  | 1 => (stepWeights w p.lr u, st)
  | 2 =>
    let m := (item 0).zipIdx.map fun (x, i) => rZ56 ((p.b1.mul x).add (at0 u i))
    (stepWeights w p.lr m, [m])
  | 3 =>
    let v := meanSquare (at0 (item 0) 0) (.fin false 1 0) u
    (stepWeights w (ratio p.lr v p.eps) u, [[v]])
  | 4 =>
    let m := (item 0).zipIdx.map fun (x, i) => rZ56 ((p.b1.mul x).add ((oneMinus p.b1).mul (at0 u i)))
    let v := (item 1).zipIdx.map fun (x, i) => rZ56 ((p.b2.mul x).add (((oneMinus p.b2).mul (at0 u i)).mul (at0 u i)))
    (stepWeights w p.lr (m.zipIdx.map fun (x, i) => ratio x (at0 v i) p.eps), [m, v])
  | 5 =>
    let rr := meanSquare (p.b2.mul (at0 (item 0) 0)) (oneMinus p.b2) u
    let cbar := at0 col u.length
    let vh := fun i => if above cbar then divZ56 (rr.mul (at0 col i)) cbar else rr
    (stepWeights w p.lr (u.zipIdx.map fun (x, i) => ratio x (vh i) p.eps), [[rr]])
  | _ => (w, st)

/-! ### Row programs (R299) -/

/-- A row program's state while it runs: its registers, the new weights and the new state. -/
structure RowRun where
  regs : List (List XNum)
  w : List XNum
  st : List (List XNum)

/-- The words of a row program, up to 64. -/
def rowProgram (s : State) (t : TableDesc) : List Nat := (List.range 64).map fun i => readN s (lAux s t + 4 * i) 4

/-- The result of an arithmetic operation on the elements of A, B and C; none where the operation is not one of these. -/
def rowArith (op : Nat) (a b c : XNum) : Option XNum :=
  match op with
  | 0x06 => some (rZ56 (a.add b))
  | 0x07 => some (rZ56 (a.sub b))
  | 0x08 => some (rZ56 (a.mul b))
  | 0x09 => some (rZ56 ((a.mul b).add c))
  | 0x0A => some (divZ56 a b)
  | 0x0B => some (sqrtZ56 a)
  | 0x0C => some (XNum.min a b)
  | 0x0D => some (XNum.max a b)
  | 0x0E => some a.abs
  | 0x0F => some a.neg
  | 0x10 => some (if !c.isNan && !c.lt XNum.zero then a else b)
  | _ => none

/-- Parameter `i` of LDP. -/
def rowParam (p : Params) (i : Nat) : XNum := nth [p.lr, p.wd, p.b1, p.b2, p.eps, p.nceil] i XNum.zero

/-- One operation of a row program over `n` elements (R299). -/
def rowOp (p : Params) (n : Nat) (w g : List XNum) (scalar : Nat → Bool) (x : RowRun) (op : Nat) : RowRun :=
  let code := nbits op 27 5
  let d := nbits op 23 4
  let imm := nbits op 0 11
  let reg := fun i => nth x.regs i []
  let a := reg (nbits op 19 4)
  let b := reg (nbits op 15 4)
  let c := reg (nbits op 11 4)
  let put := fun v => { x with regs := setAt x.regs d v }
  let el := fun (l : List XNum) i => nth l i XNum.zero
  match code with
  | 0x01 => put w
  | 0x02 => put g
  | 0x03 =>
    let q := imm % 8
    put (if scalar q then List.replicate n (el (nth x.st q []) 0) else nth x.st q [])
  | 0x04 => put (List.replicate n (rowParam p (imm % 8)))
  | 0x05 => put (List.replicate n (XNum.ofInt (signed 11 imm) 0))
  | 0x11 => put (List.replicate n (rZ56 (a.foldl XNum.add XNum.zero)))
  | 0x12 => put (List.replicate n ((a.drop 1).foldl XNum.max (el a 0)))
  | 0x13 => { x with w := a }
  | 0x14 =>
    let q := imm % 8
    { x with st := setAt x.st q (if scalar q then [el a 0] else a) }
  | _ =>
    if (rowArith code XNum.zero XNum.zero XNum.zero).isNone then x
    else put ((List.range n).map fun i => (rowArith code (el a i) (el b i) (el c i)).getD XNum.zero)

/-- Run a row program up to its END. -/
def runRowProgram (p : Params) (n : Nat) (ops : List Nat) (w g : List XNum) (st : List (List XNum)) (scalar : Nat → Bool) :
    List XNum × List (List XNum) :=
  let body := ops.takeWhile fun o => nbits o 27 5 != 0
  let z : RowRun := ⟨List.replicate 16 (List.replicate n XNum.zero), w, st⟩
  let r := body.foldl (rowOp p n w g scalar) z
  (r.w, r.st)

/-! ### Narrowing (R296) -/

/-- A narrowed vector: its bytes and its events. -/
structure Narrowed where
  bytes : List Byte
  sat : Nat
  nf : Nat

/-- Elements narrowed to a one-element format, element i with its draw. -/
def narrowElems (fmt : Nat) (mode : Rnd) (draw : Nat → Nat) (xs : List XNum) : Narrowed :=
  let cs := xs.zipIdx.map fun (x, i) => encodeElem fmt 0 mode (draw i) x
  ⟨cs.flatMap fun c => toBytes (elemBytes fmt) c.bits, (cs.map (·.sat)).sum, (cs.map (·.nf)).sum⟩

/-- New weights narrowed to the row format: SB rows by blocks of 32, significands first, then exponents (R222, R296). -/
def narrowWeights (t : TableDesc) (mode : Rnd) (draw : Nat → Nat) (w : List XNum) : Narrowed :=
  if tBlocks t then
    let bw := blockWidth (tFmt t)
    let bs := (chunksOf 32 w.length w).zipIdx.map fun (els, b) => toBlock (tFmt t) none mode (fun i => draw (32 * b + i)) els
    let sig := packElems bw (bs.flatMap (·.elems))
    ⟨toBytes (w.length * bw / 8) sig ++ bs.map (fun b => BitVec.ofNat 8 b.x), (bs.map (·.sat)).sum, (bs.map (·.nf)).sum⟩
  else narrowElems (tFmt t) mode draw w

/-- A list of bytes with a piece replaced. -/
def putBytes (l : List Byte) (o : Nat) (bs : List Byte) : List Byte := l.take o ++ bs ++ l.drop (o + bs.length)

/-! ### One slot (R291) -/

/-- The record that an apply writes, and its conversion events (R291 to R296). -/
def newRecord (s : State) (t : TableDesc) (step : BitVec 32) (l : Nat) (n : List Int) (rec : List Byte) : Narrowed :=
  let p := sealedParams s t step
  let b := s.bank (tId t) step
  let dim := tDim t
  let w := weightValues t (rec.take (tW t))
  let g := gradient b.xs (ofZ56 b.k.toNat) n
  let items := stateItems s t p.opt
  let offs := itemOffsets dim (elemBytes p.sfmt) items (tH t + 16)
  let st := (items.zip offs).map fun (i, o) => itemValues p.sfmt dim rec o i
  let col := (List.range (dim + 1)).map fun j => ofZ56 (readN s (lAux s t + 8 * j) 8)
  let new := if p.opt = 6 then runRowProgram p dim (rowProgram s t) w g st fun q => nth items q false
    else optimise p w (decayed p.wd g w) st (if p.opt = 5 then col else [])
  let row := globalRow s t l
  let draw := fun stream i => drawElem ⟨s.seed, 4, step.toNat, stream % 2 ^ 32, 0⟩ (row * dim + i)
  let nw := narrowWeights t (rndOf (fld p.w0 5 2)) (draw p.tensor) new.1
  let withW := putBytes (putBytes rec 0 nw.bytes) (tH t) (toBytes 2 (step.toNat % 2 ^ 16))
  (new.2.zip offs).zipIdx.foldl (fun (a : Narrowed) (x, q) =>
    let r := narrowElems p.sfmt (rndOf (fld p.w0 7 2)) (draw (p.tensor + 1 + q)) x.1
    ⟨putBytes a.bytes x.2 r.bytes, a.sat + r.sat, a.nf + r.nf⟩) ⟨withW, nw.sat, nw.nf⟩

/-- Set DONE, and CLIPPED when k is not 1, in a slot's head (R291 step 4). -/
def finishSlot (s : State) (t : TableDesc) (step : BitVec 32) (l : Nat) (r : SlotRead) (clipped : Bool) : State :=
  let mark := (r.bytes.take 8).any (·.2)
  writeSlot s t step l (marked mark (toBytes 8 (r.head ||| 2 ^ 41 ||| (if clipped then 2 ^ 42 else 0))))

/-- The bytes at AUX that an apply reads: the column vector of OPT 0x5, the row program of OPT 0x6 (R298, R299). -/
def auxBytes (t : TableDesc) (p : Params) : Nat := if p.opt = 5 then 8 * (tDim t + 1) else if p.opt = 6 then 256 else 0

/-- The marked granules of a slot, in the order of its offsets. -/
def slotGranules (s : State) (t : TableDesc) (step : BitVec 32) (l : Nat) : List Nat :=
  let k := mget 0 (s.bank (tId t) step).used l - 1
  (piecesOf (lBase s t) (rowVault t l) (slotOffset s t (step.toNat % 2) k) (slotBytes t)).flatMap fun (a, n) => poisonedGranules s a n

/-- Apply the slot of local row l (R290, R291): left out when NF is set, skipped when DONE is set, a bite when it, its record or the column
vector or program at AUX is poisoned (R201, R202), else one serialised write of the record. -/
def applySlot (s : State) (t : TableDesc) (step : BitVec 32) (opid : Word) (l : Nat) : State :=
  let v := rowVault t l
  let r := readSlot s t step l
  let a := recordAddr t l
  if r.2.done then r.1
  else if r.2.nf then r.1.modVault v fun u => { u with nfrow := satAdd 16 u.nfrow 1 }
  else
    let s := fetchHead (fetchRange r.1 a (tRec t)) t step
    let aux := (lAux s t, auxBytes t (sealedParams s t step))
    let s := fetchRange s aux.1 aux.2
    let s := s.modVault v fun u => { u with applied := satAdd 32 u.applied 1 }
    match slotGranules s t step l ++ poisonedGranules s a (tRec t) ++ poisonedGranules s aux.1 aux.2 with
    | g :: gs => finishSlot (s.bite 7 v opid (64 * g) (gs.length + 1)) t step l r.2 false
    | [] =>
      let n := newRecord s t step l (r.2.elems (tDim t)) (readB s a (tRec t))
      let s := writeRecord s t l (clean n.bytes)
      let s := s.modVault v fun u => { u with numCnt := u.numCnt.count s.cycle n.sat n.nf }
      finishSlot s t step l r.2 ((s.bank (tId t) step).k != oneZ56)

/-! ### APPLY and APPLY_COMPLETE (R290, R292) -/

/-- Whether an APPLY of an earlier step of the table has not completed. -/
def earlierApply (s : State) (t : Nat) (step : BitVec 32) : Bool :=
  [mget {} s.banks (2 * t), mget {} s.banks (2 * t + 1)].any fun b => decide (b.step.toNat < step.toNat) && !b.applies.isEmpty

/-- Whether a fenced EXPORT must read first (R265). -/
def exportFirst (s : State) (t : Nat) (step : BitVec 32) : Bool :=
  s.rowJobs.any fun j => j.table == t && !j.ran && fld j.desc.w0 0 4 == 4 && j.desc.w0.getLsbD 45 &&
    decide (fld j.desc.w4 0 32 < step.toNat)

/-- The fault of an APPLY (R290, R297): 0 for none. -/
def applyFault (s : State) (d : Desc) : Nat :=
  let step := dStep d
  let b := s.bank (dTable d) step
  let redo := d.w0.getLsbD 43
  let st := b.state.toNat
  let ok := b.step == step && (st == 2 || (redo && (st == 3 || st == 4)))
  if ok && b.late && st == 2 then 0x46
  else if ok && b.decided && b.decide != 3 then 0 else 0x44

/-- The apply of a step has begun (R252). -/
def markBegun (s : State) (t : Nat) (step : BitVec 32) : State :=
  { s with begun := mmod 0 s.begun t (max (step.toNat + 1)) }

/-- The oldest APPLY of a bank is over: its token is added, and the next one is still to run. -/
def endApply (s : State) (t : Nat) (step : BitVec 32) (k : LedgerTok) : State :=
  (s.modBank t step fun b => { b with applied := true, applies := b.applies.drop 1, ran := false }).addToken k.core k.tok.toNat 1

/-- Run the writes of the oldest APPLY of a bank when nothing holds it: earlier applies, fenced exports, absent records (R230, R265, R290).
One that has not begun when a late message has come is refused (R297); with skip it completes at once. -/
def tryApply (s : State) (t : TableDesc) (step : BitVec 32) : State :=
  let b := s.bank (tId t) step
  match b.applies with
  | [] => s
  | k :: _ =>
    if b.ran || earlierApply s (tId t) step then s
    else if b.late && b.state == 2 then
      teaselFault (s.modBank (tId t) step fun b => { b with applies := b.applies.drop 1 }) k.unit 0x46 (opidDesc k.descId step)
    else if b.decide = 2 then endApply (markBegun s (tId t) step) (tId t) step k
    else if exportFirst s (tId t) step then s
    else
      let x := absentOf s t (b.used.map (·.1))
      if !x.2.isEmpty then x.2.foldl (fun s l => startFetch s (tId t) l) x.1
      else
        let s := writeState (markBegun (x.1.modBank (tId t) step fun b => { b with ran := true, state := 3 }) (tId t) step) t step
        b.used.foldl (fun s e => applySlot s t step (opidDesc k.descId step) e.1) s

/-- APPLY (R290). -/
def applyDesc (c : Nat) (d : Desc) (psn : Bool) (s : State) : State :=
  let op := opidDesc (dId d) (dStep d)
  if !arrives s c none d psn then s
  else if psn then biteDesc s c (c / 8) d
  else
    let s := freePlace s c none d
    if ledgerReserved 7 d then teaselFault s (c / 8) 0x02 op
    else
      match tableOf s (dTable d) with
      | none => teaselFault s (c / 8) 0x44 op
      | some t =>
        let code := applyFault s d
        if code ≠ 0 then teaselFault s (c / 8) code op
        else
          let s := s.modBank (tId t) (dStep d) fun b => { b with applies := b.applies ++ [ledgerTok c d] }
          tryCommits (tryApply s t (dStep d))

/-- What may have waited for an apply goes on: later applies, lookups, exports, the COMMIT. -/
def afterApply (s : State) (t : TableDesc) : State :=
  let steps := [mget {} s.banks (2 * tId t), mget {} s.banks (2 * tId t + 1)].map fun (b : Bank) => b.step
  let s := steps.foldl (fun s st => tryApply s t st) s
  tryCommits (onward (s.rowJobs.foldl tryRowJob s))

/-- APPLY_COMPLETE (R292): every write has taken effect; STATE becomes applied and the token is added. -/
def applyCompletes (tid : Nat) (step : BitVec 32) (s : State) : State :=
  match tableOf s tid with
  | none => s
  | some t =>
    if (s.bank tid step).step ≠ step then s
    else
      let s := tryApply s t step
      let b := s.bank tid step
      match b.applies with
      | [] => s
      | k :: _ =>
        if !b.ran then s
        else afterApply (endApply (writeState (s.modBank tid step fun b => { b with state := 4 }) t step) tid step k) t

/-- APPLY (R290). -/
def execApplyBank (c : CoreId) (d : Desc) (poisoned : Bool) (s : State) : Result :=
  .next (if s.live && !s.stopped then applyDesc c.val d poisoned s else s)
/-- APPLY_COMPLETE (R292). -/
def execApplyComplete (table : Nat) (step : BitVec 32) (s : State) : Result :=
  .next (if s.live && !s.stopped then applyCompletes table step s else s)

end Sys2Proof.Machine
end

