-- ==== Sys2Proof/Machine/Dense.lean ====
section
/-!
DEFINITION. Snapshots, digests and checkpoints (R363 to R375): SNAP, page CRCs and their comparison, the mirror engine, the journal of the
twin, the stream to host storage.
-/

namespace Sys2Proof.Machine

/-! ### Regions (R364, R370) -/

/-- The pages of a range. -/
def rangePages (base pages : Nat) : List Nat := (List.range pages).map fun i => base / 4096 + i

/-- The pages of the checkpoint set in range order: a page's place here is its page index in the image (R370). -/
def setPages (p : Program) : List Nat := p.ckptSet.flatMap fun r => rangePages r.base (r.size / 4096)

/-- The pages of replica region i. -/
def regionPages (s : State) (i : Nat) : List Nat :=
  match s.prog.bind fun p => p.replicas[i]? with | some r => rangePages r.base r.pages | none => []

/-- The number of replica regions. -/
def regionCount (s : State) : Nat := match s.prog with | some p => p.replicas.length | none => 0

/-- Offsets of the header's fields in the mirror region. -/
abbrev offCstep : Nat := 0
/-- VALID. -/
abbrev offValid : Nat := 8
/-- JSTATE: 0 empty, 1 filling, 2 committed. -/
abbrev offJstate : Nat := 16
/-- JSTEP. -/
abbrev offJstep : Nat := 24
/-- JCOUNT. -/
abbrev offJcount : Nat := 32
/-- DAGREE: 0 not taken, 1 agreed, 2 diverged. -/
abbrev offDagree : Nat := 40
/-- The header's CRC-64 over the rest of it. -/
abbrev offCrc : Nat := 4088
/-- The journal index. -/
abbrev offIndex : Nat := 4096
/-- The journal, for J pages. -/
def offJournal (j : Nat) : Nat := offIndex + 4096 * ceilDiv (8 * j) 4096
/-- The image. -/
def offImage (j : Nat) : Nat := offJournal j + 4096 * j

/-- Write the CRC of the mirror header afresh, when a write of `n` bytes at `a` has touched it (R370). -/
def refreshHeader (s : State) (a n : Nat) : State :=
  match s.prog.bind (·.mirror) with
  | some r =>
    if rangesOverlap a n r.base offCrc then
      let x := loadBytes s r.base offCrc
      storeN x.1 (r.base + offCrc) 8 (crc64 (x.2.map (·.1))).toNat
    else s
  | none => s

/-! ### Mirror writes to the twin (R348, R372) -/

/-- The window entry for mirror writes, and the offset of the mirror region in it. -/
def mirrorWindow (s : State) : Nat × Nat :=
  let w := ((List.range 64).find? fun i =>
    let e : Word × Word := mget (0, 0) s.xwin i
    e.1.getLsbD 63 && e.1.getLsbD 61).getD 0
  let base := fld (mget (0, 0) s.xwin w).1 12 36 * 4096
  (w, match s.prog.bind (·.mirror) with | some r => r.base - base | none => 0)

/-- Write bytes with their marks at an offset of the twin's mirror region, in packets of at most 240 bytes in class 5. -/
def mirrorPut (s : State) (off : Nat) (bs : List PByte) : State :=
  match s.prog.bind (·.twinRank) with
  | none => s
  | some twin =>
    let w := mirrorWindow s
    (chunksOf 240 bs.length bs).zipIdx.foldl (fun s (c, i) =>
      let a := w.2 + off + 240 * i
      shipOn s twinPort false (.data twin (dataTo s 4 twin w.1 a (c.map (·.1)) (psnBits a (c.map (·.2)))))) s

/-- Write one field of the twin's mirror header. -/
def mirrorField (s : State) (off x : Nat) : State := mirrorPut s off (clean (toBytes 8 x))

/-! ### Digests (R364 to R366) -/

/-- Compute the CRC of a digest-pending page, which is read for it (R193, R364). -/
def takeCrc (s : State) (p : Nat) : State :=
  if mget false s.mirror.digPend p then
    let s := fetchRange s (4096 * p) 4096
    let m := s.mirror
    { s with mirror := { m with pageCrc := mset 0 m.pageCrc p (pageCrcOf s p), digPend := mset false m.digPend p false } }
  else s

/-- Whether digest i of the list is the last one taken. -/
def isLastDigest (s : State) (i : Nat) : Bool := i + 1 == s.mirror.digests.length

/-- The page CRCs of digest i. -/
def crcsOf (s : State) (i : Nat) (d : Digest) : SMap (BitVec 64) := if isLastDigest s i then s.mirror.pageCrc else d.crcs

/-- Whether every page of a region has its CRC for digest i. -/
def regionReady (s : State) (i r : Nat) : Bool :=
  !isLastDigest s i || (regionPages s r).all fun p => !mget false s.mirror.digPend p

/-- The CRC over a list of CRCs, each as 8 little-endian bytes. -/
def crcOfCrcs (l : List (BitVec 64)) : BitVec 64 := crc64 (l.flatMap fun c => toBytes 8 c.toNat)

/-- The block digests of a region: one over each 256 consecutive pages. -/
def blockDigests (s : State) (r : Nat) (crcs : SMap (BitVec 64)) : List (BitVec 64) :=
  let ps := (regionPages s r).map fun p => mget 0 crcs p
  (chunksOf 256 ps.length ps).map crcOfCrcs

/-- The region digest (R364). -/
def regionDigest (s : State) (r : Nat) (crcs : SMap (BitVec 64)) : BitVec 64 := crcOfCrcs (blockDigests s r crcs)

/-- The region digests that have become ready go to the replica set (R365). -/
def announce (s : State) : State :=
  s.mirror.digests.zipIdx.foldl (fun s (d, i) =>
    let fresh := d.left.filter fun r => regionReady s i r && !d.announced.contains r
    let s := fresh.foldl (fun s r => ship s (.digest r (regionDigest s r (crcsOf s i d)))) s
    { s with mirror := { s.mirror with digests := s.mirror.digests.modify i fun d => { d with announced := d.announced ++ fresh } } }) s

/-- DIGEST_PAGE_CRC (R364). -/
def digestPageCrc (p : Nat) (s : State) : State := if s.mirror.digests.isEmpty then s else announce (takeCrc s p)

/-- DAGREE of a step: 0 not taken, 1 agreed, 2 diverged. -/
def dagreeOf (s : State) (step : BitVec 32) : Nat := match s.mirror.dagree with | some (t, x) => if t = step then x else 0 | none => 0

/-- An outcome of a digest point; a checkpoint of the same step whose last header has been sent gets one more mirror write (R372, R375). -/
def setDagree (s : State) (step : BitVec 32) (x : Nat) : State :=
  let s := { s with mirror := { s.mirror with dagree := some (step, x) } }
  let sent : Bool := s.mirror.ckpt.any fun k => k.headerSent && decide (k.step = step)
  if sent || (decide (s.mirror.cstep = step) && decide (step ≠ 0xFFFFFFFF)) then mirrorField s offDagree x else s

/-- The row that a byte of a region belongs to, with its table or group: a table row under R223, a matrix row for a group (R365). -/
def divergedRow (s : State) (a : Nat) : Nat × Nat :=
  match recordAt s a with
  | some (t, l) => (tId t, globalRow s t l)
  | none =>
    match s.prog.bind fun p => p.groups.find? fun g =>
        decide (fld g.w1 0 48 ≤ a) && decide (a < fld g.w1 0 48 + groupSlots g * fld g.w2 0 40) with
    | some g =>
      let o := (a - fld g.w1 0 48) % fld g.w2 0 40
      (fld g.w0 0 10, (o - 64) / (fld g.w5 32 32 * elemBytes (fld g.w0 16 5)))
    | none => (0, 0)

/-- A replica-divergence record (R365): the byte's address names page and first differing byte; DETAIL holds the bit mask, the region and
the table or group; COUNT the row. -/
def divergenceRecord (s : State) (r page byte : Nat) (mask : BitVec 8) : State :=
  let a := 4096 * page + byte
  let w := divergedRow s a
  s.emit { code := 0x66, uclass := 6, uinst := vaultOf a * 8 + dieOf a, addr := a, count := w.2,
           detail := mask.toNat + r % 256 * 2 ^ 8 + w.1 % 2 ^ 12 * 2 ^ 16 }

/-- A region of digest i has been compared: the digest point ends with its last region. -/
def regionCompared (s : State) (i r : Nat) (d : Digest) (differs : Bool) : State :=
  let d := { d with left := d.left.erase r, differs := d.differs || differs }
  if d.left.isEmpty then
    let s := { s with mirror := { s.mirror with digests := s.mirror.digests.eraseIdx i } }
    if d.differs then s else setDagree { s with mirror := { s.mirror with astep := d.step } } d.step 1
  else { s with mirror := { s.mirror with digests := s.mirror.digests.set i d } }

/-- A region whose digests differ (R365): the block digests, the page CRCs of each block that differs and the differing pages are exchanged,
one record per page up to 16 in all, every page counted. -/
def regionDiverges (s : State) (i r : Nat) (d : Digest) (diff : List (Nat × Nat × BitVec 8)) : State :=
  let crcs := crcsOf s i d
  let s := ship s (.digestBlocks r (blockDigests s r crcs))
  let pages := regionPages s r
  let blocks := sortNats (diff.map fun x => pages.idxOf x.1 / 256)
  let s := blocks.foldl (fun s b => ship s (.digestCrcs r b (((pages.drop (256 * b)).take 256).map fun p => mget 0 crcs p))) s
  let s := (diff.take 16).zipIdx.foldl (fun s ((p, b, m), n) =>
    let x := loadBytes s (4096 * p) 4096
    let s := ship x.1 (.digestPage r p x.2)
    if d.records + n < 16 then divergenceRecord s r p b m else s) s
  let d := { d with records := d.records + min 16 diff.length }
  let s := { s with mirror := { s.mirror with mismatch := true, diverge := satAdd 16 s.mirror.diverge diff.length } }
  tryCommits (regionCompared (setDagree s d.step 2) i r d true)

/-- DIGEST_COMPARE (R365): the region digests of the other members, and what the comparison of differing pages finds. -/
def digestCompare (r : Nat) (peers : List (BitVec 64)) (diff : List (Nat × Nat × BitVec 8)) (s : State) : State :=
  let s := announce s
  match s.mirror.digests.zipIdx.find? fun (d, i) => d.left.contains r && regionReady s i r with
  | none => s
  | some (d, i) =>
    let own := regionDigest s r (crcsOf s i d)
    if peers.all (· == own) then regionCompared s i r d false else regionDiverges s i r d diff

/-! ### Checkpoints (R371 to R375) -/

/-- SNAP's CKPT. -/
def snCkpt (d : Desc) : Bool := d.w0.getLsbD 43
/-- SNAP's DIG. -/
def snDig (d : Desc) : Bool := d.w0.getLsbD 44
/-- SNAP's HOSTCK. -/
def snHost (d : Desc) : Bool := d.w0.getLsbD 45
/-- SNAP's STEP. -/
def snStep (d : Desc) : BitVec 32 := d.w1.extractLsb' 0 32

/-- Whether a SNAP breaks R18 (R371). -/
def snapReserved (d : Desc) : Bool :=
  fld d.w0 0 4 != 9 || strayBits d.w0 [(0, 4), (16, 30)] || strayBits d.w1 [(0, 32)] || strayBits d.w2 [(0, 12)] || wordsFrom d 3

/-- The page of the mirror engine. -/
abbrev mirrorPage : Nat := 4

/-- Form 1 or 2 chosen by the number of pages, or 3 (R372, R373). -/
def formOf (p : Program) (d : Desc) (n : Nat) : Nat := if snHost d then 3 else if n ≤ p.journalPages then 1 else 2

/-- The digest part of a SNAP: the CRCs of an earlier point are completed as the pages stand, then every region page is pending. -/
def snapDigest (s : State) (step : BitVec 32) : State :=
  let s := (s.mirror.digPend.map (·.1)).foldl takeCrc s
  let m := s.mirror
  let older := m.digests.zipIdx.map fun (d, i) => if i + 1 = m.digests.length then { d with crcs := m.pageCrc } else d
  let regions := List.range (regionCount s)
  let pages := regions.flatMap (regionPages s)
  { s with mirror := { m with
      digests := older ++ [⟨step, [], regions, [], false, 0⟩]
      pageCrc := []
      digPend := pages.foldl (fun x p => mset false x p true) [] } }

/-- The checkpoint has failed (R375): its pages are dropped, PEND cleared and DIRTY set on every one of them, with a mirror fault. -/
def dropCheckpoint (s : State) : State :=
  match s.mirror.ckpt with
  | none => s
  | some k =>
    let m := s.mirror
    let s := { s with mirror := { m with
      ckpt := none
      state := 4
      copies := []
      pend := k.pages.foldl (fun x p => mset false x p false) m.pend
      dirty := k.pages.foldl (fun x p => mset false x p true) m.dirty } }
    (s.emit { code := 0x67, uclass := 9, uinst := 8 }).modPage mirrorPage Page.fail

/-- The last header write of a checkpoint, once every page has been sent (R372). -/
def lastHeader (s : State) (k : Ckpt) : State :=
  let dag := dagreeOf s k.step
  let s :=
    if k.form = 1 then mirrorField (mirrorField (mirrorField s offJcount k.pages.length) offDagree dag) offJstate 2
    else mirrorField (mirrorField (mirrorField s offCstep k.step.toNat) offDagree dag) offValid 1
  { s with mirror := { s.mirror with ckpt := some { k with headerSent := true } } }

/-- The checkpoint part of a SNAP (R371, R372): PEND from DIRTY, the form, the first header write. -/
def snapCheckpoint (s : State) (p : Program) (d : Desc) : State :=
  let m := s.mirror
  let pages := sortNats ((setPages p).filter fun g => mget false m.dirty g)
  let form := formOf p d pages.length
  let ctok := if d.w2.getLsbD 11 then some (fld d.w2 6 5, d.w2.extractLsb' 0 6) else none
  let k : Ckpt := ⟨snStep d, form, pages, 0, false, ctok⟩
  let s := { s with mirror := { m with
    ckpt := some k
    state := BitVec.ofNat 4 form
    dirty := []
    pend := pages.foldl (fun x g => mset false x g true) [] } }
  let s := s.beginProg mirrorPage 4 pages.length
  if form = 3 then (if s.ckptDest.isNone then dropCheckpoint s else s)
  else if p.mirror.isNone || (s.port twinPort).st != .up then dropCheckpoint s
  else
    let s := if form = 1 then mirrorField (mirrorField s offJstate 1) offJstep k.step.toNat
      else mirrorField (s.emit { code := 0x2B, uclass := 9, uinst := 8 }) offValid 0
    if pages.isEmpty then lastHeader s k else s

/-- A SNAP acts at every vault (R371) and adds its token. -/
def runSnap (s : State) (c : Nat) (d : Desc) : State :=
  match s.prog with
  | none => freePlace s c none d
  | some p =>
    let s := freePlace s c none d
    let s := if snDig d then snapDigest s (snStep d) else s
    let s := if snCkpt d then snapCheckpoint s p d else s
    announce (s.addToken (rCore d) (rTok d).toNat 1)

/-- SNAPs that held for a checkpoint go on, in order, until one starts another; `n` bounds them. -/
def resumeSnaps : Nat → State → State
  | 0, s => s
  | n + 1, s =>
    match s.mirror.waitingSnaps with
    | [] => s
    | w :: ws =>
      if s.mirror.ckpt.isSome && snCkpt w.desc then s
      else resumeSnaps n (runSnap { s with mirror := { s.mirror with waitingSnaps := ws } } w.core w.desc)

/-- The SNAPs that wait are looked at again. -/
def afterCheckpoint (s : State) : State := resumeSnaps s.mirror.waitingSnaps.length s

/-- The checkpoint fails (R375), and what waited goes on. -/
def failCheckpoint (s : State) : State := afterCheckpoint (dropCheckpoint s)

/-- SNAP (R371): refused, held while a checkpoint is in progress, or run. -/
def snapDesc (c : Nat) (d : Desc) (psn : Bool) (s : State) : State :=
  let op := opidDesc (dId d) (snStep d)
  if !arrives s c none d psn then s
  else if psn then biteDesc s c (c / 8) d
  else if snapReserved d then teaselFault (freePlace s c none d) (c / 8) 0x02 op
  else if snCkpt d && (s.mirror.ckpt.isSome || !s.mirror.waitingSnaps.isEmpty) then
    { s with mirror := { s.mirror with waitingSnaps := s.mirror.waitingSnaps ++ [⟨c, d, (descPlace s c none d).cycle⟩] } }
  else runSnap s c d

/-- A page of the checkpoint as the snapshot left it: from the copy buffer, or read whole, which clears PEND and serves a digest too
(R372, R374, R375). -/
def takePage (s : State) (p : Nat) : State × List PByte :=
  match s.mirror.copies.find? fun c => c.page == p with
  | some c => ({ s with mirror := { s.mirror with copies := s.mirror.copies.filter fun c => c.page != p } }, c.bytes)
  | none =>
    let s := takeCrc (fetchRange s (4096 * p) 4096) p
    ({ s with mirror := { s.mirror with pend := mset false s.mirror.pend p false } }, readP s (4096 * p) 4096)

/-- One more page of the checkpoint has been sent. -/
def countPage (s : State) (k : Ckpt) : State :=
  { s with mirror := { s.mirror with ckpt := some { k with sent := k.sent + 1 } } }.modPage mirrorPage fun p => p.advance 1

/-- MIRROR_PAGE_SEND (R372): the next pending page goes to the journal or the image, then the last header. -/
def mirrorPageSend (s : State) : State :=
  match s.mirror.ckpt, s.prog with
  | some k, some p =>
    match k.pages[k.sent]? with
    | none => s
    | some g =>
      if k.form = 3 ∨ (s.port twinPort).st ≠ .up then s
      else
        let x := takePage s g
        let place := (setPages p).idxOf g
        let s := if k.form = 1 then
            mirrorField (mirrorPut x.1 (offJournal p.journalPages + 4096 * k.sent) x.2) (offIndex + 8 * k.sent) place
          else mirrorPut x.1 (offImage p.journalPages + 4096 * place) x.2
        let s := announce (countPage s k)
        if k.sent + 1 = k.pages.length then lastHeader s { k with sent := k.sent + 1 } else s
  | _, _ => s

/-- A checkpoint has committed (R372): CSTEP, CTOK, and the SNAPs that held for it. -/
def checkpointDone (s : State) (k : Ckpt) : State :=
  let s := { s with mirror := { s.mirror with cstep := k.step, state := 0, ckpt := none } }
  let s := s.modPage mirrorPage Page.finish
  let s := match k.ctok with | some (c, t) => s.addToken c t.toNat 1 | none => s
  afterCheckpoint s

/-- CHECKPOINT_COMMIT (R372): the last header write has taken effect at the twin. -/
def checkpointCommit (s : State) : State :=
  match s.mirror.ckpt with
  | some k => if k.headerSent then checkpointDone s k else s
  | none => s

/-- JOURNAL_APPLY (R372): the twin's committed journal in this device's mirror region is applied to the image. -/
def journalApply (s : State) : State :=
  match s.prog with
  | none => s
  | some p =>
    match p.mirror with
    | none => s
    | some r =>
      let s := fetchRange s r.base 4096
      if readN s (r.base + offJstate) 8 ≠ 2 then s
      else
        let n := readN s (r.base + offJcount) 8
        let s := (List.range n).foldl (fun s j =>
          let s := fetchRange s (r.base + offIndex + 8 * j) 8
          let place := readN s (r.base + offIndex + 8 * j) 8
          let x := loadBytes s (r.base + offJournal p.journalPages + 4096 * j) 4096
          store x.1 (r.base + offImage p.journalPages + 4096 * place) x.2) s
        let s := storeN s (r.base + offCstep) 8 (readN s (r.base + offJstep) 8)
        refreshHeader (storeN s (r.base + offJstate) 8 0) r.base 8

/-- The bytes of the trailer of a host checkpoint (R420). -/
def ckptTrailer (s : State) (k : Ckpt) : List Byte :=
  let body := toBytes 8 k.step.toNat ++ toBytes 8 k.pages.length ++ toBytes 8 (dagreeOf s k.step) ++ List.replicate 32 0
  body ++ toBytes 8 (crc64 body).toNat

/-- The room of the destination buffer of a host checkpoint (R405, R420). -/
def ckptRoom (s : State) (sid : BitVec 32) (buf : BitVec 8) (off n : Nat) : Bool :=
  let x := s.session sid
  x.st == .attached && match mget none x.bufs buf.toNat with
    | some b => b.kind == 4 && decide (off + n ≤ b.size)
    | none => false

/-- HOST_CHECKPOINT_STREAM (R373, R420): the next pending page, or the trailer after the last one, which commits the checkpoint. A length
fault, a poisoned page or a detached session fails it. -/
def hostStream (s : State) : State :=
  match s.mirror.ckpt, s.ckptDest with
  | some k, some (sid, buf, off) =>
    if k.form ≠ 3 then s
    else if !ckptRoom s sid buf off (k.pages.length * 4112 + 64) then failCheckpoint s
    else
      match k.pages[k.sent]? with
      | some g =>
        let x := takePage s g
        if x.2.any (·.2) then failCheckpoint x.1
        else
          let crc := crc64 (x.2.map (·.1))
          announce (countPage { x.1 with hostOut := x.1.hostOut ++ [.ckptPage sid (4096 * g) crc x.2] } k)
      | none => checkpointDone { s with hostOut := s.hostOut ++ [.ckptTrailer sid (ckptTrailer s k)] } k
  | some k, none => if k.form = 3 then failCheckpoint s else s
  | none, _ => s

/-! ### Norms and the telemetry ring (R367, R368) -/

/-- The norm record of a layer and kind: SSQ and AMAX in Z56, the count of non-finite values, poison (R126, R367). -/
structure Norm where
  ssq : Nat := 0
  amax : Nat := 0
  nf : Nat := 0
  psn : Bool := false
  deriving DecidableEq, Repr

/-- A SARD record of 32 bytes as it was read (R126). -/
def normOf (record : List PByte) : Norm :=
  let bs := record.map (·.1)
  ⟨fromBytes (bs.take 7), fromBytes ((bs.drop 8).take 7), fromBytes ((bs.drop 16).take 4), record.any (·.2)⟩

/-- One more record in a combination (R367): SSQ in Z56 under R46, the larger AMAX under R121, NF that stops at its largest value. -/
def Norm.join (a b : Norm) : Norm :=
  ⟨toZ56 (addZ56 (ofZ56 a.ssq) (ofZ56 b.ssq)), toZ56 (XNum.max (ofZ56 a.amax) (ofZ56 b.amax)), min 0xFFFFFFFF (a.nf + b.nf), a.psn || b.psn⟩

/-- Step 1 of R367: the records of the cores that hold the layer, in ascending core order, from +0. -/
def deviceNorm (records : List (List PByte)) : Norm := (records.map normOf).foldl Norm.join {}

/-- The axes of a combination set (R367): D and those of T and S that cut the layer for a sharded group, none for a replicated one. -/
def combinationAxes (sharded cutsT cutsS : Bool) : List Nat :=
  if sharded then [0] ++ (if cutsT then [2] else []) ++ (if cutsS then [3] else []) else []

/-- Step 2 of R367: the totals of the members of a combination set in the order in which the all-reduce folds them (R339, R342), which also
starts from +0. -/
def setNorm (members : List Norm) : Norm := members.foldl Norm.join {}

/-- Step 3 of R367: NORM, the square root of SSQ rounded once to FP32. -/
def Norm.norm (x : Norm) : Nat := (fFP32.encode .rne 0 (ofZ56 x.ssq).sqrt).bits

/-- The all-reduce descriptors by which a program combines SSQ, AMAX and NF (R342, R367): ROP sum and max in Z56 with WFMT 0b00, and an L64
sum with XS 0, each of one element. -/
def normDescs (axes : List Nat) (ids : List (BitVec 16)) (src dst : List Nat) : List Desc :=
  [(0, 7), (1, 7), (0, 8)].zipIdx.map fun ((rop, fmt), i) =>
    { w0 := BitVec.ofNat 64 (4 + (axes.map fun a => 2 ^ (4 + a)).sum + rop * 2 ^ 8 + (nth ids i 0).toNat * 2 ^ 16)
      w1 := BitVec.ofNat 64 (nth src i 0)
      w2 := BitVec.ofNat 64 (nth dst i 0)
      w3 := 1
      w4 := 0
      w5 := 0
      w6 := BitVec.ofNat 64 (fmt + fmt * 2 ^ 5)
      w7 := 0 }

/-- The telemetry entry of a layer and kind at a step (R368). -/
def telemetryEntry (step : BitVec 32) (layer : BitVec 16) (kind : BitVec 8) (x : Norm) : List Byte :=
  let body := toBytes 4 step.toNat ++ toBytes 2 layer.toNat ++ toBytes 1 kind.toNat ++ toBytes 1 (if x.psn then 1 else 0) ++
    toBytes 8 x.ssq ++ toBytes 8 x.amax ++ toBytes 4 x.nf ++ toBytes 4 x.norm ++ List.replicate 28 0
  body ++ toBytes 4 (crc32c body).toNat

/-- Where entry k of a step stands in the telemetry ring of a program with `perStep` entries a step (R368). -/
def telemetryAddr (p : Program) (step perStep k : Nat) : Option Nat :=
  p.telemetry.map fun r => r.base + 64 * ((step * perStep + k) % p.telemetryEntries)

/-! ### The commands -/

/-- SNAP (R371). -/
def execSnap (c : CoreId) (d : Desc) (poisoned : Bool) (s : State) : Result :=
  .next (if s.live && !s.stopped then snapDesc c.val d poisoned s else s)
/-- DIGEST_PAGE_CRC (R364). -/
def execDigestPageCrc (page : Nat) (s : State) : Result := .next (if s.live && !s.stopped then digestPageCrc page s else s)
/-- DIGEST_COMPARE (R365). -/
def execDigestCompare (region : Nat) (peers : List (BitVec 64)) (diffPages : List (Nat × Nat × BitVec 8)) (s : State) : Result :=
  .next (if s.live && !s.stopped then digestCompare region peers diffPages s else s)
/-- MIRROR_PAGE_SEND (R372). -/
def execMirrorPageSend (s : State) : Result := .next (if s.live && !s.stopped then mirrorPageSend s else s)
/-- CHECKPOINT_COMMIT (R372). -/
def execCheckpointCommit (s : State) : Result := .next (if s.live && !s.stopped then checkpointCommit s else s)
/-- JOURNAL_APPLY (R372). -/
def execJournalApply (s : State) : Result := .next (if s.live && !s.stopped then journalApply s else s)
/-- HOST_CHECKPOINT_STREAM (R373). -/
def execHostCheckpointStream (s : State) : Result := .next (if s.live && !s.stopped then hostStream s else s)

end Sys2Proof.Machine
end

