-- ==== Sys2Proof/Machine/Start.lean ====
section
/-!
DEFINITION. The start of a loaded job (R304, R349, R369, R372, R421): it waits until the cabled ports are UP, then clears the ledger banks,
sets the scales and lets the cores begin.
-/

namespace Sys2Proof.Machine

/-- Whether every port that the program cables is UP (R349). -/
def cabledUp (s : State) : Bool :=
  match s.job with
  | some j => (List.range 9).all fun x => (cabledTo j.prog j.rank x).isNone || (s.port x).st == .up
  | none => true

/-- Whether the bank of a key is kept at job start: it holds the program's redo step (R304). -/
def redoBank (s : State) (p : Program) (key : Nat) : Bool :=
  p.redoStep.any fun r => r.toNat % 2 == key % 2 && (mget {} s.banks key : Bank).step == r

/-- Clear bank `par` of a table at job start (R304): its bookkeeping, and the heads in every vault. -/
def freshBank (s : State) (t : TableDesc) (par : Nat) : State :=
  let key := 2 * tId t + par
  writeState { clearBank s t key with banks := mset {} (clearBank s t key).banks key {} } t (BitVec.ofNat 32 par)

/-- The ledger banks at job start (R304): those of the program's trained tables are cleared, the redo step's excepted, and of an earlier
job's other tables nothing is left. -/
def clearLedgers (s : State) (p : Program) : State :=
  let mine := fun (key : Nat) => (trained s).any fun t => tId t == key / 2
  let s := (trained s).foldl (fun s t => [0, 1].foldl (fun s par =>
    if redoBank s p (2 * tId t + par) then s else freshBank s t par) s) s
  { s with banks := s.banks.filter fun b => mine b.1 }

/-- X_t of the first step is X0 of the parameter block (R274, R304). -/
def firstScales (s : State) (p : Program) : State :=
  (trained s).foldl (fun s t =>
    { s with scales := mset none s.scales (tId t) (some ⟨p.firstStep, (paramsOf s t).x0⟩) }) s

/-- DIRTY on every page of the checkpoint set (R369). -/
def allDirty (s : State) (p : Program) : State :=
  { s with mirror := { s.mirror with dirty := (setPages p).foldl (fun m g => mset false m g true) s.mirror.dirty } }

/-- The cores with an image begin at PC; in deterministic mode every core refuses variable bundles first (R168, R176). -/
def startCores (s : State) (j : Job) : State :=
  (List.range 32).foldl (fun s c => s.modCore c fun k =>
    { k with
      vrefuse := k.vrefuse || j.det
      st := if (imageOf s c).isSome ∧ k.st = .idle then .running else k.st }) s

/-- The counts that run from job start (R170, R171). -/
def startCounts (s : State) : State :=
  let s := (List.range 32).foldl (fun s c => s.modCore c fun k => { k with twCount := 0 }) s
  (List.range 16).foldl (fun s p => s.modPair p fun x => { x with due := false, start := s.cycle, overdueSent := false }) s

/-- Table load begins at job start (R231): its progress counts the records that are absent. -/
def beginTableLoad (s : State) (p : Program) : State :=
  let tiered := p.tables.filter tTier
  let s := tiered.foldl (fun s d => fetchRange s (tPbase d) (ceilDiv (tLrows d) 8)) s
  let n := (tiered.map fun d => (absentRecords s d).length).sum
  endTableLoad (if n = 0 then s else s.beginProg 0x08 1 n)

/-- The job starts (R304, R369, R372, R421): for the first time, or again after a stop at a step boundary, when the cores go on. -/
def beginJob (s : State) (j : Job) : State :=
  if j.started then
    startCores { s with job := some { j with stopping := false, stopped := false, startAt := none } } j |>.jobEvent 2
  else
    let s := allDirty (firstScales (clearLedgers (journalApply s) j.prog) j.prog) j.prog
    let s := beginTableLoad { s with begun := [] } j.prog
    (startCores (startCounts { s with job := some { j with started := true, startAt := none } }) j).jobEvent 2

/-- A start that waits for its ports takes place once every cabled port is UP (R349). -/
def startIfReady (s : State) : State :=
  match s.job with
  | some j => if j.startAt.isSome && cabledUp s then beginJob s j else s
  | none => s

end Sys2Proof.Machine
end

