-- ==== Sys2Proof/Machine/Fabric.lean ====
section
/-!
DEFINITION. The fabric and twin ports (R309 to R335, R348 to R353): link-up, retry, credits, packet checks, windows, and the failures of a
port.
-/

namespace Sys2Proof.Machine

/-! ### Identity (R7, R314) -/

/-- The Scanel generation of this device (R7): the third. -/
abbrev scanelGen : Nat := 3

/-- The topology declaration of the program as bytes (R321). -/
def topologyBytes (p : Program) : List Byte :=
  toBytes 1 (if p.torus then 1 else 0) ++ toBytes 2 p.nD ++ toBytes 2 p.nP ++ toBytes 2 p.nT ++ toBytes 2 p.nS

/-- The highest generation that a port allows (R314, R352): the twin port runs generation 3 only. -/
def ownGen (s : State) (port : Nat) : BitVec 2 := if port = twinPort then 3 else (s.port port).maxgen

/-- The HELLO of a port (R314). -/
def helloOf (s : State) (port : Nat) : HelloPkt :=
  match s.job with
  | some j => ⟨(ownGen s port).toNat, s.grade, scanelGen, j.prog.jobId, BitVec.ofNat 11 j.rank, port, crc32c (topologyBytes j.prog)⟩
  | none => ⟨(ownGen s port).toNat, s.grade, scanelGen, 0, 0x7FF, port, 0⟩

/-! ### A port comes to an end (R320, R349) -/

/-- The ports by which the packets of an exchange operation leave: those toward the given ranks. -/
def usesPort (s : State) (ranks : List Nat) (port : Nat) : Bool := ranks.any fun r => (outPort s r).any fun x => x.1 == port

/-- The devices that a collective's group has beside this one, and its ring neighbours (R338). -/
def selectedAxes (d : Desc) : List Nat := (List.range 4).filter fun a => d.w0.getLsbD (4 + a)

/-- The group rank of a device over the selected axes (R322). -/
def groupRank (p : Program) (axes : List Nat) (r : Nat) : Nat :=
  (axes.foldl (fun (x : Nat × Nat) a => (x.1 + coord p r a * x.2, x.2 * axisSize p a)) (0, 1)).1

/-- The members of the group of device r (R338), in the order of their group ranks. -/
def groupMembers (p : Program) (axes : List Nat) (r : Nat) : List Nat :=
  axes.foldl (fun ms a => (List.range (axisSize p a)).flatMap fun x => ms.map fun m => rankAt p m a x) [r]

/-- The member with the next coordinate on an axis. -/
def successor (p : Program) (r a : Nat) : Nat := rankAt p r a ((coord p r a + 1) % axisSize p a)
/-- The member with the previous coordinate on an axis. -/
def predecessor (p : Program) (r a : Nat) : Nat := rankAt p r a ((coord p r a + axisSize p a - 1) % axisSize p a)

/-- The ring neighbours of this device in a collective, other than itself. -/
def ringNeighbours (s : State) (d : Desc) : List Nat :=
  match s.prog with
  | none => []
  | some p => (((selectedAxes d).flatMap fun a => [predecessor p s.rank a, successor p s.rank a]).eraseDups).filter (· != s.rank)

/-- The other devices that an exchange operation involves. -/
def opRanks (s : State) (o : XOp) : List Nat :=
  match s.prog with
  | none => []
  | some p => if o.kind = 1 then [fld o.desc.w7 0 10] else (groupMembers p (selectedAxes o.desc) s.rank).filter (· != s.rank)

/-- Whether an exchange operation has an identity (R336). -/
def XOp.isFor (o : XOp) (step : BitVec 32) (descId : BitVec 16) : Bool := o.step == step && o.descId == descId

/-- The open operation of an identity. -/
def xopOf (s : State) (step : BitVec 32) (descId : BitVec 16) : Option XOp := s.xops.find? fun o => o.isFor step descId

/-- The state with an operation replaced. -/
def putXop (s : State) (o : XOp) : State := { s with xops := s.xops.map fun x => if x.isFor o.step o.descId then o else x }

/-- The chunk of a member after the reduce-scatter of R339: its first element and its length. -/
def chunkOf (p : Program) (axes : List Nat) (r count : Nat) : Nat × Nat :=
  axes.foldl (fun (lo, len) a =>
    let n := axisSize p a
    let x := coord p r a
    (lo + x * len / n, (x + 1) * len / n - x * len / n)) (0, count)

/-! ### Landing space for partials (R341) -/

/-- Whether a segment stands in the reduction buffer of engine e: granted, and not folded yet. -/
def inBuffer (s : State) (e : Nat) (l : Landing) : Bool :=
  !l.spent && !l.dead && match l.use with | .collective _ st d => (xopOf s st d).any fun o => o.eng == e | _ => false

/-- The segments of 64 KiB that an engine's reduction buffer of 4 MiB holds. -/
abbrev bufferSegments : Nat := 64

/-- Grant a member a segment of landing space for an operation, `spent` when its bytes pass straight to their place. -/
def grantSegment (s : State) (o : XOp) (peer : Nat) (spent : Bool) : Option State :=
  (reserve s peer 65536 (.collective peer o.step o.descId)).map fun (s, tag) =>
    let s := { s with landings := mmod none s.landings tag fun l => l.map fun l => { l with spent := spent } }
    ship s (.grant peer ⟨s.rank, tag, 65536, false, o.step, o.descId⟩)

/-- What engine e still owes its operations' ring predecessors is granted, in order, while its buffer and the tags have room; `n` bounds the
segments. -/
def grantOwed (e : Nat) : Nat → State → State
  | 0, s => s
  | n + 1, s =>
    match s.xops.find? fun o => o.eng == e && !o.owed.isEmpty with
    | none => s
    | some o =>
      if (s.landings.filter fun x => x.2.any (inBuffer s e)).length < bufferSegments then
        match o.owed with
        | [] => s
        | (peer, m) :: rest =>
          match grantSegment s o peer false with
          | none => s
          | some t => grantOwed e n (putXop t { o with owed := if m ≤ 1 then rest else (peer, m - 1) :: rest })
      else s

/-- An operation is no longer open: its grants held here go, its reservations are freed, or kept when it failed (R332), and its engine grants
what it owes to others. -/
def closeXop (s : State) (o : XOp) (failed : Bool) : State :=
  let mine := fun (u : LandingUse) => match u with | .collective _ st d => st == o.step && d == o.descId | _ => false
  grantOwed o.eng bufferSegments <| retryTags
    { s with
      xops := s.xops.filter fun x => !x.isFor o.step o.descId
      grants := s.grants.filter fun g => !(g.grant.opStep == o.step && g.grant.opDesc == o.descId)
      landings := if failed then s.landings.map fun e => (e.1, e.2.map fun l => if mine l.use then { l with dead := true } else l)
        else s.landings.filter fun e => match e.2 with | some l => !mine l.use || l.dead | none => false }

/-- The bytes of the output of an exchange operation on this device: address and length (R339, R342). -/
def outputRange (s : State) (o : XOp) : Nat × Nat :=
  let sz := elemBytes (fld o.desc.w6 5 5)
  let dst := fld o.desc.w2 0 48
  let count := fld o.desc.w3 0 40
  let axes := selectedAxes o.desc
  match s.prog, o.kind with
  | some p, 2 => let c := chunkOf p axes s.rank count; (dst + c.1 * sz, c.2 * sz)
  | some p, 3 => (dst, (axes.map (axisSize p)).prod * count * sz)
  | _, 4 => (dst, count * sz)
  | _, _ => (dst, 0)

/-- The output of a failed collective is undefined (R343): free values. -/
def freeXopOutput (s : State) (o : XOp) : State :=
  let r := outputRange s o
  if o.kind = 1 then s
  else
    let bytes := (List.range r.2).map fun i => (Config.freeByte (s.fresh + i), false)
    outsideStore { s with fresh := s.fresh + r.2 } r.1 bytes

/-- An exchange operation fails (R343, R349): its record, no token, its output left undefined. -/
def failXop (s : State) (o : XOp) (code : Nat) : State :=
  let s := s.emit { code := code, uclass := 9, uinst := o.eng, opid := opidDesc o.descId o.step }
  freeXopOutput (closeXop s o true) o

/-- Every open operation whose route uses a port fails with link loss (R349). -/
def failRouted (s : State) (port : Nat) : State :=
  let s := (s.xops.filter fun o => usesPort s (opRanks s o) port).foldl (fun s o => failXop s o 0x51) s
  (s.lookups.filter fun l => !l.closed && usesPort s (l.waiting.filter (· != s.rank)) port).foldl (fun s l => failLookup s l 0x51) s

/-- What a port forgets when it leaves service: buffers, credits and its link identity. -/
def Port.clear (p : Port) : Port :=
  { p with peerHello := none, peerKey := none, gen := 0, width := 0, txSeq := 0, rxSeq := 0, replay := [], credits := [],
           stalled := [], waiting := [], discRetrain := false, laneGen := 0 }

/-- A port loses its link (R313, R320, R349): DOWN, a link-loss record when it carried a link, and its operations fail. A HELD port stays
so. -/
def portDown (s : State) (port : Nat) : State :=
  let p := s.port port
  if p.st = .down ∨ p.st = .held ∨ p.st = .quarantine then s
  else
    let live := p.peerKey.isSome
    let s := s.modPort port fun p => { p.clear with st := .down, since := s.cycle }
    let s := if port = twinPort then failCheckpoint s else s
    if live then failRouted (s.emit { code := 0x51, uclass := 9, uinst := port }) port else s

/-- A port enters QUARANTINE (R349). -/
def quarantine (s : State) (port code : Nat) : State :=
  let s := s.emit { code := code, uclass := 9, uinst := port }
  let s := s.modPort port fun p => { p with st := .quarantine, replay := [], waiting := [], stalled := [], discRetrain := false }
  failRouted (if port = twinPort then failCheckpoint s else s) port

/-! ### Link-up (R311 to R316) -/

/-- Lane groups of a port: three, or two on the twin port (R312). -/
def laneGroups (port : Nat) : List Nat := if port = twinPort then [0, 1] else [0, 1, 2]

/-- The lanes of a group. -/
def groupMask (g : Nat) : BitVec 12 := BitVec.ofNat 12 (0xF * 2 ^ (4 * g))

/-- The lanes of the groups that hold a lane of a set (R312). -/
def failedGroups (port : Nat) (bad : BitVec 12) : BitVec 12 :=
  (laneGroups port).foldl (fun m g => if bad &&& groupMask g ≠ 0 then m ||| groupMask g else m) 0

/-- The width that a number of good groups can build: 0 twelve lanes, 1 eight, 2 four, 3 none. -/
def widthOf (port : Nat) (bad : BitVec 12) : Nat := 3 - ((laneGroups port).filter fun g => bad &&& groupMask g = 0).length

/-- The widest width that the register allows (R352): on the twin port 0 is treated as 1. -/
def maxWidth (port : Nat) (p : Port) : Nat := if port = twinPort then max 1 p.maxw.toNat else p.maxw.toNat

/-- The reference clock of a port (R545): SDREF0 and SDREF1 serve four fabric ports each, SDREF2 the twin port. -/
def clockOf (port : Nat) : Nat := port / 4
/-- SIGNAL_DETECT (R313): a port that sees a signal has its reference clock. -/
def signalDetect (port : Nat) (s : State) : State :=
  let p := s.port port
  if p.st = .down ∧ p.en then
    { s with pins := { s.pins with sdref := s.pins.sdref ||| BitVec.ofNat 4 (2 ^ clockOf port) } }.modPort port fun p =>
      { p with st := .train, since := s.cycle }
  else s

/-- TRAIN_LOCK (R312, R313): the width that both ends can build; the port goes DOWN when none remains. -/
def trainLock (port : Nat) (lanesBad : BitVec 12) (peerWidth : BitVec 2) (laneGen : Nat) (s : State) : State :=
  let p := s.port port
  if p.st ≠ .train then s
  else
    let bad := failedGroups port (lanesBad ||| p.dropped)
    let w := max (max (widthOf port bad) peerWidth.toNat) (maxWidth port p)
    let s := s.modPort port fun p => { p with lanebad := bad }
    if 3 ≤ w then portDown s port
    else
      let s := s.modPort port fun p =>
        { p with st := .hello, since := s.cycle, width := BitVec.ofNat 2 w, laneGen := BitVec.ofNat 2 laneGen }
      { s with fabOut := s.fabOut ++ [.hello port (helloOf s port)] }

/-- TRAIN_TIMEOUT (R313): no lock within 1 s. -/
def trainTimeout (port : Nat) (s : State) : State :=
  let p := s.port port
  if p.st = .train ∧ p.since + cyclesOfUs 1000000 ≤ s.cycle then portDown s port else s

/-- Whether both sides carry the same job, generation and grade (R315). -/
def sameJob (s : State) (h : HelloPkt) : Bool :=
  match s.job with
  | some j => j.prog.jobId != 0 && h.jobId == j.prog.jobId && h.scanel == scanelGen && h.grade == s.grade
  | none => false

/-- Whether the key digest is the one that the placement lists for the rank cabled to a port (R315). -/
def placedPeer (s : State) (port : Nat) (digest : BitVec 384) : Bool :=
  match s.job with
  | some j => match cabledTo j.prog j.rank port with
    | some r => j.placement[r]? == some digest
    | none => false
  | none => false

/-- A port enters UP or FOREIGN with its peer; a retrain during which discards reached 16 ends in QUARANTINE (R350). -/
def portUp (s : State) (port : Nat) (st : LinkState) (key : BitVec 384) (rank : BitVec 11) : State :=
  let late := (s.port port).discRetrain
  let s := s.modPort port fun p => { p with st := st, since := s.cycle, peerKey := some key, peer := rank.truncate 10 }
  if late then quarantine s port 0x59
  else
    let again := (s.port port).replay.map (·.msg)
    startIfReady (drainPort { s with fabOut := s.fabOut ++ again } port)

/-- A port enters HELD with a fault (R315). -/
def holdPort (s : State) (port code : Nat) : State :=
  (s.emit { code := code, uclass := 9, uinst := port }).modPort port fun p => { p.clear with st := .held, since := s.cycle }

/-! ### Retrains (R312, R320, R352) -/

/-- Groups that have shown errors in three retrains within 10 s. -/
def worn (s : State) (p : Port) : List Nat :=
  [0, 1, 2].filter fun g => decide (3 ≤ (p.laneErr.filter fun e => e % 4 == g && decide (s.cycle ≤ e / 4 + cyclesOfUs 10000000)).length)

/-- A retrain of a port that carries a link (R320): groups worn before are dropped, and the errors of this one are remembered. -/
def retrainPort (s : State) (port : Nat) (errLanes : BitVec 12) : State :=
  s.modPort port fun p =>
    { p with
      st := .train
      since := s.cycle
      retrain := satAdd 8 p.retrain 1
      dropped := (worn s p).foldl (fun m g => m ||| groupMask g) p.dropped
      laneErr := p.laneErr ++ ((laneGroups port).filter fun g => errLanes &&& groupMask g ≠ 0).map fun g => 4 * s.cycle + g }

/-- LINK_RETRAIN (R320). -/
def linkRetrain (port : Nat) (errLanes : BitVec 12) (s : State) : State :=
  let p := s.port port
  if p.st = .up ∨ p.st = .foreign then retrainPort s port errLanes else s

/-- FAB_RETRAIN (R352): UP and FOREIGN retrain; HELD tries link-up again. -/
def fabRetrain (port : Nat) (s : State) : State :=
  let p := s.port port
  if p.st = .up ∨ p.st = .foreign then retrainPort { s with fabOut := s.fabOut ++ [.retrain port] } port 0
  else if p.st = .held then s.modPort port fun p => { p with st := .train, since := s.cycle }
  else s

/-- Every port that is not DOWN or QUARANTINE retrains (R316). -/
def retrainAll (s : State) : State :=
  (List.range 9).foldl (fun s x =>
    let st := (s.port x).st
    if st = .down ∨ st = .quarantine then s else retrainPort s x 0) s

/-! ### Acknowledgement and credits (R320, R330) -/

/-- Whether an entry of the replay buffer holds the packet with a SEQ. -/
def ReplayEntry.covers (e : ReplayEntry) (seq : BitVec 12) : Bool := decide ((seq - e.seq).toNat < e.count)

/-- LINK_ACK (R320): the packets up to the acknowledged one leave the replay buffer; a message stays until all of its packets are
acknowledged. What waited for the buffer's room may leave. -/
def linkAck (port : Nat) (seq : BitVec 12) (s : State) : State :=
  let p := s.port port
  if p.replay.any fun e => e.covers seq then
    let rest := p.replay.dropWhile fun e => !e.covers seq
    let done := match rest with | e :: _ => seq == e.seq + BitVec.ofNat 12 (e.count - 1) | [] => false
    drainPort (s.modPort port fun p => { p with replay := if done then rest.drop 1 else rest }) port
  else s

/-- LINK_NAK (R320): replay in order from the named SEQ; a packet replayed 8 times makes the link retrain. -/
def linkNak (port : Nat) (seq : BitVec 12) (s : State) : State :=
  let p := s.port port
  let tail := p.replay.dropWhile fun e => !e.covers seq
  if (p.st ≠ .up ∧ p.st ≠ .foreign) ∨ tail = [] then s
  else
    let again := tail.map fun e => { e with times := e.times + 1 }
    let s := s.modPort port fun p =>
      { p with replay := p.replay.takeWhile (fun e => !e.covers seq) ++ again, replayCnt := satAdd 16 p.replayCnt 1 }
    let s := { s with fabOut := s.fabOut ++ tail.map (·.msg) }
    if again.any fun e => decide (8 ≤ e.times) then retrainPort s port 0 else s

/-- CREDIT_RETURN (R330): what waits may leave; the credit timer of a subchannel starts afresh. In
QUARANTINE it is ignored (R393). -/
def creditReturn (port : Nat) (vc : BitVec 3) (dl : Bool) (n : Nat) (s : State) : State :=
  let key := subchannel vc.toNat dl
  if (s.port port).st = .quarantine then s else
  let s := s.modPort port fun p => { p with credits := mmod 0 p.credits key (· - n), stalled := mset 0 p.stalled key 0 }
  let s := drainPort s port
  s.modPort port fun p =>
    if p.waiting.any fun w => w.1 == key then { p with stalled := mset 0 p.stalled key (s.cycle + 1) } else p

/-- CREDIT_TIMEOUT (R349, R350): waiting packets and no credit for CRED_TMO. -/
def creditTimeout (port : Nat) (vc : BitVec 3) (dl : Bool) (s : State) : State :=
  let p := s.port port
  let key := subchannel vc.toNat dl
  let start := mget 0 p.stalled key
  if p.st = .up ∧ start ≠ 0 ∧ (p.waiting.any fun w => w.1 == key) ∧ start - 1 + cyclesOfUs (1000 * p.credTmo.toNat) ≤ s.cycle then
    quarantine s port 0x58
  else s

/-- LINK_DOWN (R349). -/
def linkDown (port : Nat) (s : State) : State := portDown s port

/-- LINK_ABSENT_TIMEOUT (R349): a cabled port is not UP within UP_TMO of the job's start; the job does not start. -/
def linkAbsent (port : Nat) (s : State) : State :=
  match s.job with
  | none => s
  | some j =>
    match j.startAt with
    | none => s
    | some t =>
      let p := s.port port
      if (cabledTo j.prog j.rank port).isSome ∧ p.st ≠ .up ∧ p.upTmo ≠ 0 ∧ t + cyclesOfUs (1000000 * p.upTmo.toNat) ≤ s.cycle then
        { s.emit { code := 0x50, uclass := 9, uinst := port } with job := some { j with startAt := none } }
      else s

/-! ### Discards (R349) -/

/-- A discard on a port: counted, with a record for the first of its kind in the 1 ms window; the sixteenth quarantines the port. -/
def discard (s : State) (port code : Nat) : State :=
  let w := s.nowNs / 1000000
  let s := s.modPort port fun p => if p.discWindow = w then p else { p with discWindow := w, discCount := 0, discKinds := [] }
  let kind := BitVec.ofNat 8 code
  let s := if (s.port port).discKinds.contains kind then s else s.emit { code := code, uclass := 9, uinst := port }
  let s := s.modPort port fun p =>
    { p with discard := satAdd 16 p.discard 1, discCount := p.discCount + 1,
             discKinds := if p.discKinds.contains kind then p.discKinds else p.discKinds ++ [kind] }
  if (s.port port).discCount < 16 then s
  else if (s.port port).st = .up ∨ (s.port port).st = .foreign then quarantine s port 0x59
  else s.modPort port fun p => { p with discRetrain := true }

/-! ### Packets (R317 to R320, R326) -/

/-- The link checks of R320: 0 accept, 1 a CRC error, 2 a duplicate, 3 a gap. -/
def linkCheck (p : Port) (f : Frame) : Nat :=
  if !f.crcOk then 1
  else if f.head.seq = p.rxSeq then 0
  else if (p.rxSeq - f.head.seq).toNat ≤ 2048 then 2 else 3

/-- Whether a port is in a state in which packets reach its checks: it carries a link, or retrains one. -/
def portListens (p : Port) : Bool :=
  match p.st with
  | .up | .foreign => true
  | .hello | .auth => p.peerKey.isSome
  | _ => false

/-- A packet with a CRC error is counted. -/
def countCrc (s : State) (port : Nat) : State := s.modPort port fun p => { p with crc := satAdd 16 p.crc 1 }

/-- The link layer takes a packet (R320): what comes of it, and whether the packet goes on to the checks. -/
def linkAccept (s : State) (port : Nat) (f : Frame) : State × Bool :=
  let p := s.port port
  if !portListens p then (s, false)
  else
    let nak := fun (s : State) => { s with fabOut := s.fabOut ++ [.nak port p.rxSeq] }
    match linkCheck p f with
    | 0 => ({ s.modPort port (fun p => { p with rxSeq := p.rxSeq + 1 }) with fabOut := s.fabOut ++ [.ack port f.head.seq] }, true)
    | 1 => (nak (countCrc s port), false)
    | 2 => (s, false)
    | _ => (nak s, false)

/-- Whether a device takes a packet from a port (R326): DST is its own rank, or the route from SRC to DST enters it by that port with that
DL. DEDUCED (log 133): a device without a job has no rank, and takes what a FOREIGN port brings. -/
def routed (s : State) (port : Nat) (h : PktHead) : Bool :=
  match s.prog with
  | none => (s.port port).st == .foreign
  | some p =>
    h.dst.toNat == s.rank || ((s.port port).st != .foreign && decide (h.src.toNat < programSize p) && decide (h.dst.toNat < programSize p) &&
      (route p h.src.toNat h.dst.toNat).any fun x => x.rank == s.rank && x.entry == port && x.dl == h.dl)

/-- Whether a packet lands here: DST is this device's rank, or the device has none. -/
def landsHere (s : State) (h : PktHead) : Bool := s.prog.isNone || h.dst.toNat == s.rank

/-- The receive buffer of a packet is free again: its credits go back (R330). CTL needs none. -/
def returnCredits (s : State) (port : Nat) (f : Frame) : State :=
  if f.head.vc = 0 then s else { s with fabOut := s.fabOut ++ [.credit port f.head.vc f.head.dl (f.payload.length / 16 + 1)] }

/-- A CTL or barrier packet for this device (R317, R318, R320, R326): what the checks leave, and whether its effect follows. A port carries it
while it is UP (R313). -/
def ctlArrives (s : State) (port typ : Nat) (f : Frame) : State × Bool :=
  let x := linkAccept s port f
  if !x.2 then x
  else
    let t := returnCredits x.1 port f
    if f.head.typ.toNat ≠ typ ∨ f.malformed then (discard t port 0x57, false)
    else if !routed t port f.head || !landsHere t f.head then (discard t port 0x56, false)
    else (t, (s.port port).st == .up)

/-! ### HELLO and AUTH (R314, R315) -/

/-- A HELLO or AUTH packet at its port: what the checks leave, and whether it is taken. DEDUCED (log 133): it needs no SEQ, since it comes
before the link has one, or comes back after a retrain that lost some. -/
def linkUpArrives (s : State) (port typ : Nat) (f : Frame) : State × Bool :=
  if !f.crcOk then (countCrc s port, false)
  else if f.head.typ.toNat ≠ typ ∨ f.malformed then (discard s port 0x57, false)
  else (s, true)

/-- The lower generation of both ends is taken; a link trained above it retrains at the lower rate (R314). Then this end sends its nonce and
its chain (R315). -/
def helloTaken (port : Nat) (h : HelloPkt) (s : State) : State :=
  let p := s.port port
  let g := min (ownGen s port).toNat h.gen
  if g < p.laneGen.toNat then
    s.modPort port fun p => { p with st := .train, since := s.cycle, gen := BitVec.ofNat 2 g, retrain := satAdd 8 p.retrain 1 }
  else
    let nonce := Config.freeNonce s.fresh
    let s := s.modPort port fun p => { p with st := .auth, since := s.cycle, gen := BitVec.ofNat 2 g, peerHello := some h, nonce := nonce }
    { s.draw with fabOut := s.fabOut ++ [.auth port nonce Config.certChain] }

/-- HELLO_PACKET (R314). -/
def helloPacket (port : Nat) (f : Frame) (h : HelloPkt) (s : State) : State :=
  if (s.port port).st ≠ .hello then s
  else
    let x := linkUpArrives s port 8 f
    if x.2 then helloTaken port h x.1 else x.1

/-- What this end signs (R315): the SHA-384 digest of the transcript, under both of its identity keys. -/
def signTranscript (s : State) (port : Nat) (h : HelloPkt) (peerNonce : BitVec 256) : State :=
  let digest := Config.sha384 (transcript (helloOf s port) (s.port port).nonce h peerNonce)
  { s with fabOut := s.fabOut ++ [.authSign port (Config.signEd digest) (Config.signMl digest)] }

/-- How an AUTH exchange ends (R315, R320): HELD, UP or FOREIGN; after a retrain a changed identity takes the port DOWN with link loss. -/
def authJudged (port : Nat) (h : HelloPkt) (a : AuthPkt) (s : State) : State :=
  let p := s.port port
  if !a.verifies then holdPort s port 0x53
  else if p.peerKey.isSome && (p.peerKey != some a.keyDigest || !a.sameKey) then portDown s port
  else if sameJob s h then
    if placedPeer s port a.keyDigest then portUp s port .up a.keyDigest h.rank else holdPort s port 0x52
  else portUp s port .foreign a.keyDigest h.rank

/-- AUTH_PACKET (R315). -/
def authPacket (port : Nat) (f : Frame) (a : AuthPkt) (s : State) : State :=
  match (s.port port).st, (s.port port).peerHello with
  | .auth, some h =>
    let x := linkUpArrives s port 9 f
    if x.2 then authJudged port h a (signTranscript x.1 port h a.nonce) else x.1
  | _, _ => s

/-! ### Landing (R318, R319, R331, R332, R335) -/

/-- The written bytes of a packet with their marks: bit j of PSN is the j-th granule from that of the first byte (R319). -/
def payloadBytes (k : Packet) (off : Nat) : List PByte :=
  k.body.zipIdx.map fun (b, i) => (b, k.frame.head.psn.getLsbD ((off + i) / 64 - off / 64))

/-- Window entry w (R354). -/
def State.window (s : State) (w : Nat) : Word × Word := mget (0, 0) s.xwin w

/-- The virtual channel of the class of what a tag names (R318, R328, R348): PUT writes XCH, mirror and migration writes MIR, payloads REQ,
responses RSP, collectives XCH; none for a tag that names nothing. -/
def classVc (s : State) (port tag : Nat) : Option (BitVec 3) :=
  if port = twinPort ∨ (s.port port).st = .foreign then some 4
  else if tag < 64 then some 2
  else (mget none s.landings tag).map fun l =>
    match l.use with | .lookupPayload .. => 3 | .lookupResponse .. => 1 | .collective .. => 2

/-- Whether a window allows the use that a packet on a port has (R313, R335): mirror writes on the twin port and PUT writes on a fabric port,
each while it is UP, migration writes on a FOREIGN port that permits them. -/
def windowUse (e : Word) (port : Nat) (p : Port) : Bool :=
  match p.st with
  | .up => if port = twinPort then e.getLsbD 61 else e.getLsbD 62
  | .foreign => e.getLsbD 60 && p.migr
  | _ => false

/-- Whether a write into a window is allowed (R335). -/
def windowOk (s : State) (port : Nat) (k : Packet) : Bool :=
  let e := s.window k.tag
  e.1.getLsbD 63 && decide (fld e.2 44 10 ≤ k.src) && decide (k.src ≤ fld e.2 54 10) &&
    decide (k.off + k.use.size ≤ fld e.2 12 32 * 4096) && windowUse e.1 port (s.port port)

/-- The device address of a packet's place in its window. -/
def windowAddr (s : State) (k : Packet) : Nat := fld (s.window k.tag).1 12 36 * 4096 + k.off

/-- Whether a packet is a PUT write: on a fabric port that is UP. -/
def isPut (s : State) (port : Nat) : Bool := port != twinPort && (s.port port).st == .up

/-- A write into a window (R319, R335, R345): the granules with their marks; the last packet of a PUT adds the peer's token and returns
DONE; a mirror write refreshes the header's CRC (R370). -/
def windowWrite (s : State) (port : Nat) (k : Packet) : State :=
  if !windowOk s port k then discard s port 0x54
  else
    let put := isPut s port
    let s := store s (windowAddr s k) (payloadBytes k k.off)
    if put then
      if k.use.last then
        let s := match k.use.rtok with | some (c, t) => s.addToken c.toNat t.toNat 1 | none => s
        ship s (.done k.src k.use.opStep k.use.opDesc)
      else s
    else if port = twinPort then refreshHeader s (windowAddr s k) k.use.size
    else s

end Sys2Proof.Machine
end

