-- ==== Sys2Proof/Machine/Exchange.lean ====
section
/-!
DEFINITION. The exchange engines (R336 to R346): the descriptor, PUT, collectives in ring order, and the packet commands of the fabric.
-/

namespace Sys2Proof.Machine

/-! ### The descriptor (R336, R337) -/

/-- OP. -/
def xOp (d : Desc) : Nat := fld d.w0 0 4
/-- ROP: 0 sum, 1 max, 2 min. -/
def xRop (d : Desc) : Nat := fld d.w0 8 2
/-- COUNT. -/
def xCount (d : Desc) : Nat := fld d.w3 0 40
/-- IFMT. -/
def xIfmt (d : Desc) : Nat := fld d.w6 0 5
/-- OFMT. -/
def xOfmt (d : Desc) : Nat := fld d.w6 5 5
/-- WFMT. -/
def xWfmt (d : Desc) : Nat := fld d.w6 10 2
/-- Gradient class. -/
def xGradient (d : Desc) : Bool := fld d.w6 14 2 == 2
/-- XS. -/
def xXs (d : Desc) : Int := signed 16 (fld d.w6 16 16)
/-- Values stay as L64. -/
def xL64 (d : Desc) : Bool := xIfmt d == 8
/-- SRC. -/
def xSrc (d : Desc) : Nat := fld d.w1 0 48
/-- DST. -/
def xDst (d : Desc) : Nat := fld d.w2 0 48

/-- The format of a partial on the wire, as a code of R152. -/
def wireFmt (d : Desc) : Nat := if xL64 d then 8 else match xWfmt d with | 1 => 0 | 2 => 2 | _ => 7

/-- Whether a format is one of R336. -/
def xFormat (f : Nat) : Bool := [0, 1, 2, 6, 7, 8].contains f

/-- Whether a bit that R336 does not name is set (R18). -/
def xStray (d : Desc) : Bool :=
  strayBits d.w0 [(0, 11), (16, 27)] || strayBits d.w1 [(0, 48)] || strayBits d.w2 [(0, 48)] || strayBits d.w3 [(0, 40)] ||
    strayBits d.w4 [(0, 32)] || strayBits d.w5 [(0, 48)] || strayBits d.w6 [(0, 32)] || strayBits d.w7 [(0, 28)]

/-- Whether a named field holds a value that R336 does not list. -/
def xReserved (d : Desc) : Bool := xRop d == 3 || xWfmt d == 3 || xOp d == 0 || decide (4 < xOp d)

/-- Whether the engine refuses a descriptor (R337). -/
def xchgFault (s : State) (kind : Nat) (adaptive : Bool) (d : Desc) : Bool :=
  match s.prog with
  | none => true
  | some p =>
    let axes := selectedAxes d
    let put := xOp d == 1
    let isz := elemBytes (xIfmt d)
    let osz := elemBytes (xOfmt d)
    let n := (axes.map (axisSize p)).prod
    let peer := fld d.w7 0 10
    let chunk := chunkOf p axes s.rank (xCount d)
    let outOk := match xOp d with
      | 2 => chunk.2 == 0 || mayOutput s (xDst d + chunk.1 * osz) (chunk.2 * osz)
      | 3 => mayOutput s (xDst d) (n * xCount d * osz)
      | _ => mayOutput s (xDst d) (xCount d * osz)
    xReserved d || xOp d != kind || put != axes.isEmpty || (d.w0.getLsbD 10 && !adaptive) ||
      (if put then peer == s.rank || decide (programSize p ≤ peer) || (xCount d != 0 && !inProgram s (xSrc d) (xCount d))
       else !xFormat (xIfmt d) || !xFormat (xOfmt d) || (xL64 d && xWfmt d != 0) ||
         (xCount d != 0 && (!inProgram s (xSrc d) (xCount d * isz) || !outOk)))

/-- The CRC of the first packet of a collective (R343), over the seven values as 8 little-endian bytes each. -/
def xCrc (d : Desc) : BitVec 32 :=
  crc32c ([xOp d, fld d.w0 4 4, xRop d, xCount d, xIfmt d, xWfmt d, (dId d).toNat].flatMap fun v => toBytes 8 v)

/-! ### Packets that leave (R317, R319, R341) -/

/-- A DATA packet of class 3 of an operation, for a member. -/
def xchPacket (s : State) (o : XOp) (dst : Nat) (bytes : List Byte) : Packet :=
  let k := dataTo s 2 dst 0 0 bytes 0
  { k with use := { k.use with opStep := o.step, opDesc := o.descId } }

/-- A packet in its place: tag, offset, poison. -/
def placed (k : Packet) (tag off : Nat) (psn : BitVec 5) : Packet :=
  { k with frame := { k.frame with head := { k.frame.head with tag := BitVec.ofNat 15 tag, off := BitVec.ofNat 32 (off / 16), psn := psn } } }

/-- The grant with room for `n` bytes toward a member. -/
def grantFor (s : State) (o : XOp) (peer n : Nat) : Option HeldGrant :=
  s.grants.find? fun g => g.grant.peer == peer && g.grant.opStep == o.step && g.grant.opDesc == o.descId && decide (g.used + n ≤ g.grant.size)

/-- Send what waits and has a grant (R341): each packet takes the next 16-byte aligned place of the grant. The marks of a gathered piece are
those of the granules of its place in the output, the destination range of R319. -/
def flushOut (s : State) (o : XOp) : State × XOp :=
  o.outbox.foldl (fun (x : State × XOp) (w : Nat × Packet × List Bool) =>
    let (s, o) := x
    let (peer, k, marks) := w
    match grantFor s o peer k.frame.payload.length with
    | none => (s, { o with outbox := o.outbox ++ [w] })
    | some g =>
      let base := if k.use.axis = 4 then xDst o.desc + k.use.first * elemBytes (xOfmt o.desc) else g.used
      let k := placed k g.grant.tag g.used (psnBits base marks)
      let k := { k with use := { k.use with opCrc := if o.sentCrc then none else some (xCrc o.desc) } }
      let s := { s with grants := s.grants.map fun h => if h.grant.tag = g.grant.tag ∧ h.grant.peer = peer then
        { h with used := h.used + k.frame.payload.length } else h }
      (ship s (.data peer k), { o with sentCrc := true })) (s, { o with outbox := [] })

/-- The segments that hold a number of packets, 273 each (R341). -/
def segmentsFor (packets : Nat) : Nat := ceilDiv packets 273

/-- Grant a member the space for its gathered piece, which passes straight to the output. -/
def grantPiece (s : State) (o : XOp) (peer packets : Nat) : State :=
  (List.range (segmentsFor packets)).foldl (fun s _ => (grantSegment s o peer true).getD s) s

/-- A segment whose last place has been folded leaves the reduction buffer. -/
def spendFull (s : State) (k : Packet) : State :=
  if 65536 - 240 < 16 * k.frame.head.off.toNat + k.frame.payload.length then
    { s with landings := mmod none s.landings k.tag fun l => l.map fun l => { l with spent := true } }
  else s

/-- Every segment that a ring predecessor holds for an operation leaves the reduction buffer: its stage is over. -/
def spendStage (s : State) (o : XOp) (peer : Nat) : State :=
  { s with landings := s.landings.map fun e =>
      (e.1, e.2.map fun l => if l.use == .collective peer o.step o.descId then { l with spent := true } else l) }

/-- Packets of 240 bytes at most for a number of elements. -/
def packetsFor (n bytes : Nat) : Nat := ceilDiv n (240 / bytes)

/-! ### Folding (R338 to R340, R342) -/

/-- An L64 sum saturates at the 64-bit range, one event, when it leaves the collective (R342). -/
def satL64 (v : BitVec 128) : Int × Nat :=
  let z := v.toInt
  if z < -(2 ^ 63) then (-(2 ^ 63), 1) else if 2 ^ 63 ≤ z then (2 ^ 63 - 1, 1) else (z, 0)

/-- The value that the output conversion reads: a member of Z56, or n × 2^XS. -/
def xValue (d : Desc) (l : XLane) : XNum :=
  if xL64 d then decodeElem 8 (xXs d) (BitVec.ofInt 64 (satL64 l.val).1).toNat else ofZ56 l.val.toNat

/-- A member's value folded into a partial (R339): exact for L64, rounded to nearest for Z56; the comparison of R121 for max and min. -/
def foldLane (d : Desc) (t v : XLane) : XLane :=
  let psn := t.psn || v.psn
  match xRop d with
  | 0 => if xL64 d then ⟨t.val + v.val, psn⟩ else ⟨BitVec.ofNat 128 (toZ56 (addZ56 (ofZ56 t.val.toNat) (ofZ56 v.val.toNat))), psn⟩
  | r =>
    if xL64 d then ⟨BitVec.ofInt 128 (if r = 1 then max t.val.toInt v.val.toInt else min t.val.toInt v.val.toInt), psn⟩
    else
      let a := ofZ56 t.val.toNat
      let b := ofZ56 v.val.toNat
      ⟨BitVec.ofNat 128 (toZ56 (if r = 1 then XNum.max a b else XNum.min a b)), psn⟩

/-- The first fold of a chunk: +0 plus the member's value for a sum, the value itself for a max or a min. -/
def firstLane (d : Desc) (v : XLane) : XLane := if xRop d = 0 then foldLane d {} v else v

/-- The bytes of a partial on the wire: an exact L64 partial takes sixteen. -/
def wireBytes (d : Desc) : Nat := if xL64 d then 16 else elemBytes (wireFmt d)

/-- A partial as it goes on the wire (R340): the conversion of element i by a member of a group rank. -/
def wirePartial (s : State) (o : XOp) (grank i : Nat) (t : XLane) : Conv :=
  let id : DrawId := ⟨s.seed, 3, o.step.toNat, fld o.desc.w4 0 32, 1 + grank⟩
  let mode := if xGradient o.desc then Rnd.sr else Rnd.rne
  if wireFmt o.desc = 8 ∨ wireFmt o.desc = 7 then ⟨t.val.toNat, 0, 0⟩
  else encodeElem (wireFmt o.desc) 0 mode (drawElem id (fld o.desc.w5 0 48 + i)) (ofZ56 t.val.toNat)

/-- A partial as it is received: widened exactly. -/
def unwire (d : Desc) (bits : Nat) : BitVec 128 :=
  if wireFmt d = 8 ∨ wireFmt d = 7 then BitVec.ofNat 128 bits else BitVec.ofNat 128 (toZ56 (decodeElem (wireFmt d) 0 bits))

/-- The output conversion of element i (R340, R342, R57), the event of an L64 sum among its own. -/
def outConv (s : State) (o : XOp) (i : Nat) (t : XLane) : Conv :=
  let id : DrawId := ⟨s.seed, 3, o.step.toNat, fld o.desc.w4 0 32, 0⟩
  let mode := if xGradient o.desc then Rnd.sr else rndOf (fld o.desc.w6 12 2)
  let c := encodeElem (xOfmt o.desc) (xXs o.desc) mode (drawElem id (fld o.desc.w5 0 48 + i)) (xValue o.desc t)
  { c with sat := c.sat + if xL64 o.desc then (satL64 t.val).2 else 0 }

/-- Count the events of conversions at the engine that runs an operation. -/
def countConvs (s : State) (o : XOp) (cs : List Conv) : State := countEngine s o.eng (cs.map (·.sat)).sum (cs.map (·.nf)).sum

/-- Split a list of converted elements into packets of an operation, from element `first` on. -/
def elementPackets (s : State) (o : XOp) (dst axis chunk folds first bytes : Nat) (els : List (Nat × Bool)) : List (Nat × Packet × List Bool) :=
  let per := 240 / bytes
  let cs := chunksOf per els.length els
  cs.zipIdx.map fun (c, j) =>
    let k := xchPacket s o dst (c.flatMap fun e => toBytes bytes e.1)
    (dst,
      { k with use := { k.use with
          axis := axis, chunk := chunk, folds := folds, first := first + j * per, last := j + 1 == cs.length } },
      c.flatMap fun e => List.replicate bytes e.2)

/-- Queue partials of a chunk, from element `first` on, for the next member on an axis (R339). -/
def sendPartials (s : State) (o : XOp) (p : Program) (axis chunk folds first : Nat) (ts : List XLane) : State × XOp :=
  let g := groupRank p (selectedAxes o.desc) s.rank
  let cs := ts.zipIdx.map fun (t, i) => wirePartial s o g (first + i) t
  let els := (cs.zip ts).map fun (c, t) => (c.bits, t.psn)
  (countConvs s o cs,
    { o with outbox := o.outbox ++ elementPackets s o (successor p s.rank axis) axis chunk folds first (wireBytes o.desc) els })

/-! ### Stages of a reduction (R339) -/

/-- The current axis of a reduction. -/
def stageAxis (o : XOp) : Option Nat := (selectedAxes o.desc)[o.stage]?

/-- The bounds of chunk c of the current stage: first element and length. -/
def stageChunk (o : XOp) (n c : Nat) : Nat × Nat := (o.lo + c * o.len / n, (c + 1) * o.len / n - c * o.len / n)

/-- The member that starts chunk c: the one after c, or for an adaptive order one that the link loads choose (R344). -/
def chunkStart (o : XOp) (n axis c : Nat) : Nat :=
  if o.adaptive then Config.freeRingStart (((o.step.toNat * 2 ^ 16 + o.descId.toNat) * 4 + axis) * 1024 + c) % n else (c + 1) % n

/-- This member's value of element i in the current stage. -/
def stageVal (o : XOp) (i : Nat) : XLane := nth o.vals (i - o.lo) {}

/-- Keep final elements of this member's own chunk. -/
def keepFinal (o : XOp) (first : Nat) (ts : List XLane) : XOp :=
  { o with got := ts.zipIdx.foldl (fun m (t, i) => mset none m (first + i) (some t)) o.got }

/-- What becomes of elements that have now been folded by `folds` members: final and this member's own, or on to the next member. -/
def passOn (s : State) (o : XOp) (p : Program) (axis n chunk folds first : Nat) (ts : List XLane) : State × XOp :=
  let o := { o with handled := o.handled + ts.length }
  if folds = n ∧ chunk = coord p s.rank axis then (s, keepFinal o first ts) else sendPartials s o p axis chunk folds first ts

/-- A stage begins: this member starts its chunks. -/
def beginStage (s : State) (o : XOp) (p : Program) : State × XOp :=
  match stageAxis o with
  | none => (s, o)
  | some a =>
    let n := axisSize p a
    let x := coord p s.rank a
    ((List.range n).filter fun c => chunkStart o n a c == x).foldl (fun (y : State × XOp) c =>
      let b := stageChunk o n c
      passOn y.1 y.2 p a n c 1 b.1 ((List.range b.2).map fun i => firstLane o.desc (stageVal o (b.1 + i)))) (s, o)

/-- The lanes that a packet of partials carries. -/
def packetLanes (o : XOp) (k : Packet) : List XLane :=
  (chunksOf (wireBytes o.desc) k.use.size (payloadBytes k k.off)).map fun bs => ⟨unwire o.desc (fromBytes (bs.map (·.1))), bs.any (·.2)⟩

/-- A packet of partials is folded, or kept until its stage begins. -/
def absorb (p : Program) (x : State × XOp) (k : Packet) : State × XOp :=
  let (s, o) := x
  let u := k.use
  if stageAxis o ≠ some u.axis then (s, { o with early := o.early ++ [k] })
  else
    let s := spendFull s k
    let n := axisSize p u.axis
    let ts := packetLanes o k
    if n ≤ u.folds then passOn s o p u.axis n u.chunk n u.first ts
    else passOn s o p u.axis n u.chunk (u.folds + 1) u.first (ts.zipIdx.map fun (t, i) => foldLane o.desc t (stageVal o (u.first + i)))

/-- The elements that pass member x in a stage: each once to be folded; a chunk that did not start after its own member travels on to that
member once it is folded by all (R344). -/
def stageLoad (o : XOp) (n axis x : Nat) : Nat :=
  o.len + (((List.range n).filter fun c =>
    let k := chunkStart o n axis c
    k != (c + 1) % n && decide ((x + n - k) % n ≤ (c + n - k) % n)).map fun c => (stageChunk o n c).2).sum

/-- Whether this member has no more work in the stage: its own chunk is final, and every other chunk has passed on. -/
def stageOver (s : State) (o : XOp) (p : Program) : Bool :=
  match stageAxis o with
  | none => false
  | some a =>
    let n := axisSize p a
    let x := coord p s.rank a
    o.got.length == (stageChunk o n x).2 && o.handled == stageLoad o n a x

/-- The next stage: this member's chunk becomes its range. -/
def nextStage (s : State) (o : XOp) (p : Program) : XOp :=
  match stageAxis o with
  | none => o
  | some a =>
    let b := stageChunk o (axisSize p a) (coord p s.rank a)
    { o with
      stage := o.stage + 1
      lo := b.1
      len := b.2
      vals := (List.range b.2).map fun i => (mget none o.got (b.1 + i)).getD {}
      got := []
      early := []
      handled := 0 }

/-! ### Output (R339, R342) -/

/-- Convert and write elements of the output, element i of the list at position `pos + i`, conversion index `idx + i`. -/
def writeElems (s : State) (o : XOp) (pos idx : Nat) (ts : List XLane) : State × List Conv :=
  let sz := elemBytes (xOfmt o.desc)
  let cs := ts.zipIdx.map fun (t, i) => outConv s o (idx + i) t
  let bytes := (cs.zip ts).flatMap fun (c, t) => marked t.psn (toBytes sz c.bits)
  (outsideStore (countConvs s o cs) (xDst o.desc + pos * sz) bytes, cs)

/-- The piece of the output that a member of the group gives: position and length. -/
def pieceOf (p : Program) (o : XOp) (r : Nat) : Nat × Nat :=
  let axes := selectedAxes o.desc
  if o.kind = 3 then (groupRank p axes r * xCount o.desc, xCount o.desc) else chunkOf p axes r (xCount o.desc)

/-- Whether every piece of an all-gather has been written. -/
def gatherDone (s : State) (p : Program) (o : XOp) : Bool :=
  let axes := selectedAxes o.desc
  o.gathering && ((groupMembers p axes s.rank).all fun r => r == s.rank || (pieceOf p o r).2 == 0 || o.gathered.contains (groupRank p axes r))

/-- This member's piece is written here and queued for every other member (R342). -/
def startGather (s : State) (o : XOp) (p : Program) : State × XOp :=
  let axes := selectedAxes o.desc
  let b := pieceOf p o s.rank
  let w := writeElems s o b.1 b.1 o.vals
  let els := (w.2.zip o.vals).map fun (c, t) => (c.bits, t.psn)
  let others := (groupMembers p axes s.rank).filter (· != s.rank)
  let out := others.flatMap fun r => elementPackets w.1 o r 4 (groupRank p axes s.rank) 0 b.1 (elemBytes (xOfmt o.desc)) els
  (w.1, { o with gathering := true, outbox := o.outbox ++ out })

/-- The reduction is over: the member's chunk is written, or gathered. -/
def finishReduce (s : State) (o : XOp) (p : Program) : State × XOp :=
  if o.kind = 2 then ((writeElems s o o.lo o.lo o.vals).1, { o with written := true }) else startGather s o p

/-- Stages follow one another while they are complete; `fuel` bounds them. -/
def advanceStages (p : Program) : Nat → State × XOp → State × XOp
  | 0, x => x
  | f + 1, x =>
    let (s, o) := x
    if !stageOver s o p then x
    else
      let kept := o.early
      let s := match stageAxis o with | some a => spendStage s o (predecessor p s.rank a) | none => s
      let o := nextStage s o p
      if (stageAxis o).isNone then finishReduce s o p
      else advanceStages p f (kept.foldl (absorb p) (beginStage s o p))

/-- An operation goes on: stages, the end of a gather, the packets that may leave; its state is kept, and its engine grants what it owes. -/
def settle (p : Program) (x : State × XOp) : State :=
  let y := advanceStages p 5 x
  let o := if gatherDone y.1 p y.2 then { y.2 with written := true } else y.2
  let z := flushOut y.1 o
  grantOwed o.eng bufferSegments (putXop z.1 z.2)

/-! ### Starting an operation (R336, R337, R341, R345) -/

/-- The input elements of a collective as lanes (R338). -/
def readInput (s : State) (d : Desc) : List XLane :=
  let sz := elemBytes (xIfmt d)
  (List.range (xCount d)).map fun i =>
    let bs := readP s (xSrc d + i * sz) sz
    let bits := fromBytes (bs.map (·.1))
    ⟨if xL64 d then (BitVec.ofNat 64 bits).signExtend 128 else BitVec.ofNat 128 (toZ56 (decodeElem (xIfmt d) 0 bits)), bs.any (·.2)⟩

/-- The packets of partials that this member receives on a stage's axis. -/
def stagePackets (s : State) (p : Program) (d : Desc) (a len : Nat) : Nat :=
  let n := axisSize p a
  let x := coord p s.rank a
  let bytes := wireBytes d
  let chunks := (List.range n).filter fun c => d.w0.getLsbD 10 || c != (x + n - 1) % n
  let one := (chunks.map fun c => packetsFor ((c + 1) * len / n - c * len / n) bytes).sum
  if d.w0.getLsbD 10 then 2 * one else one

/-- What an operation owes: the ring predecessor of each axis the segments for its partials. -/
def segmentsOwed (s : State) (p : Program) (d : Desc) : List (Nat × Nat) :=
  ((selectedAxes d).foldl (fun (x : List (Nat × Nat) × Nat) a =>
    let n := axisSize p a
    let c := coord p s.rank a
    let m := segmentsFor (stagePackets s p d a x.2)
    (if n < 2 ∨ m = 0 then x.1 else x.1 ++ [(predecessor p s.rank a, m)], (c + 1) * x.2 / n - c * x.2 / n)) ([], xCount d)).1

/-- Grant every member of a gather the space for its piece. -/
def grantPieces (s : State) (o : XOp) (p : Program) : State :=
  if o.kind = 2 then s
  else ((groupMembers p (selectedAxes o.desc) s.rank).filter (· != s.rank)).foldl (fun s r =>
    grantPiece s o r (packetsFor (pieceOf p o r).2 (elemBytes (xOfmt o.desc)))) s

/-- A collective starts (R338 to R342). -/
def startCollective (s : State) (o : XOp) (p : Program) : State :=
  let d := o.desc
  let s := fetchRange s (xSrc d) (xCount d * elemBytes (xIfmt d))
  let o := { o with len := xCount d, vals := readInput s d, owed := if o.kind = 3 then [] else segmentsOwed s p d }
  let s := grantPieces { s with xops := s.xops ++ [o] } o p
  settle p (if o.kind = 3 then startGather s { o with stage := (selectedAxes d).length } p else beginStage s o p)

/-- The pieces in which a PUT's bytes leave: 240 bytes of payload at most, whole units of 16 bytes of the window (R317, R345). -/
def putPieces (off : Nat) (bs : List PByte) : List (Nat × List PByte) :=
  let n := 240 - off % 16
  (off, bs.take n) :: (chunksOf 240 bs.length (bs.drop n)).zipIdx.map fun (c, j) => (off + n + 240 * j, c)

/-- A PUT sends its bytes into the peer's window (R345); the last packet carries the peer's token. -/
def startPut (s : State) (o : XOp) : State :=
  let d := o.desc
  let peer := fld d.w7 0 10
  let s := fetchRange s (xSrc d) (xCount d)
  let pieces := putPieces (xDst d) (readP s (xSrc d) (xCount d))
  let rtok := if d.w7.getLsbD 27 then some (d.w7.extractLsb' 22 5, d.w7.extractLsb' 16 6) else none
  let s := { s with xops := s.xops ++ [o] }
  pieces.zipIdx.foldl (fun s ((off, bs), j) =>
    let last := j + 1 == pieces.length
    let k := dataTo s 2 peer (fld d.w7 10 6) off (bs.map (·.1)) (psnBits off (bs.map (·.2)))
    ship s (.data peer { k with use := { k.use with
      opStep := o.step, opDesc := o.descId, last := last, rtok := if last then rtok else none } })) s

/-- PUT, REDUCE_SCATTER, ALL_GATHER, ALL_REDUCE reach engine e (R18, R201, R336, R337): refused, complete at once, or started. -/
def exchange (kind c e : Nat) (adaptive : Bool) (d : Desc) (psn : Bool) (s : State) : State :=
  let eng := some (e, adaptive)
  let x := descPlace s c eng d
  let op := opidDesc (dId d) x.step
  let refuse := fun (s : State) code => s.emit { code := code, uclass := 9, uinst := e, opid := op }
  if !arrives s c eng d psn then s
  else
    let s := freePlace s c eng d
    if psn then s.bite 9 e op x.addr 1
    else if xStray d then refuse s 0x02
    else if xchgFault s kind adaptive d then refuse s 0x5A
    else if xCount d = 0 then s.addToken (rCore d) (rTok d).toNat 1
    else
      match s.prog with
      | none => s
      | some p =>
        let o : XOp :=
          { step := x.step, descId := dId d, desc := d, core := c, eng := e, adaptive := d.w0.getLsbD 10, kind := kind, stage := 0, lo := 0,
            len := 0, vals := [], got := [], early := [], handled := 0, outbox := [], sentCrc := false, gathered := [], gathering := false,
            written := false, owed := [] }
        if kind = 1 then startPut s o else startCollective s o p

/-! ### Packets that arrive -/

/-- A collective fails at this member (R343): its fault, and FAIL to its ring neighbours. -/
def failCollective (s : State) (o : XOp) (code : Nat) : State :=
  let near := ringNeighbours s o.desc
  shipAll (failXop s o code) (near.map fun r => OutMsg.fail r o.step o.descId (BitVec.ofNat 8 code))

/-- A packet of a collective in landing space of this device (R339, R342, R343). -/
def collectiveData (s : State) (step : BitVec 32) (descId : BitVec 16) (k : Packet) : State :=
  let u := k.use
  match xopOf s step descId, s.prog with
  | some o, some p =>
    if o.kind = 1 then s
    else if u.opCrc.any fun c => c != xCrc o.desc then failCollective s o 0x5B
    else if u.axis = 4 then
      let a := xDst o.desc + u.first * elemBytes (xOfmt o.desc)
      let s := outsideStore s a (payloadBytes k a)
      settle p (s, { o with gathered := if u.last then o.gathered ++ [u.chunk] else o.gathered })
    else settle p (absorb p (s, o) k)
  | _, _ => s

/-- A packet of a reservation (R332): a late one of a failed operation is counted apart. The landing spaces of lookups keep no bytes: their
messages are LOOKUP_PAYLOAD and LOOKUP_RESPONSE. -/
def reservedData (s : State) (port : Nat) (k : Packet) : State :=
  match mget none s.landings k.tag with
  | none => discard s port 0x55
  | some l =>
    if l.src ≠ k.src then discard s port 0x55
    else if l.dead then s.modPort port fun p => { p with late := satAdd 8 p.late 1 }
    else if l.size < 16 * k.frame.head.off.toNat + k.frame.payload.length then discard s port 0x55
    else
      match l.use with
      | .collective _ st d => collectiveData s st d k
      | _ => s

/-- A DATA packet for this device (R318, R331, R335): its channel fits the class of what its tag names; a window, or a reservation, which only
a fabric port that is UP brings. -/
def landData (s : State) (port : Nat) (k : Packet) : State :=
  if (classVc s port k.tag).any fun v => v != k.frame.head.vc then discard s port 0x57
  else if k.tag < 64 then windowWrite s port k
  else if isPut s port then reservedData s port k
  else discard s port 0x55

/-- DATA_PACKET (R317 to R320, R326, R332, R335). -/
def dataPacket (port : Nat) (k : Packet) (s : State) : State :=
  let x := linkAccept s port k.frame
  if !x.2 then x.1
  else
    let s := returnCredits x.1 port k.frame
    if k.frame.head.typ ≠ 1 ∨ k.frame.malformed then discard s port 0x57
    else if !routed s port k.frame.head || !landsHere s k.frame.head then discard s port 0x56
    else landData s port k

/-- The hop by which a packet that came in by a port leaves (R324 to R326). -/
def nextHop (s : State) (port : Nat) (h : PktHead) : Option Hop :=
  s.prog.bind fun p =>
    (((route p h.src.toNat h.dst.toNat).dropWhile fun x => !(x.rank == s.rank && x.entry == port && x.dl == h.dl)).drop 1).head?

/-- PACKET_TRANSIT (R324 to R327): any packet that does not land here is forwarded to the next hop of its route, or discarded. -/
def packetTransit (port : Nat) (f : Frame) (s : State) : State :=
  let x := linkAccept s port f
  if !x.2 then x.1
  else
    let s := returnCredits x.1 port f
    if f.malformed then discard s port 0x57
    else
      match nextHop s port f.head with
      | some h =>
        if (s.port port).st = .up then shipOn s h.exit h.dl (.transit h.exit { f with head := { f.head with dl := h.dl } })
        else discard s port 0x56
      | none => discard s port 0x56

/-- What a GRANT brings (R244, R331, R341). -/
def grantTaken (src tag : Nat) (b : GrantBody) (s : State) : State :=
  let g : GrantPkt := ⟨src, tag, b.size, b.lookup, b.opStep, b.opDesc⟩
  if b.lookup then lookupGrant g s
  else
    let s := { s with grants := s.grants ++ [⟨g, 0⟩] }
    match xopOf s b.opStep b.opDesc with
    | some o => let x := flushOut s o; putXop x.1 x.2
    | none => s

/-- GRANT_PACKET (R244, R331, R341). -/
def grantPacket (port : Nat) (f : Frame) (b : GrantBody) (s : State) : State :=
  let x := ctlArrives s port 2 f
  if x.2 then grantTaken f.head.src.toNat f.head.tag.toNat b x.1 else x.1

/-- RELEASE_PACKET (R331): inbox space at a destination is free again, and what waits for it leaves. -/
def releasePkt (port : Nat) (f : Frame) (credits : Nat) (s : State) : State :=
  let x := ctlArrives s port 3 f
  let src := f.head.src.toNat
  if x.2 then drainInbox x.1.outWait.length { x.1 with inbox := mmod 0 x.1.inbox src (· - credits) } src else x.1

/-- DONE_PACKET (R345): the writes of a PUT have taken effect at the peer. -/
def donePkt (port : Nat) (f : Frame) (step : BitVec 32) (descId : BitVec 16) (s : State) : State :=
  let x := ctlArrives s port 4 f
  match xopOf x.1 step descId with
  | some o => if x.2 && o.kind == 1 then (closeXop x.1 o false).addToken (rCore o.desc) (rTok o.desc).toNat 1 else x.1
  | none => x.1

/-- FAIL_PACKET (R343): the operation fails here too and FAIL goes on to the ring neighbours. -/
def failPkt (port : Nat) (f : Frame) (step : BitVec 32) (descId : BitVec 16) (code : BitVec 8) (s : State) : State :=
  let x := ctlArrives s port 5 f
  match xopOf x.1 step descId with
  | some o => if x.2 then failCollective x.1 o code.toNat else x.1
  | none => x.1

/-- BARRIER_ARRIVAL_PACKET (R163, R346). -/
def barrierArrival (port : Nat) (f : Frame) (g : Nat) (gen : BitVec 32) (s : State) : State :=
  let x := ctlArrives s port 6 f
  if x.2 then arrivalPacket g gen f.head.src.toNat x.1 else x.1

/-- BARRIER_RELEASE_PACKET (R163, R164, R346). -/
def barrierRelease (port : Nat) (f : Frame) (g : Nat) (gen : BitVec 32) (s : State) : State :=
  let x := ctlArrives s port 7 f
  if x.2 then releasePacketBar g gen x.1 else x.1

/-- Whether the writes of a range by a unit outside the cores have taken effect: none of them is held at a tile store (R116, R186). -/
def haveLanded (s : State) (a n : Nat) : Bool :=
  match tileCore a n with
  | some c => !(s.core c).heldMeets (s.core c).seqNo a n
  | none => true

/-- EXCHANGE_COMPLETE (R341, R342): every write of a collective on this device has taken effect, and every packet it owes has left. -/
def exchangeComplete (step : BitVec 32) (descId : BitVec 16) (s : State) : State :=
  match xopOf s step descId with
  | some o =>
    let r := outputRange s o
    if o.written && o.outbox.isEmpty && haveLanded s r.1 r.2 then (closeXop s o false).addToken (rCore o.desc) (rTok o.desc).toNat 1 else s
  | none => s

/-! ### The commands -/

/-- PUT (R345). -/
def execPut (c : CoreId) (e : EngineId) (adaptive : Bool) (d : Desc) (poisoned : Bool) (s : State) : Result :=
  .next (if s.live && !s.stopped then exchange 1 c.val e.val adaptive d poisoned s else s)
/-- REDUCE_SCATTER (R339). -/
def execReduceScatter (c : CoreId) (e : EngineId) (adaptive : Bool) (d : Desc) (poisoned : Bool) (s : State) : Result :=
  .next (if s.live && !s.stopped then exchange 2 c.val e.val adaptive d poisoned s else s)
/-- ALL_GATHER (R342). -/
def execAllGather (c : CoreId) (e : EngineId) (adaptive : Bool) (d : Desc) (poisoned : Bool) (s : State) : Result :=
  .next (if s.live && !s.stopped then exchange 3 c.val e.val adaptive d poisoned s else s)
/-- ALL_REDUCE (R342). -/
def execAllReduce (c : CoreId) (e : EngineId) (adaptive : Bool) (d : Desc) (poisoned : Bool) (s : State) : Result :=
  .next (if s.live && !s.stopped then exchange 4 c.val e.val adaptive d poisoned s else s)
/-- EXCHANGE_COMPLETE (R342). -/
def execExchangeComplete (step : BitVec 32) (descId : BitVec 16) (s : State) : Result :=
  .next (if s.live && !s.stopped then exchangeComplete step descId s else s)
/-- SIGNAL_DETECT (R313). -/
def execSignalDetect (p : PortId) (s : State) : Result := .next (if s.live then signalDetect p.val s else s)
/-- TRAIN_LOCK (R313). -/
def execTrainLock (p : PortId) (lanesBad : BitVec 12) (peerWidth : BitVec 2) (laneGen : Nat) (s : State) : Result :=
  .next (if s.live then trainLock p.val lanesBad peerWidth laneGen s else s)
/-- TRAIN_TIMEOUT (R313). -/
def execTrainTimeout (p : PortId) (s : State) : Result := .next (if s.live then trainTimeout p.val s else s)
/-- HELLO_PACKET (R314). -/
def execHelloPacket (a : Arrival) (h : HelloPkt) (s : State) : Result := .next (if s.live then helloPacket a.port.val a.frame h s else s)
/-- AUTH_PACKET (R315). -/
def execAuthPacket (a : Arrival) (x : AuthPkt) (s : State) : Result :=
  .next (if s.live then authPacket a.port.val a.frame x s else s)
/-- BARRIER_ARRIVAL_PACKET (R163, R346). -/
def execBarrierArrivalPacket (a : Arrival) (grp : BitVec 4) (gen : BitVec 32) (s : State) : Result :=
  .next (if s.live then barrierArrival a.port.val a.frame grp.toNat gen s else s)
/-- BARRIER_RELEASE_PACKET (R163, R164, R346). -/
def execBarrierReleasePacket (a : Arrival) (u : BarrierUse) (s : State) : Result :=
  .next (if s.live then barrierRelease a.port.val a.frame u.grp.toNat u.gen s else s)
/-- LINK_ACK (R320). -/
def execLinkAck (p : PortId) (seq : BitVec 12) (s : State) : Result := .next (if s.live then linkAck p.val seq s else s)
/-- LINK_NAK (R320). -/
def execLinkNak (p : PortId) (seq : BitVec 12) (s : State) : Result := .next (if s.live then linkNak p.val seq s else s)
/-- CREDIT_RETURN (R330). -/
def execCreditReturn (p : PortId) (vc : BitVec 3) (dl : Bool) (n : Nat) (s : State) : Result :=
  .next (if s.live then creditReturn p.val vc dl n s else s)
/-- LINK_RETRAIN (R320). -/
def execLinkRetrain (p : PortId) (errLanes : BitVec 12) (s : State) : Result := .next (if s.live then linkRetrain p.val errLanes s else s)
/-- DATA_PACKET (R335). -/
def execDataPacket (p : PortId) (k : Packet) (s : State) : Result := .next (if s.live then dataPacket p.val k s else s)
/-- PACKET_TRANSIT (R327). -/
def execPacketTransit (p : PortId) (f : Frame) (s : State) : Result := .next (if s.live then packetTransit p.val f s else s)
/-- GRANT_PACKET (R331). -/
def execGrantPacket (a : Arrival) (g : GrantBody) (s : State) : Result :=
  .next (if s.live then grantPacket a.port.val a.frame g s else s)
/-- RELEASE_PACKET (R331). -/
def execReleasePacket (p : PortId) (f : Frame) (credits : Nat) (s : State) : Result :=
  .next (if s.live then releasePkt p.val f credits s else s)
/-- DONE_PACKET (R345). -/
def execDonePacket (a : Arrival) (step : BitVec 32) (descId : BitVec 16) (s : State) : Result :=
  .next (if s.live then donePkt a.port.val a.frame step descId s else s)
/-- FAIL_PACKET (R343). -/
def execFailPacket (a : Arrival) (step : BitVec 32) (descId : BitVec 16) (code : BitVec 8) (s : State) : Result :=
  .next (if s.live then failPkt a.port.val a.frame step descId code s else s)
/-- LINK_DOWN (R349). -/
def execLinkDown (p : PortId) (s : State) : Result := .next (if s.live then linkDown p.val s else s)
/-- CREDIT_TIMEOUT (R349). -/
def execCreditTimeout (p : PortId) (vc : BitVec 3) (dl : Bool) (s : State) : Result :=
  .next (if s.live && !s.stopped then creditTimeout p.val vc dl s else s)
/-- LINK_ABSENT_TIMEOUT (R349). -/
def execLinkAbsentTimeout (p : PortId) (s : State) : Result := .next (if s.live then linkAbsent p.val s else s)
/-- FAB_RETRAIN (R352). -/
def execFabRetrain (p : PortId) (s : State) : Result := .next (if s.live then fabRetrain p.val s else s)

end Sys2Proof.Machine
end

