-- ==== Sys2Proof/Machine/Loader.lean ====
section
/-!
DEFINITION. What the loader checks of a program (R6, R100, R144, R169, R172, R219 to R233, R275 to R278, R300, R321, R335, R355 to R363,
R370, R421), and the effect of a LOAD that is accepted.
-/

namespace Sys2Proof.Machine

/-! ### Ranges -/

/-- Whether a range lies inside one of the program's windows, in the DRAM. -/
def inProgramDram (p : Program) (a n : Nat) : Bool :=
  inDram a n && p.windows.any fun w => decide (w.base ≤ a) && decide (a + n ≤ w.base + w.size)

/-- The windows that allow move-engine writes (R130). -/
def moveWindows (p : Program) : List Range := (p.windows.filter (·.mvWrite)).map fun w => ⟨w.base, w.size⟩

/-- Whether a range meets one of a list. -/
def meetsAny (l : List Range) (a n : Nat) : Bool := l.any fun r => rangesOverlap a n r.base r.size

/-- The record regions of the program. -/
def recordRanges (p : Program) : List Range := p.tables.map fun t => ⟨tBase t, recordRegion t⟩

/-- Insert into a list of pairs ordered by their first. -/
def insertPair (x : Nat × Nat) : List (Nat × Nat) → List (Nat × Nat)
  | [] => [x]
  | y :: ys => if x.1 ≤ y.1 then x :: y :: ys else y :: insertPair x ys

/-- Whether consecutive pieces (offset, length) start at `o` and leave no gap, and where they end. -/
def tileEnd : Nat → List (Nat × Nat) → Option Nat
  | o, [] => some o
  | o, (a, n) :: rest => if a = o then tileEnd (o + n) rest else none

/-! ### Tables and features (R219 to R224, R233): 0x30 -/

/-- Whether the threshold rule of R224 holds: a small table is replicated, a larger one sharded. -/
def placeOk (p : Program) (t : TableDesc) : Bool := tSharded t == decide (p.replThreshold * 2 ^ 20 < tRows t * tRec t)

/-- Whether a descriptor breaks R219 to R225 by itself. -/
def tableBad (p : Program) (t : TableDesc) : Bool :=
  strayBits t.w0 [(0, 29), (32, 7), (40, 5)] || strayBits t.w1 [(0, 40)] || strayBits t.w2 [(0, 48)] || strayBits t.w3 [(0, 40)] ||
    strayBits t.w4 [(0, 48)] || strayBits t.w5 [(0, 32)] || strayBits t.w6 [(0, 48)] || t.w7 != 0 ||
    decide (6 < tRfmt t) || decide (1 < fld t.w0 40 2) || decide (tDim t < 8 ∨ 4096 < tDim t) || tDim t % 8 != 0 ||
    (tBlocks t && tDim t % 32 != 0) || decide (tRec t < tH t + 16) || tBase t % 16384 != 0 || tPbase t % 8 != 0 ||
    (!tTier t && tPbase t != 0) || !placeOk p t || (!tSharded t && tLrows t != tRows t) ||
    !inProgramDram p (tBase t) (recordRegion t) || meetsAny (moveWindows p) (tBase t) (recordRegion t) ||
    (tTier t && !inProgramDram p (tPbase t) (ceilDiv (tLrows t) 8))

/-- Whether two of a list of ranges meet. -/
def anyMeet : List Range → Bool
  | [] => false
  | r :: rs => meetsAny rs r.base r.size || anyMeet rs

/-- Whether the tables break R219 to R225. -/
def tablesBad (p : Program) : Bool :=
  decide (4096 < p.tables.length) || decide (1024 < p.replThreshold) || p.tables.any (tableBad p) ||
    decide ((p.tables.map tId).eraseDups.length ≠ p.tables.length) || anyMeet (recordRanges p)

/-- Whether a feature breaks R233. -/
def featureBad (p : Program) (f : Feature) : Bool :=
  !(p.tables.any fun t => tId t == f.table) || decide (f.maxBags < 1 ∨ 65536 < f.maxBags) ||
    decide (f.maxIdx < 1 ∨ 1048576 < f.maxIdx) || decide (65535 < f.maxLen)

/-! ### The owner map (R226, R227): 0x31 -/

/-- The pieces (LOFF, length) that a device owns of a table, in the order of LOFF. -/
def ownedPieces (p : Program) (t : TableDesc) (dev : Nat) : List (Nat × Nat) :=
  let es := tableOwners p t
  let len := fun (i : Nat) => (match es[i + 1]? with | some e => oStart e | none => tRows t) - oStart (nth es i ⟨0, 0⟩)
  (es.zipIdx.filter fun x => oDev x.1 == dev).foldr (fun x l => insertPair (oLoff x.1, len x.2) l) []

/-- Whether START rises strictly. -/
def startsRise : List OwnerEntry → Bool
  | a :: b :: l => decide (oStart a < oStart b) && startsRise (b :: l)
  | _ => true

/-- Whether the owner map breaks R226 or R227 for a sharded table on the device of a rank. -/
def ownersBad (p : Program) (rank : Nat) (t : TableDesc) : Bool :=
  let es := tableOwners p t
  let devs := sortNats (rank :: es.map oDev)
  tSharded t &&
    (decide (es.length ≠ fld t.w5 16 16 + 1) ||
      es.any (fun e => strayBits e.w0 [(0, 62)] || strayBits e.w1 [(0, 40)] || oTable e != tId t || decide (programSize p ≤ oDev e) ||
        decide (tRows t ≤ oStart e)) ||
      (es.head?.any fun e => oStart e != 0) || !startsRise es ||
      devs.any fun d => match tileEnd 0 (ownedPieces p t d) with
        | some n => d == rank && n != tLrows t
        | none => true)

/-! ### Parameters and row programs (R275 to R278, R300): 0x40, 0x41, 0x42 -/

/-- The bytes of a table's optimiser state. -/
def stateBytes (s : State) (t : TableDesc) : Nat :=
  let p := paramsOf s t
  ((stateItems s t p.opt).map fun i => 8 * ceilDiv (elemBytes p.sfmt * itemLength (tDim t) i) 8).sum

/-- The AUX area of a table: the column vector with cbar, or a row program (R276). -/
def auxRange (s : State) (t : TableDesc) : Range :=
  match (paramsOf s t).opt with
  | 5 => ⟨lAux s t, 8 * (tDim t + 1)⟩
  | 6 => ⟨lAux s t, 256⟩
  | _ => ⟨0, 0⟩

/-- The ledger regions of the trained tables. -/
def ledgerRanges (s : State) : List Range := (trained s).map fun t => ⟨lBase s t, ledgerRegion s t⟩

/-- Whether a ledger bound of R275 is exceeded. -/
def ledgerBound (s : State) (p : Program) : Bool :=
  (trained s).any fun t =>
    decide (2 ^ 24 < ((p.features.filter fun f => f.table == tId t).map (·.maxIdx)).sum * programSize p)

/-- Whether a parameter block breaks R276 or R278. -/
def paramsBad (s : State) (p : Program) (t : TableDesc) : Bool :=
  let q := paramsOf s t
  let n := ledgerRegion s t
  let aux := auxRange s t
  paramReserved s t || tPblk t % 64 != 0 ||
    (q.opt != 0 &&
      (decide (lCap s t < 1 ∨ 2 ^ 24 < lCap s t) || lBase s t % 2 ^ 20 != 0 || !inProgramDram p (lBase s t) n ||
        meetsAny (recordRanges p ++ moveWindows p) (lBase s t) n || decide (tRec t < tH t + 16 + stateBytes s t))) ||
    (if q.opt = 5 ∨ q.opt = 6 then lAux s t == 0 || lAux s t % 64 != 0 || meetsAny (moveWindows p) aux.base aux.size else lAux s t != 0)

/-- What the checks of a row program carry: the registers written, how many STW, whether it is still sound and whether END has come. -/
structure RowCheck where
  written : List Nat
  stw : Nat
  ok : Bool
  ended : Bool

/-- The registers that an operation of a row program reads (R299). -/
def rowReads (op : Nat) : List Nat :=
  let a := nbits op 19 4
  let b := nbits op 15 4
  let c := nbits op 11 4
  match nbits op 27 5 with
  | 0x06 | 0x07 | 0x08 | 0x0A | 0x0C | 0x0D => [a, b]
  | 0x09 | 0x10 => [a, b, c]
  | 0x0B | 0x0E | 0x0F | 0x11 | 0x12 | 0x13 | 0x14 => [a]
  | _ => []

/-- One operation of the check of R300. -/
def rowCheck (nst : Nat) (x : RowCheck) (op : Nat) : RowCheck :=
  let code := nbits op 27 5
  let item := nbits op 0 3
  if x.ended then x
  else if code = 0 then { x with ended := true }
  else
    let bad := decide (0x14 < code) || (rowReads op).any (fun r => !x.written.contains r) ||
      ((code == 0x03 || code == 0x14) && decide (nst ≤ item)) || (code == 0x04 && decide (5 < item))
    { x with
      ok := x.ok && !bad
      stw := if code = 0x13 then x.stw + 1 else x.stw
      written := if code = 0x13 ∨ code = 0x14 then x.written else nbits op 23 4 :: x.written }

/-- Whether a row program breaks R300. -/
def rowProgramBad (s : State) (t : TableDesc) : Bool :=
  let x := (rowProgram s t).foldl (rowCheck (fld (paramWord s t 7) 0 4)) ⟨[], 0, true, false⟩
  (paramsOf s t).opt == 6 && (!x.ok || !x.ended || x.stw != 1)

/-! ### The group table (R355, R356, R362): 0x60 -/

/-- The bytes that a group's state layout takes (R362). -/
def groupStateBytes (g : Desc) : Nat :=
  let e := if g.w0.getLsbD 22 then 2 else 4
  let rows := fld g.w5 0 32
  let cols := fld g.w5 32 32
  let items := match fld g.w0 13 3 with
    | 1 => [rows * cols]
    | 2 => [rows * cols, rows * cols]
    | 3 => [rows]
    | 4 => [rows, cols, 1]
    | _ => []
  64 + (items.map fun n => 64 * ceilDiv (e * n) 64).sum

/-- Whether entry i of the group table breaks its section. -/
def groupBad (s : State) (p : Program) (g : Desc) (i : Nat) : Bool :=
  let dopt := fld g.w0 13 3
  let slots := fld g.w1 0 48
  let size := groupSlots g * fld g.w2 0 40
  let st := fld g.w3 0 48
  let ssz := fld g.w4 0 40
  let kept := recordRanges p ++ ledgerRanges s ++ p.tables.map (auxRange s)
  let inGroup := fun a n => p.groupWindows.any fun w => decide (w.base ≤ a) && decide (a + n ≤ w.base + w.size)
  let placed := fun a n => inProgramDram p a n && !meetsAny kept a n && inGroup a n
  fld g.w0 0 10 != i || strayBits g.w0 [(0, 23)] || strayBits g.w1 [(0, 48)] || strayBits g.w2 [(0, 40)] || strayBits g.w3 [(0, 48)] ||
    strayBits g.w4 [(0, 40)] || g.w6 != 0 || g.w7 != 0 || !([0x00, 0x02, 0x01, 0x03, 0x04, 0x09, 0x0A].contains (fld g.w0 16 5)) ||
    decide (5 < dopt) || ((dopt == 3 || dopt == 4) && g.w0.getLsbD 22) || slots % 4096 != 0 || fld g.w2 0 40 % 4096 != 0 ||
    fld g.w2 0 40 == 0 || st % 4096 != 0 || ssz % 4096 != 0 || (dopt == 0 && st != 0) || !placed slots size ||
    (dopt != 0 && (decide (ssz < groupStateBytes g) || !placed st ssz))

/-- Whether the group table breaks its section. -/
def groupsBad (s : State) (p : Program) : Bool :=
  decide (1024 < p.groups.length) || (p.groups.zipIdx.any fun x => groupBad s p x.1 x.2) ||
    (p.groups != [] && meetsAny (moveWindows p ++ p.groupWindows) p.groupBase (64 * p.groups.length)) ||
    p.groupWindows.any (fun w => meetsAny (moveWindows p) w.base w.size) || anyMeet p.groupWindows

/-! ### The checkpoint set (R369, R370): 0x61 -/

/-- The bytes of the mirror region (R370). -/
def mirrorBytes (p : Program) : Nat := offImage p.journalPages + (p.ckptSet.map (·.size)).sum

/-- Whether the checkpoint set overlaps what it must not, or the regions together exceed the DRAM. -/
def ckptBad (s : State) (p : Program) : Bool :=
  let tele := match p.telemetry with | some r => [r] | none => []
  let mir := match p.mirror with | some r => [r] | none => []
  let apart := ledgerRanges s ++ p.staging ++ p.ingestRings ++ mir ++ tele
  let total := (p.ckptSet.map (·.size)).sum + ((apart.map (·.size))).sum
  decide (256 < p.ckptSet.length) || decide (2 ^ 22 < p.journalPages) ||
    (p.ckptSet.any fun r => r.base % 4096 != 0 || r.size % 4096 != 0 || meetsAny apart r.base r.size) ||
    (p.mirror.any fun r => decide (r.size < mirrorBytes p)) || decide (Config.dramEnd < total) ||
    (p.telemetry.isSome && decide (p.telemetryEntries < 16 ∨ 2 ^ 24 < p.telemetryEntries))

/-! ### The program as a whole -/

/-- Whether the topology is one of R321. -/
def topologyBad (p : Program) : Bool :=
  let n := programSize p
  let sizes := axisSizes p
  if p.torus then sizes.any (fun x => !([2, 4, 8, 16].contains x)) || decide (n < 16 ∨ 1024 < n)
  else sizes.any (fun x => decide (x < 1 ∨ 8 < x)) || decide (n < 2 ∨ 8 < n)

/-- Whether an enabled window entry breaks R335. -/
def windowsBad (s : State) (p : Program) : Bool :=
  decide (64 < p.xchWindows.length) || p.xchWindows.any fun w =>
    let a := fld w.1 12 36 * 4096
    let n := fld w.2 12 32 * 4096
    w.1.getLsbD 63 && (!inProgramDram p a n || meetsAny (recordRanges p ++ ledgerRanges s ++ p.tables.map (auxRange s)) a n)

/-- Whether the slots break R388 or the depth R34. -/
def slotsBad (p : Program) : Bool :=
  decide (p.depth < 1 ∨ 3 < p.depth) || decide (p.slots.length < 1 ∨ 255 < p.slots.length) || p.slots.any fun x =>
    decide (x.cap < 1 ∨ 2 ^ 20 < x.cap) || x.bcap.any fun b => decide (b < x.cap ∨ 2 ^ 24 < b)

/-- The first reserved encoding of the images, as DETAIL (R144). -/
def imageBad (p : Program) : Option Nat :=
  p.images.findSome? fun im => im.bundles.findSome? fun b => (reservedEncoding (decodeBundle b)).map (·.2)

/-- Whether an initial image or a bundle image places data in the test region of a tile store (R112). -/
def testRegionUsed (p : Program) : Bool :=
  let places := (p.init.map fun (i : InitImage) => (i.base, i.bytes.length)) ++
    p.images.map fun (im : CoreImage) => (im.base, 32 * im.bundles.length)
  places.any fun (a, n) => (List.range 32).any fun c => rangesOverlap a n (tileAddr c Config.tileData) 0x10000

/-! ### Open chains (R100, R172) -/

/-- The targets whose chain is open after a bundle's matrix slot, as bits 3 × ARR + TGT. -/
def chainsAfter (m : MatrixSlot) (opened : Nat) : Nat :=
  let bit := 2 ^ (3 * m.arr.toNat + m.tgt.toNat)
  if m.op ≠ 1 then opened
  else match m.chain.toNat with
    | 1 => opened ||| bit
    | 3 => if opened.testBit (3 * m.arr.toNat + m.tgt.toNat) then opened - bit else opened
    | _ => opened

/-- Whether the bundle leaves a chain open at a synchronisation point, TESTWIN, or at program end. -/
def leavesOpen (b : Bundle) (opened : Nat) : Bool :=
  (b.scalar.op == 0x17 && opened != 0) || (b.scalar.op == 0x19 && chainsAfter b.matrix opened != 0)

/-- The bundles that may come after a bundle at `pc` (R147). -/
def successors (b : Bundle) (pc : Nat) : List Nat :=
  match b.scalar.op.toNat with
  | 0x10 => [b.scalar.imm.toNat]
  | 0x11 | 0x12 | 0x13 => [b.scalar.imm.toNat, pc + 1]
  | _ => [pc + 1]

/-- Whether a path through a bundle image leaves a chain open: `work` lists the bundles and open targets still to be visited, `seen` those
visited; `fuel` bounds the visits. -/
def openPath (bundles : List (BitVec 256)) : Nat → List (Nat × Nat) → List (Nat × Nat) → Bool
  | 0, _, _ => false
  | _, [], _ => false
  | fuel + 1, (pc, opened) :: work, seen =>
    match bundles[pc]? with
    | none => openPath bundles fuel work seen
    | some w =>
      let b := decodeBundle w
      leavesOpen b opened ||
        (let next := ((successors b pc).map fun q => (q, chainsAfter b.matrix opened)).filter fun x => !seen.contains x && !work.contains x
         openPath bundles fuel (work ++ next) (next ++ seen))

/-- Whether some image leaves a chain open: every bundle is visited with each set of open targets once at most. -/
def chainsOpen (p : Program) : Bool :=
  p.images.any fun im => openPath im.bundles (4096 * im.bundles.length + 2) [(0, 0)] [(0, 0)]

/-- Whether some bundle has V set. -/
def holdsV (p : Program) : Bool := p.images.any fun im => im.bundles.any fun b => (decodeBundle b).hdr.v

/-- The fault and DETAIL of a program whose initial images stand in `s`, which holds it as its job; 0 for none. -/
def programFault (s : State) (p : Program) (rank : Nat) (det : Bool) : Nat × Nat :=
  if (!p.testWindows && !s.integ.lab) || (p.bitIdentical && !det) || topologyBad p || chainsOpen p || testRegionUsed p || slotsBad p ||
      (p.digestPeriod.any fun n => decide (n < 1 ∨ 65535 < n)) || decide (16 < p.barriers.length) then (0x78, 0)
  else
    match imageBad p with
    | some d => (0x02, d)
    | none =>
      if p.selectors.any fun x => decide (x.toNat < 1 ∨ 4 < x.toNat) then (0x02, 0)
      else if det && holdsV p then (0x04, 0)
      else if tablesBad p || decide (256 < p.features.length) || p.features.any (featureBad p) then (0x30, 0)
      else if decide (65536 < p.ownerMap.length) || p.tables.any (ownersBad p rank) then (0x31, 0)
      else if ledgerBound s p then (0x40, 0)
      else if p.tables.any (paramsBad s p) || anyMeet (ledgerRanges s) then (0x41, 0)
      else if p.tables.any (rowProgramBad s) then (0x42, 0)
      else if groupsBad s p then (0x60, 0)
      else if ckptBad s p then (0x61, 0)
      else if windowsBad s p then (0x78, 0)
      else (0, 0)

/-- Whether a write meets the group table of a running job (R395). -/
def groupTableHit (s : State) (a n : Nat) : Bool :=
  s.jobRuns && s.prog.any fun p => p.groups != [] && rangesOverlap a n p.groupBase (64 * p.groups.length)

/-! ### LOAD (R421) -/

/-- The ranks of a placement that name this device's keys. -/
def ownRanks (s : State) (placement : List (BitVec 384)) : List Nat :=
  (placement.zipIdx.filter fun x => x.1 == s.flash.base.pkDigest).map (·.2)

/-- Why the device takes no program at all (R11, R209, R421, R447, R500); 0 for none. -/
def deviceFault (s : State) : Nat :=
  if s.integ.withdrawn then 0x28
  else if (List.range 64).any fun v => (s.vault v).stFail then 0x29
  else if s.integ.uhfail then 0x2A
  else if s.plt.noid || s.job.isSome || s.plt.stage != .ready then 0x78
  else 0

/-- The job that a LOAD makes. -/
def jobOf (b : LoadBody) (rank : Nat) : Job :=
  { prog := b.program, seed := b.seed, det := b.det || b.program.detReq, rank := rank, placement := b.placement, digest := b.binDigest,
    nextStep := b.program.firstStep }

/-- The state with the job in it, and its images and its group table in device memory (R355). -/
def placeJob (s : State) (b : LoadBody) (rank : Nat) : State :=
  let p := b.program
  let s := { s with job := some (jobOf b rank) }
  let s := p.init.foldl (fun s i => store s i.base (clean i.bytes)) s
  let s := p.images.foldl (fun s im => store s im.base (clean (im.bundles.flatMap fun w => toBytes 32 w.toNat))) s
  store s p.groupBase (clean (p.groups.flatMap fun g => (descWords g).flatMap fun w => toBytes 8 w.toNat))

/-- The words of XCH_WIN without their reserved bits (R17, R335). -/
def windowWords (w : Word × Word) : Word × Word := (w.1 &&& 0xF000FFFFFFFFF000, w.2 &&& 0xFFFFFFFFFFFFF000)

/-- The platform windows of a job (R491): a window for user mode never covers a record region, a ledger or AUX area, or the group table
with its slots and states; the table has 32 entries. DESIGN CHOICE (log 141): such a window is left out of the table. -/
def jobWindows (s : State) (p : Program) : List (Nat × Nat × BitVec 6) :=
  let groups := ⟨p.groupBase, 64 * p.groups.length⟩ :: p.groups.flatMap fun g =>
    [⟨fld g.w1 0 48, groupSlots g * fld g.w2 0 40⟩, ⟨fld g.w3 0 48, fld g.w4 0 40⟩]
  let kept : List Range := recordRanges p ++ ledgerRanges s ++ p.tables.map (auxRange s) ++ groups
  (bootWindows ++ p.platWindows.filter fun (b, n, perm) => !perm.getLsbD 3 || !meetsAny kept b n).take 32

/-- What else a LOAD sets: the window table, the platform windows, VREFUSE in deterministic mode, and a retrain of the ports (R168,
R316, R334, R491). -/
def acceptJob (s : State) (b : LoadBody) : State :=
  let p := b.program
  let s := { s with
    xwin := p.xchWindows.zipIdx.foldl (fun m x => mset (0, 0) m x.2 (windowWords x.1)) []
    plt := { s.plt with windows := jobWindows s p } }
  let s := if b.det || p.detReq then
      (List.range 32).foldl (fun s c => s.modCore c fun k => { k with vrefuse := true }) s
    else s
  (retrainAll s).jobEvent 1

/-- The parameter blocks and AUX areas of the program's tables are read (R193, R276). -/
def fetchBlocks (s : State) : State :=
  match s.prog with
  | none => s
  | some p => p.tables.foldl (fun s t =>
      let s := fetchRange s (tPblk t) 64
      fetchRange s (auxRange s t).base (auxRange s t).size) s

/-- The fault of a LOAD whose ranges are sound, as code and DETAIL, with the state of the loaded job (R421). -/
def loadResult (s : State) (b : LoadBody) : (Nat × Nat) × State :=
  let p := b.program
  if deviceFault s ≠ 0 then ((deviceFault s, 0), s)
  else if p.grade ≠ s.grade then ((0x27, 0), s)
  else
    match ownRanks s b.placement with
    | [rank] =>
      if b.plLen ≠ 48 * programSize p ∨ b.placement.length ≠ programSize p then ((0x78, 0), s)
      else
        let t := fetchBlocks (placeJob s b rank)
        let f := programFault t p rank (b.det || p.detReq)
        if f.1 ≠ 0 then (f, s) else ((0, 0), acceptJob t b)
    | _ => ((0x78, 0), s)

end Sys2Proof.Machine
end

