-- ==== Sys2Proof/Machine/Reset.lean ====
section
/-!
DEFINITION. What a reset does to a core (R19, R137, R138, R145, R158, R176, R177, R511, R512, R537): granted work completes, then the
state that the field maps name returns to its reset value.
-/

namespace Sys2Proof.Machine

/-- A pass whose vectors have entered its array runs through it (R85, R512). -/
def finishPasses (s : State) (c : Nat) : State :=
  (List.range 4).foldl (fun s a => targets.foldl (fun s h =>
    match oldest (s.half c a h) with
    | some p => if p.started && !p.fin then passComplete c a h none s else s
    | none => s) s) s

/-- Queued passes are discarded, an open chain is closed without a replay, and the writes that a chain held go (R101, R512). -/
def dropPasses (s : State) (c : Nat) : State :=
  (s.modCore c fun k => { k with arrays := (List.range 4).foldl (fun m a => mmod {} m a fun u => { u with halves := [] }) k.arrays }).drain c

/-- The front transfer of a queue runs and completes. -/
def runFront (c : Nat) (s : State) (q : Nat) : State :=
  transferComplete c q (gatherRun c q (publishVersion c q (openVersion c q s)))

/-- The transfers of a core complete, the queues served in turn; `n` bounds the rounds. -/
def runTransfers (c : Nat) : Nat → State → State
  | 0, s => s
  | n + 1, s => if (s.core c).transfers.isEmpty then s else runTransfers c n ((List.range 4).foldl (runFront c) s)

/-- The signals of a core leave it (R161). -/
def runSignals (c : Nat) (s : State) : State := (s.core c).signals.foldl (fun s _ => signalLeave c s) s

/-- The operations that a core has issued complete (R511): passes in their arrays, transfers, signals. -/
def finishCore (c : Nat) (s : State) : State :=
  let s := dropPasses (finishPasses s c) c
  runSignals c (runTransfers c (s.core c).transfers.length s)

/-- The fields that a job or core reset returns to their reset values (R126, R138, R145, R158, R177, R537), and what follows from an idle core
at bundle 0. Descriptors in their places are issued operations and stay. -/
def Core.toReset (k : Core) : Core :=
  { k with
    sregs := [], sReady := [], side := [], tokens := [], pc := 0, st := .idle, heldAt := none, exc := {}, fill := 0, ringLo := 0, fetched := []
    incs := [], overflow := none, waitStart := none, barWait := none, twHere := false, brkSkip := false }

/-- A core reset (R511): the issued operations complete first. -/
def coreResetNow (c : Nat) (s : State) : State := (finishCore c s).modCore c Core.toReset

/-- CORE_RESET (R511, R513): inside a Campion window it waits for the window to end. -/
def coreReset (c : Nat) (s : State) : State :=
  if (s.core c).winStart.isSome then
    { s with waitingReset := { s.waitingReset with cores := s.waitingReset.cores ||| BitVec.ofNat 32 (2 ^ c) } }
  else coreResetNow c s

/-- A core reset that waited for a window takes place (R513). -/
def waitedCoreReset (s : State) (c : Nat) : State :=
  if s.waitingReset.cores.getLsbD c && (s.core c).winStart.isNone then
    coreResetNow c { s with waitingReset := { s.waitingReset with cores := s.waitingReset.cores &&& ~~~(BitVec.ofNat 32 (2 ^ c)) } }
  else s

/-- What a job reset does to a core beyond a core reset (R19, R58, R137, R176, R468): nothing issued is left. -/
def Core.toJobReset (k : Core) : Core :=
  { k.toReset with
    step := 0, waitTmo := 0x000F4240, vrefuse := false, numCnt := {}, phase := 0, queues := [], descs := [], heldWrites := []
    signals := [], barLate := [], twCount := 0,
    arrays := (List.range 4).foldl (fun m a => mmod {} m a fun u => { u with refuse := false }) k.arrays }

end Sys2Proof.Machine
end

