-- ==== Sys2Proof/Machine/Integrity.lean ====
section
/-!
DEFINITION. Campion's windows and tests, the error ring, the unit history and permanent classifications (R170 to R172, R437 to R451,
R457 to R460).
-/

namespace Sys2Proof.Machine

/-! ### Times in array cycles (R171, R172, R438) -/

/-- 250 ms. -/
abbrev dueCycles : Nat := 200000000
/-- 100 ms. -/
abbrev overdueCycles : Nat := 80000000
/-- 150 ms. -/
abbrev forceCycles : Nat := 120000000
/-- 200 µs. -/
abbrev windowCycles : Nat := 160000

/-- The cores of a pair (R170). -/
def pairCores (p : Nat) : List Nat := [p, p + 16]

/-- Whether a core of the pair is inside a window. -/
def pairBusy (s : State) (p : Nat) : Bool := (pairCores p).any fun c => (s.core c).winStart.isSome

/-- The pair's 250 ms count starts again with a window that has begun on both cores (R171, R438). -/
def restartPair (s : State) (p : Nat) : State :=
  let s := s.modPair p fun x => { x with due := false, start := s.cycle, overdueSent := false }
  (pairCores p).foldl (fun t c => t.modCore c fun k => { k with winForced := false }) s

/-- PAIR_DUE (R171): the pair is due; the window of a pair of idle cores runs at once (R437). -/
def pairDue (p : Nat) (s : State) : State :=
  let x := s.pair p
  if x.due || pairBusy s p || decide (s.cycle < x.start + dueCycles) then s
  else
    let t := s.modPair p fun x => { x with due := true, dueAt := s.cycle, overdueSent := false }
    if (pairCores p).all fun c => (s.core c).st == .idle then
      restartPair ((pairCores p).foldl beginWindow t) p
    else t

/-- Whether the array, vector and transfer work of a core has completed (R438). -/
def windowReady (k : Core) (now : Nat) : Bool :=
  k.passesDone && k.transfers.isEmpty && (k.vReady.all fun e => decide (e.2 ≤ now)) &&
    k.mReady.all fun e => decide (e.2 ≤ now)

/-- FORCED_TEST_WINDOW (R438): the pair has been due for 150 ms; core c's forced window starts once its work has completed. -/
def forcedWindow (c : Nat) (s : State) : State :=
  let p := c % 16
  let x := s.pair p
  let k := s.core c
  if s.integ.lab || !x.due || decide (s.cycle < x.dueAt + forceCycles) || k.winStart.isSome || k.winForced ||
      !windowReady k s.cycle then s
  else
    let t := s.emit { code := 0x20, uclass := 1, uinst := c }
    let t := { t with integ := { t.integ with forced := satAdd 8 t.integ.forced 1 } }
    let t := (beginWindow t c).modCore c fun k => { k with winForced := true }
    if (t.core (partner c)).winForced then restartPair t p else t

/-- A core leaves its window: its state is as it was, its timer has not run, its arrays start their ramp (R171, R438, R471). -/
def leaveWindow (s : State) (c : Nat) : State :=
  let k := s.core c
  match k.winStart with
  | none => s
  | some w =>
    s.modCore c fun k =>
      let k := { k with
        st := if k.st = SeqState.window then k.preWindow else k.st
        winStart := none
        waitStart := k.waitStart.map (· + (s.cycle - w)) }
      k.ramp c s.cycle

/-- A Campion mismatch record against a unit (R440, R441). -/
def mismatchEvent (s : State) (uclass uinst addr : Nat) (lastPass : BitVec 32) : State :=
  let t := s.emit { code := 0x1E, uclass := uclass, uinst := uinst, addr := addr, detail := lastPass.toNat }
  { t with integ := { t.integ with mismatch := satAdd 8 t.integ.mismatch 1 } }

/-- TEST_WINDOW_END (R171, R437, R440, R441): the windows named have lasted 200 µs; when both cores of the pair are through, their
signatures are compared. A control-parity error of a core inside its window is a mismatch against it. -/
def windowEnd (p : Nat) (forced : Option CoreId) (sigEqual : Bool) (parity : Option CoreId) (s : State) : State :=
  let cores := match forced with
    | some c => if c.val % 16 = p then [c.val] else []
    | none => pairCores p
  let ends := fun (c : Nat) => match (s.core c).winStart with
    | some w => decide (w + windowCycles ≤ s.cycle)
    | none => false
  if cores.isEmpty || !cores.all ends then s
  else
    let t := cores.foldl (fun t c => waitedCoreReset (leaveWindow t c) c) s
    let t := { t with integ := { t.integ with windows := satAdd 32 t.integ.windows cores.length } }
    let bad := fun (c : Nat) => match parity with | some d => d.val == c | none => false
    let t := (cores.filter bad).foldl (fun t c => mismatchEvent t 1 c 0 (t.core c).lastPass) t
    if pairBusy t p then t
    else if sigEqual then
      ((pairCores p).filter fun c => !bad c).foldl (fun t c => t.modCore c fun k => { k with lastPass := k.winStep }) t
    else t.modPair p fun x => { x with mismatch := true }

/-- TEST_OVERDUE (R172): the pair has stayed due for 100 ms. -/
def testOverdue (p : Nat) (s : State) : State :=
  let x := s.pair p
  if !x.due || x.overdueSent || decide (s.cycle < x.dueAt + overdueCycles) then s
  else
    let t := (pairCores p).foldl (fun t c => t.emit { code := 0x1F, uclass := 1, uinst := c }) s
    let t := t.modPair p fun x => { x with overdueSent := true }
    { t with integ := { t.integ with overdue := satAdd 8 t.integ.overdue 2 } }

/-- The unit of a core that a test item tested, as UCLASS and UINST (R454): 0 the sequencer, 1 an array, 2 its bank, 3 the vector engine,
4 a bank of the tile store. -/
def testedUnit (unit sub c : Nat) : Nat × Nat :=
  match unit with
  | 1 => (2, (4 * c + sub % 4) * 4)
  | 2 => (3, 4 * c + sub % 4)
  | 3 => (4, c)
  | 4 => (5, 16 * c + sub)
  | _ => (1, c)

/-- REFERENCE_RECOMPUTE (R440): which core's signature differs from the reference; a rerun that reproduces it is permanent (R448). -/
def referenceRecompute (p unit sub : Nat) (coreOk partnerOk coreRerunOk partnerRerunOk : Bool) (s : State) : State :=
  if !(s.pair p).mismatch then s
  else
    let s := s.modPair p fun x => { x with mismatch := false }
    let one := fun (t : State) (c : Nat) (ok rerunOk : Bool) =>
      if ok then t.modCore c fun k => { k with lastPass := k.winStep }
      else
        let (uc, ui) := testedUnit unit sub c
        let t := mismatchEvent t uc ui 0 (t.core c).lastPass
        if rerunOk then t else classify t uc ui 0 0x1E
    let t := one (one s p coreOk coreRerunOk) (p + 16) partnerOk partnerRerunOk
    if coreOk && partnerOk then mismatchEvent t 0xC 0 0 0 else t

/-- The unit that a Campion unit test tests (R439). -/
def unitUnderTest : TestUnit → Nat × Nat
  | .rowUnit v => (7, v.val)
  | .teasel u => (8, u.val)
  | .exchange e => (9, e.val)
  | .platform k => (0xB, k.val)

/-- CAMPION_UNIT_TEST (R439): a test changes time only; a unit that differs from the reference engine gets a mismatch record. -/
def unitTest (u : TestUnit) (pass : Bool) (s : State) : State :=
  if s.integ.lab || pass then s else mismatchEvent s (unitUnderTest u).1 (unitUnderTest u).2 0 0

/-! ### Abandoned windows (R483) -/

/-- The windows that a stop meets are abandoned: the cores are as they were and the pairs stay due (R483). -/
def abandonWindows (s : State) : State :=
  (List.range 16).foldl (fun t p =>
    if pairBusy t p then
      ((pairCores p).foldl (fun t c => waitedCoreReset (leaveWindow t c) c) t).modPair p fun x => { x with due := true }
    else t) s

/-- At the resume: counts have not run for `n` cycles, and every due pair runs its window before its cores issue (R483). -/
def resumeWindows (s : State) (n : Nat) : State :=
  (List.range 16).foldl (fun t p =>
    let t := t.modPair p fun x => { x with start := x.start + n, dueAt := x.dueAt + n }
    if (t.pair p).due && !t.integ.lab then restartPair ((pairCores p).foldl beginWindow t) p else t) s

/-! ### The error ring and the unit history (R444 to R447, R457) -/

/-- EKIND of a record (R444): classifications, amendments and withdrawals have their own; every other record is an event. -/
def ekindOf (code : Nat) : Nat := if code = 0x23 then 2 else if code = 0x24 ∨ code = 0x25 then 4 else if code = 0x26 then 5 else 1

/-- The location of a record (R445): DRAM events by page, array events by cell position. -/
def recLoc (r : Rec) : Nat :=
  if r.uclass = 6 then dramPageLoc r.addr.toNat else if r.uclass = 2 then r.addr.toNat % 2 ^ 9 else r.addr.toNat

/-- An entry as it stands in the flash (R444), with its CRC-32C. -/
def HistEntry.image (e : HistEntry) : List Byte :=
  let body := toBytes 8 e.ptime ++ toBytes 2 e.unit.toNat ++ toBytes 1 e.ekind.toNat ++ toBytes 1 e.ecode.toNat ++
    toBytes 4 e.count.toNat ++ toBytes 6 e.loc.toNat ++ List.replicate 6 0
  body ++ toBytes 4 (crc32c body).toNat

/-- The entries of 32 bytes that the ring of 64 MiB holds (R444). -/
abbrev historyRoom : Nat := 2 ^ 21
/-- The entries in an erase sector of 64 KiB (R444, R492). -/
abbrev sectorEntries : Nat := 2 ^ 11

/-- Whether an entry of a sector that is erased is copied forward (R446): a classification, remap, amendment or withdrawal, or an event
younger than 72 h of powered-on time. -/
def copiedForward (now : Nat) (e : HistEntry) : Bool :=
  [2, 3, 4, 5].contains e.ekind || (e.ekind == 1 && decide (now ≤ e.ptime + 259200000))

/-- Oldest sectors are erased until the ring has room (R446); `n` bounds them. -/
def eraseOldest (now : Nat) : Nat → List HistEntry → List HistEntry
  | 0, h => h
  | n + 1, h =>
    if h.length < historyRoom then h
    else eraseOldest now n (h.drop sectorEntries ++ (h.take sectorEntries).filter (copiedForward now))

/-- An entry is appended to the ring in the flash (R444, R446). -/
def State.addHistory (s : State) (e : HistEntry) : State :=
  { s with integ := { s.integ with history := eraseOldest s.ptime historyRoom s.integ.history ++ [e] } }

/-- A record is entered in the unit history (R445): two checkers that report one place in one cycle make one event (R457). -/
def noteRecord (s : State) (r : Rec) : State :=
  let code := if r.code = 0x23 then r.detail.toNat else r.code.toNat
  let unit := unitId r.uclass.toNat r.uinst.toNat
  let place := (unit, recLoc r)
  let seen := if s.integ.noted.1 = r.time then s.integ.noted.2 else []
  if ekindOf r.code.toNat = 1 then
    if seen.contains place then s
    else { s with integ := { s.integ with noted := (r.time, seen ++ [place]) } }.noteEvent 1 unit code (recLoc r)
  else s.noteEvent (ekindOf r.code.toNat) unit code (recLoc r)

/-- ERROR_RING_DELIVERY (R30, R457, R529): the oldest record of the ring reaches its page, the unit history, every host session with an
event ring, and, for a classification, the board. -/
def deliver (s : State) : State :=
  match s.errRing with
  | [] => s
  | r :: rest =>
    let s := { s with errRing := rest }
    let s := s.modPage (pageOfUnit r.uclass.toNat r.uinst.toNat) fun p => p.enter r
    let s := noteRecord s r
    let s := s.postAll 0 (.fault r)
    if r.kind = 4 then { s with mgmtOut := s.mgmtOut ++ [.platformEvent r] } else s

/-- UNIT_HISTORY_WRITE (R444, R447): the oldest waiting entry goes to the flash; when it cannot, the device keeps it and retries. -/
def historyWrite (ok : Bool) (s : State) : State :=
  match s.integ.histPending with
  | [] => s
  | e :: rest =>
    if s.integ.failingSince.isSome then s
    else if ok then { s with integ := { s.integ with histPending := rest } }.addHistory e
    else { s with integ := { s.integ with failingSince := some s.cycle } }

/-- UNIT_HISTORY_RETRY (R447): a retry 1 s or more after the failure; after 60 s of failed retries the failure record and UHFAIL. -/
def historyRetry (ok : Bool) (s : State) : State :=
  match s.integ.failingSince, s.integ.histPending with
  | some t, e :: rest =>
    if s.cycle < t + cyclesOfUs 1000000 then s
    else if ok then
      { s with integ := { s.integ with histPending := rest, failingSince := none } }.addHistory e
    else if t + cyclesOfUs 60000000 ≤ s.cycle ∧ s.integ.uhfail = false then
      let u := s.emit { code := 0x2A, uclass := 0xB, uinst := 9 }
      { u with integ := { u.integ with uhfail := true } }
    else s
  | _, _ => s

/-! ### Classification (R448) -/

/-- Codes that are events at their unit (R448): the detections of a fault of the hardware. -/
def eventCodes : List (BitVec 8) := [0x10, 0x11, 0x12, 0x14, 0x15, 0x17, 0x1D, 0x1E]

/-- An array and its accumulator bank are one unit of R449. -/
def unitKey (u : BitVec 16) : Nat :=
  let uclass := fld u 0 4
  let uinst := fld u 4 12
  if uclass = 2 then 2 + 16 * (uinst / 4) else if uclass = 3 then 2 + 16 * uinst else u.toNat

/-- The history entries, written or waiting. -/
def State.entries (s : State) : List HistEntry := s.integ.history ++ s.integ.histPending

/-- Events of a unit within 72 h of powered-on time, counting merged ones (R448). -/
def eventsOf (s : State) (entries : List HistEntry) (unit : BitVec 16) (here : HistEntry → Bool) : Nat :=
  ((entries.filter fun e =>
    e.ekind == 1 && eventCodes.contains e.ecode && unitKey e.unit == unitKey unit && decide (s.ptime ≤ e.ptime + 259200000) &&
      here e).map fun e => e.count.toNat).sum

/-- Whether an entry classifies a unit, or the DRAM page at a location. -/
def classifies (unit : BitVec 16) (loc : BitVec 48) (e : HistEntry) : Bool :=
  e.ekind == 2 && unitKey e.unit == unitKey unit && (fld unit 0 4 != 6 || e.loc == loc)

/-- Whether a DRAM page is redirected to a spare: then events of the page are those of the spare (R204). -/
def onSpare (s : State) (unit : BitVec 16) (loc : BitVec 48) : Bool :=
  fld unit 0 4 == 6 && (s.vault (fld unit 4 12 / 8)).redirects (fld unit 4 12 % 8) (bankOf loc.toNat) (pageOf loc.toNat)

/-- The entries that count for a classification: of a page on a spare those since the page was last classified (R204). -/
def State.entriesFor (s : State) (unit : BitVec 16) (loc : BitVec 48) : List HistEntry :=
  if onSpare s unit loc then (s.entries.reverse.takeWhile fun e => !classifies unit loc e).reverse else s.entries

/-- Whether a unit, or a DRAM page, has been classified already; a page on a spare can be classified again with its spare (R204). -/
def classified (s : State) (uclass : Nat) (unit : BitVec 16) (loc : BitVec 48) : Bool :=
  ((s.entriesFor unit loc).any (classifies unit loc)) ||
    s.errRing.any fun r => r.code == 0x23 && unitKey (unitId r.uclass.toNat r.uinst.toNat) == unitKey unit &&
      (uclass != 6 || recLoc r == loc.toNat)

/-- PERMANENT_CLASSIFICATION (R448): a second event at a location, or 16 in a unit, within 72 h. -/
def permanentBy (uclass uinst : Nat) (loc : BitVec 48) (code : BitVec 8) (s : State) : State :=
  let unit := unitId uclass uinst
  let es := s.entriesFor unit loc
  let deciding := es.any fun e => e.ekind == 1 && unitKey e.unit == unitKey unit && e.ecode == code
  let twice := decide (2 ≤ eventsOf s es unit fun e => e.unit == unit && e.loc == loc)
  let many := decide (16 ≤ eventsOf s es unit fun _ => true)
  if deciding && (twice || many) && !classified s uclass unit loc then classify s uclass uinst loc.toNat code.toNat else s

/-! ### The commands -/

/-- PAIR_DUE (R171). -/
def execPairDue (p : PairId) (s : State) : Result := .next (if s.live && !s.stopped then pairDue p.val s else s)
/-- TEST_WINDOW_END (R437). -/
def execTestWindowEnd (p : PairId) (forcedCore : Option CoreId) (sigEqual : Bool) (parityCore : Option CoreId) (s : State) : Result :=
  .next (if s.live && !s.stopped then windowEnd p.val forcedCore sigEqual parityCore s else s)
/-- FORCED_TEST_WINDOW (R438). -/
def execForcedTestWindow (c : CoreId) (s : State) : Result := .next (if s.live && !s.stopped then forcedWindow c.val s else s)
/-- TEST_OVERDUE (R172). -/
def execTestOverdue (p : PairId) (s : State) : Result := .next (if s.live && !s.stopped then testOverdue p.val s else s)
/-- CAMPION_UNIT_TEST (R439). -/
def execCampionUnitTest (u : TestUnit) (pass : Bool) (s : State) : Result :=
  .next (if s.live && !s.stopped then unitTest u pass s else s)
/-- REFERENCE_RECOMPUTE (R440). -/
def execReferenceRecompute (p : PairId) (unit : Fin 5) (sub : BitVec 4) (coreOk partnerOk coreRerunOk partnerRerunOk : Bool)
    (s : State) : Result :=
  .next (if s.live then referenceRecompute p.val unit.val sub.toNat coreOk partnerOk coreRerunOk partnerRerunOk s else s)
/-- ERROR_RING_DELIVERY (R457). -/
def execErrorRingDelivery (s : State) : Result := .next (if s.live then deliver s else s)
/-- UNIT_HISTORY_WRITE (R444). -/
def execUnitHistoryWrite (flashOk : Bool) (s : State) : Result := .next (if s.live then historyWrite flashOk s else s)
/-- UNIT_HISTORY_RETRY (R447). -/
def execUnitHistoryRetry (flashOk : Bool) (s : State) : Result := .next (if s.live then historyRetry flashOk s else s)
/-- PERMANENT_CLASSIFICATION (R448). -/
def execPermanentClassification (uclass : BitVec 4) (uinst : BitVec 12) (loc : BitVec 48) (code : BitVec 8) (s : State) : Result :=
  .next (if s.live then permanentBy uclass.toNat uinst.toNat loc code s else s)

end Sys2Proof.Machine
end

