-- ==== Sys2Proof/Machine/Power.lean ====
section
/-!
DEFINITION. Tansy: caps, demand estimates and division, droop, the voltage handshake, ageing margin, temperatures and stops (R212, R213,
R461 to R485). Powers and energies are integers in units of 2^-10 W, temperatures in units of 0.125 °C.
-/

namespace Sys2Proof.Machine

/-- One watt. -/
abbrev watt : Nat := 1024
/-- The unit of Tansy's records (R454). -/
def State.tansyRec (s : State) (code : Nat) (count : Nat := 1) (detail : Nat := 0) : State :=
  s.emit { code := code, uclass := 0xC, uinst := 1, count := count, detail := detail }
/-- Tansy changed. -/
def State.modTns (s : State) (f : Tansy → Tansy) : State := { s with tns := f s.tns }

/-! ### Who may write a register (R486, R522) -/

/-- Whether an attached session of level 2 stands behind a SID. -/
def level2 (s : State) (sid : BitVec 32) : Bool := (s.session sid).st == .attached && decide (2 ≤ (s.session sid).level)

/-- The table of R522 for a register other than ERR_STAT: management writes the management, Tansy and platform pages; machine mode writes
every register; supervisor mode the registers that the monitor's window table opens; a session of level 2 as R427 says. -/
def mayWrite (s : State) (a : Agent) (page : Nat) : Bool :=
  match a with
  | .management => decide (1 ≤ page) && decide (page ≤ 3)
  | .platformM => true
  | .platformS => s.plt.windows.any fun (b, n, perm) =>
      decide (b ≤ Config.pageBase + page * 2 ^ 16) && decide (Config.pageBase + (page + 1) * 2 ^ 16 ≤ b + n) && perm.getLsbD 1 && perm.getLsbD 4
  | .session sid => level2 s sid

/-! ### Caps (R464, R467, R486) -/

/-- The effective cap in W (R464). -/
def effectiveCap (t : Tansy) : Nat :=
  let m := min t.mgCap.toNat t.rtCap.toNat
  if t.alertHeld then min m t.alertCap.toNat else m

/-- ECAP follows its parts. -/
def Tansy.recap (t : Tansy) : Tansy := { t with ecap := BitVec.ofNat 11 (effectiveCap t) }

/-- A cap of 400 W to 1,200 W. -/
def capInRange (w : BitVec 11) : Bool := decide (400 ≤ w.toNat) && decide (w.toNat ≤ 1200)

/-- A write of one cap field: a value out of range leaves it and writes a record (R464). -/
def capWrite (s : State) (w : BitVec 11) (f : Tansy → Tansy) : State :=
  if capInRange w then s.modTns fun t => (f t).recap else s.tansyRec 0x80

/-- MG_CAP_WRITE (R464, R486): management only. -/
def mgCapWrite (a : Agent) (w : BitVec 11) (s : State) : State :=
  if a = .management then capWrite s w fun t => { t with mgCap := w } else s
/-- ALERT_CAP_WRITE (R464, R486): management only. -/
def alertCapWrite (a : Agent) (w : BitVec 11) (s : State) : State :=
  if a = .management then capWrite s w fun t => { t with alertCap := w } else s
/-- RT_CAP_WRITE (R464, R486): the platform processors, or a session of level 2. -/
def rtCapWrite (a : Agent) (w : BitVec 11) (s : State) : State :=
  if a ≠ .management ∧ mayWrite s a 2 then capWrite s w fun t => { t with rtCap := w } else s

/-- The budget allowances in force at a cycle (R469). -/
def Tansy.allowNow (t : Tansy) (now : Nat) : SMap Nat := if t.allowFrom ≤ now then t.allow else t.allowOld

/-- New budget allowances: the limiters apply them from the next cycle that is a multiple of 64 (R469). DESIGN CHOICE (log 140): they
reach the array island within that time. -/
def Tansy.setAllow (t : Tansy) (now : Nat) (m : SMap Nat) : Tansy :=
  { t with allow := m, allowOld := t.allowNow now, allowFrom := (now / 64 + 1) * 64 }

/-- The alert cap counts from now on, and every budget allowance becomes 8 (R467). -/
def applyAlert (s : State) : State :=
  s.modTns fun t =>
    { t.setAllow s.cycle ((List.range 32).foldl (fun m c => mset 64 m c 8) t.allow) with alertHeld := true, allOneSince := none }.recap

/-- CAP_ALERT_ASSERT (R467, R484): the pin goes low, every budget allowance becomes 8, and the device writes a cap-alert record; during a
stop the alert cap waits for the resume. -/
def capAlertAssert (s : State) : State :=
  let s := { s with pins := { s.pins with capAlertN := false } }
  if !s.live then s else (if s.stopped then s else applyAlert s).tansyRec 0x83
/-- CAP_ALERT_DEASSERT (R467): the effective cap returns at the next period. -/
def capAlertDeassert (s : State) : State := { s with pins := { s.pins with capAlertN := true } }

/-! ### Demand estimates and division (R468, R469) -/

/-- E_full: 24 W a core on SCP-3128, 18 W on SCP-3096 (R468). -/
def eFull (grade : BitVec 8) : Nat := if grade = 0x01 then 24 * watt else 18 * watt

/-- Key of the estimate of core c in phase φ. -/
def estKey (c phase : Nat) : Nat := c * 256 + phase
/-- The demand estimate of a core in the phase it is in. -/
def demand (s : State) (c : Nat) : Nat := mget (eFull s.grade) s.tns.est (estKey c (s.core c).phase.toNat)
/-- The budget allowance that Tansy has set for core c (R468). -/
def budget (s : State) (c : Nat) : Nat := mget 64 s.tns.allow c

/-- The new estimate from the old one, the power of the period, the allowance in force and whether a vector was held back (R468). -/
def newEstimate (full e p n : Nat) (held : Bool) : Nat :=
  let x : Nat := if held ∧ n < 64 then p * 64 / n else p
  let e' : Int := (e : Int) + ((x : Int) - e).fdiv 8
  (min (max e' 0) full).toNat

/-- The level lam over demands sorted upward: the sum of min(d, lam) is `rest`, as numerator and denominator (R469). -/
def levelOf : List Nat → Int → Int × Nat
  | [], rest => (rest, 1)
  | d :: ds, rest => if rest ≤ d * (ds.length + 1 : Nat) then (rest, ds.length + 1) else levelOf ds (rest - d)

/-- The allowance of a core of demand d at the level num / den (R469). -/
def allowanceAt (num : Int) (den d : Nat) : Nat :=
  if d = 0 then 64 else if (d * den : Nat) ≤ num then 64 else (max 1 ((64 * num).fdiv (d * den : Nat))).toNat

/-- The budget allowances for a headroom h and the demands of the cores (R469). -/
def divide (h : Int) (ds : List Nat) : List Nat :=
  if h ≤ 0 then ds.map fun _ => 1
  else if (ds.sum : Int) ≤ h then ds.map fun _ => 64
  else
    let lam := levelOf (ds.mergeSort fun a b => decide (a ≤ b)) h
    ds.map fun d => allowanceAt lam.1 lam.2 d

/-- The arrays' power of every core in a sample. -/
def corePower (m : TansySample) (c : Nat) : Nat := nth m.core c 0

/-- The estimates at the end of a period (R468): those of the cores that stayed in one phase. -/
def updateEstimates (s : State) (m : TansySample) : SMap Nat :=
  (List.range 32).foldl (fun e c =>
    if nth m.steady c false then
      mset (eFull s.grade) e (estKey c (s.core c).phase.toNat)
        (newEstimate (eFull s.grade) (demand s c) (corePower m c) (budget s c) (nth m.held c false))
    else e) s.tns.est

/-- One sample of the package power; PWR is the average of those of the last 1 ms (R465, R487). -/
def Tansy.sample (t : Tansy) (pkg : Nat) : Tansy :=
  let hist := (t.pwrHist ++ [pkg]).drop (t.pwrHist.length - 99)
  { t with pwrHist := hist, pwrLast := hist.sum, pwr := BitVec.ofNat 12 (min (hist.sum / (hist.length * watt)) 4095) }

/-- TANSY_PERIOD (R465 to R469, R484, R558): the sample, the estimates, the effective cap, in which an alert cap counts while the pin is
low, though not before the resume of a stop, and the division. -/
def tansyPeriod (m : TansySample) (s : State) : State :=
  let est := updateEstimates s m
  let s := s.modTns fun t =>
    { t.sample m.pkg with est := est, alertHeld := !s.pins.capAlertN && (t.alertHeld || !s.stopped) }.recap
  let h : Int := (effectiveCap s.tns * watt : Nat) - ((m.pkg : Int) - (((List.range 32).map (corePower m)).sum : Nat))
  let limited := match s.tns.thermal with | some x => min h x | none => h
  let ns := divide limited ((List.range 32).map (demand s))
  s.modTns fun t =>
    { t.setAllow s.cycle (ns.zipIdx.foldl (fun a (n, c) => mset 64 a c n) t.allow) with
      lastH := h
      allOneSince := if ns.all (· == 1) then some (t.allOneSince.getD s.cycle) else none }

/-- TNS_STAT.CAPPING (R487): some array has a budget allowance below 64. -/
def capping (s : State) : Bool := !s.tns.allow.isEmpty

/-- The second of device time, a window of R570. -/
def State.second (s : State) : Nat := s.nowNs / 1000000000

/-- CAP_UNATTAINABLE (R466): allowance 1 everywhere for 10 ms with the 1 ms average above the effective cap, once a second at most. -/
def capUnattainable (s : State) : State :=
  let t := s.tns
  let held := match t.allOneSince with | some x => decide (x + cyclesOfUs 10000 ≤ s.cycle) | none => false
  if held && t.lastUnattainable != some s.second && decide (effectiveCap t * 100 * watt < t.pwrLast) then
    (s.tansyRec 0x81).modTns fun t => { t with lastUnattainable := some s.second }
  else s

/-! ### The allowance in force (R461, R470, R472, R473, R480) -/

/-- The ramp allowance of an array at a cycle (R472). -/
def rampAllowance (start : Option Nat) (now : Nat) : Nat :=
  match start with
  | none => 64
  | some b => if now < b then 0 else if now - b < 2048 then 8 + 56 * (now - b) / 2048 else 64

/-- The allowance in force at array `a` of core c (R461). -/
def allowance (s : State) (c a : Nat) : Nat :=
  if s.stopped || (s.core c).droopCut then 0
  else
    let n := min (mget 64 (s.tns.allowNow s.cycle) c) (rampAllowance ((s.core c).array a).rampStart s.cycle)
    if s.tns.vapplied.toNat < s.tns.vreq.toNat then min n 8 else n

/-! ### Droop (R470) -/

/-- The droop record of a second that held cuts (R470). -/
def droopRecordNow (s : State) : State :=
  if s.tns.droopCuts = 0 then s
  else (s.tansyRec 0x82 (count := s.tns.droopCuts)).modTns fun t => { t with droopCuts := 0 }
/-- DROOP_CUT (R470): issue into the core's arrays stops; each cut counts. -/
def droopCut (c : Nat) (s : State) : State :=
  if (s.core c).droopCut then s
  else
    let s := if s.tns.droopSecond = s.second then s else droopRecordNow s
    (s.modCore c fun k => { k with droopCut := true }).modTns fun t =>
      { t with droop := satAdd 16 t.droop 1, droopCuts := t.droopCuts + 1, droopSecond := s.second }
/-- DROOP_CUT_END (R470, R471): the core's arrays restart under the ramp. -/
def droopCutEnd (c : Nat) (s : State) : State :=
  if (s.core c).droopCut then s.modCore c fun k => { k with droopCut := false }.ramp c s.cycle else s
/-- DROOP_RECORD (R470): at the end of a second that held cuts. -/
def droopRecord (s : State) : State := if s.tns.droopSecond < s.second then droopRecordNow s else s

/-! ### Voltage and margin (R473 to R475) -/

/-- VREQ for a voltage trim and an adder in mV (R473). -/
def vreqOf (vpart adder : Nat) : Nat := min (max (vpart + adder) 680) 850
/-- VAPPLIED_WRITE (R473, R522). -/
def vappliedWrite (a : Agent) (mv : BitVec 16) (s : State) : State :=
  if mayWrite s a 2 then s.modTns fun t => { t with vapplied := mv } else s
/-- VOLTAGE_NOT_APPLIED (R473): once a minute while VAPPLIED is below VREQ. -/
def voltageNotApplied (s : State) : State :=
  if s.tns.lastNotApplied != some (s.second / 60) && decide (s.tns.vapplied.toNat < s.tns.vreq.toNat) then
    (s.tansyRec 0x89).modTns fun t => { t with lastNotApplied := some (s.second / 60) }
  else s

/-- An entry of the margin history as it stands in the flash (R475), with its CRC-32C. -/
def MarginEntry.image (e : MarginEntry) : List Byte :=
  let body := toBytes 8 e.ptime ++ toBytes 2 e.vreq.toNat ++ toBytes 2 e.adder.toNat ++ toBytes 2 e.slack.toNat ++ toBytes 2 e.temp.toNat ++
    List.replicate 12 0
  body ++ toBytes 4 (crc32c body).toNat

/-- A unit-history entry for a change of ADDER (R475): EKIND 6. -/
def marginEvent (s : State) : State := s.noteEvent 6 (unitId 0xC 1) 0x8A 0

/-- MARGIN_MEASUREMENT (R473 to R475): VREQ from the trim and the adder; a slack below target raises ADDER by 5 mV, and at 850 mV the
margin is exhausted. Each measurement appends an entry to the margin history. -/
def marginMeasurement (slack : Nat) (s : State) : State :=
  let b := s.flash.base
  let vreq := vreqOf b.vpart s.tns.adder.toNat
  let short := decide (slack < b.slack)
  let raise := short && decide (vreq < 850)
  let s := if raise then
      let adder := satAdd 8 s.tns.adder 5
      marginEvent ((s.modTns fun t => { t with adder := adder }).tansyRec 0x8A (detail := adder.toNat))
    else if short then s.tansyRec 0x8B else s
  let s := if short && !raise then { s with integ := { s.integ with svc := true } } else s
  let v := BitVec.ofNat 16 (vreqOf b.vpart s.tns.adder.toNat)
  let entry : MarginEntry := ⟨s.ptime, v, s.tns.adder, BitVec.ofNat 16 slack, s.tns.tjmax.zeroExtend 16⟩
  { s.modTns (fun t => { t with vreq := v }) with flash := { s.flash with margins := s.flash.margins ++ [entry] } }

/-! ### Stops (R213, R478 to R483) -/

/-- A stop of chapter 14 begins, or a further cause meets the one in force (R480, R484): the count runs from the first cause. -/
def raiseStop (s : State) (src : StopSrc) : State :=
  if s.stopped then s.modTns fun t => { t with causes := if t.causes.contains src then t.causes else t.causes ++ [src] }
  else abandonWindows (s.modTns fun t => { t with stop := true, stopSrc := src, stopAt := s.cycle, causes := [src] })

/-- COOLANT_LOSS_STOP (R480, R548): two low samples of COOL_OK. Before the boot ROM has started there is nothing to stop. -/
def coolantLossStop (s : State) : State :=
  let was := s.pins.coolOk
  let s := { s with pins := { s.pins with coolOk := false } }
  if !s.live || !s.plt.romStarted then s
  else
    let s := s.modTns fun t => { t with coolLowAt := some s.cycle }
    if was then raiseStop (s.tansyRec 0x85) .coolant else raiseStop s .coolant

/-- STOP_EXPIRED (R482): 60 s after the cause the stop becomes a halt; a JOB event of kind halted. -/
def stopExpired (s : State) : State :=
  if s.tns.stop && !s.tns.halt && decide (s.tns.stopAt + cyclesOfUs 60000000 ≤ s.cycle) then
    let t := (s.tansyRec 0x88).modTns fun t => { t with halt := true }
    match t.job with
    | some j => if j.halted then t.jobEvent 5 else t.haltJob
    | none => t.jobEvent 5
  else s

/-- THERMAL_TRIP (R479): THERMTRIP_N goes low until the next cold reset; no record. -/
def thermalTrip (s : State) : State := { s with pins := { s.pins with thermtripN := false } }

/-! ### Temperatures (R212, R213, R476 to R478) -/

/-- The row of R212 for a reading: bounds 85, 95, 97 and 100 °C. -/
def rowOf (temp : Nat) : Nat := if temp < 680 then 0 else if temp < 760 then 1 else if temp < 776 then 2 else if temp < 800 then 3 else 4

/-- The row in force (R213): the hotter of the latest sample's row and the row of the hottest reading of the last 100 ms plus 2 °C. -/
def nextRow (latest hottest : Nat) : Nat := max (rowOf latest) (rowOf (hottest + 16))

/-- The hottest reading, and the lowest die that shows it (DESIGN CHOICE, log 150: R215 names no die for a tie). -/
def hottestOf (temps : List Nat) : Nat × Nat :=
  temps.zipIdx.foldl (fun (m : Nat × Nat) (x : Nat × Nat) => if m.1 < x.1 then x else m) (nth temps 0 0, 0)

/-- DRAM_TEMP_SAMPLE (R212, R213, R215): the row in force, its record, and the over-temperature stop. -/
def dramTempSample (v : Nat) (temps : List Nat) (s : State) : State :=
  let u := s.vault v
  let (hot, die) := hottestOf temps
  let kept := (u.temps.filter fun e => decide (s.cycle ≤ e.1 + cyclesOfUs 100000)) ++ [(s.cycle, hot)]
  let row := nextRow hot ((kept.map (·.2)).foldl max 0)
  let t := s.modVault v fun u =>
    { u with
      temps := kept, row := row, temp := BitVec.ofNat 11 hot, hotdie := BitVec.ofNat 3 die
      rmode := BitVec.ofNat 2 (min row 3), otstop := decide (row = 4) || (u.otstop && s.stopped) }
  let rec1 := fun (t : State) (code : Nat) => t.emit { code := code, uclass := 6, uinst := v * 8 + die }
  let t := if u.row < 2 ∧ 2 ≤ row then rec1 t 0x1B else t
  if 800 ≤ hot then raiseStop (if (nth u.temps (u.temps.length - 1) (0, 0)).2 < 800 then rec1 t 0x1C else t) .dram else t

/-- Whether the device is thermally limited: a logic reading of 100 °C, or a vault in the 95 °C row or a hotter one (R477). -/
def tooHot (s : State) (logic : Nat) : Bool :=
  decide (800 ≤ logic) || (List.range 64).any fun v => decide (2 ≤ (s.vault v).row)

/-- The thermal limit after 1 ms (R477): 32 W down while too hot, 32 W up below 98 °C until it no longer binds. -/
def nextThermal (hot cool : Bool) (h : Int) (limit : Option Int) : Option Int :=
  match limit with
  | none => if hot then some (h - (32 * watt : Nat)) else none
  | some x =>
    if hot then some (x - (32 * watt : Nat))
    else if cool then (if h ≤ x + (32 * watt : Nat) then none else some (x + (32 * watt : Nat)))
    else some x

/-- LOGIC_TEMP_SAMPLE (R477, R478): TJMAX, thermal limiting with its record, and the stop at 105 °C. -/
def logicTempSample (temps : List Nat) (s : State) : State :=
  let logic := temps.foldl max 0
  let limit := nextThermal (tooHot s logic) (decide (logic < 784)) s.tns.lastH s.tns.thermal
  let begins := s.tns.thermal.isNone && limit.isSome
  let s := s.modTns fun t => { t with tjmax := BitVec.ofNat 11 logic, thermal := limit, tlim := limit.isSome }
  let s := if begins then s.tansyRec 0x84 else s
  if 840 ≤ logic then raiseStop (if s.stopped && s.tns.causes.contains .logic then s else s.tansyRec 0x86) .logic else s

/-- The conditions of R481 that the device's state shows: readings, rows, and COOL_OK not low within the last second. -/
def resumable (s : State) : Bool :=
  decide (s.tns.tjmax.toNat ≤ 720) && ((List.range 64).all fun v => decide ((s.vault v).temp.toNat ≤ 680) && (s.vault v).row != 4) &&
    match s.tns.coolLowAt with | some x => decide (x + cyclesOfUs 1000000 ≤ s.cycle) | none => true

/-- The timers of R393 in the array island and the port's own credit timeouts have not run for `n` cycles (R483). -/
def shiftTimers (s : State) (n : Nat) : State :=
  let s := (List.range 32).foldl (fun t c => t.modCore c fun k => { k with waitStart := k.waitStart.map (· + n) }) s
  let s := (List.range 9).foldl (fun t p => t.modPort p fun x => { x with stalled := x.stalled.map fun e => (e.1, e.2 + n) }) s
  { s with fetches := s.fetches.map fun f => { f with start := f.start + n } }

/-- The stop's own state is cleared: STOP, HALT, STOPSRC, and OTSTOP in every vault; COOL_OK has been high for 1 s (R481). -/
def clearStop (s : State) : State :=
  let s := s.modTns fun t => { t with stop := false, halt := false, stopSrc := .none, causes := [] }
  let s := { s with pins := { s.pins with coolOk := true } }
  (List.range 64).foldl (fun t v => t.modVault v fun u => { u with otstop := false }) s

/-- The device resumes (R481, R483, R484): record with the stop's length, an alert cap that waited, a ramp at every array, and every due
window first. -/
def resumeNow (s : State) : State :=
  let n := s.cycle - s.tns.stopAt
  let t := (clearStop (shiftTimers s n)).tansyRec 0x87 (detail := n / 800000)
  let t := if !t.pins.capAlertN && !t.tns.alertHeld then applyAlert t else t
  let t := (List.range 32).foldl (fun t c => t.modCore c fun k => k.ramp c s.cycle) t
  resumeWindows t n

/-! ### The commands -/

/-- DRAM_TEMP_SAMPLE (R213). -/
def execDramTempSample (v : VaultId) (temps : List (BitVec 11)) (s : State) : Result :=
  .next (if s.live then dramTempSample v.val (temps.map (·.toNat)) s else s)
/-- TANSY_PERIOD (R469). -/
def execTansyPeriod (m : TansySample) (s : State) : Result := .next (if s.live then tansyPeriod m s else s)
/-- CAP_UNATTAINABLE (R466). -/
def execCapUnattainable (s : State) : Result := .next (if s.live then capUnattainable s else s)
/-- MG_CAP_WRITE (R464). -/
def execMgCapWrite (a : Agent) (w : BitVec 11) (s : State) : Result := .next (if s.live then mgCapWrite a w s else s)
/-- RT_CAP_WRITE (R464). -/
def execRtCapWrite (a : Agent) (w : BitVec 11) (s : State) : Result := .next (if s.live then rtCapWrite a w s else s)
/-- ALERT_CAP_WRITE (R486). -/
def execAlertCapWrite (a : Agent) (w : BitVec 11) (s : State) : Result := .next (if s.live then alertCapWrite a w s else s)
/-- CAP_ALERT_ASSERT (R467). -/
def execCapAlertAssert (s : State) : Result := .next (capAlertAssert s)
/-- CAP_ALERT_DEASSERT (R467). -/
def execCapAlertDeassert (s : State) : Result := .next (capAlertDeassert s)
/-- DROOP_CUT (R470). -/
def execDroopCut (c : CoreId) (s : State) : Result := .next (if s.live then droopCut c.val s else s)
/-- DROOP_CUT_END (R470). -/
def execDroopCutEnd (c : CoreId) (s : State) : Result := .next (if s.live then droopCutEnd c.val s else s)
/-- DROOP_RECORD (R470). -/
def execDroopRecord (s : State) : Result := .next (if s.live then droopRecord s else s)
/-- VAPPLIED_WRITE (R473). -/
def execVappliedWrite (a : Agent) (mv : BitVec 16) (s : State) : Result := .next (if s.live then vappliedWrite a mv s else s)
/-- VOLTAGE_NOT_APPLIED (R473). -/
def execVoltageNotApplied (s : State) : Result := .next (if s.live then voltageNotApplied s else s)
/-- MARGIN_MEASUREMENT (R474); one that falls due during a stop waits. -/
def execMarginMeasurement (slackPs : Nat) (s : State) : Result :=
  .next (if s.live && !s.stopped then marginMeasurement slackPs s else s)
/-- LOGIC_TEMP_SAMPLE (R477). Where Tansy does not run, the sensors still show their reading to the comparator (R479, R549). -/
def execLogicTempSample (temps : List (BitVec 11)) (s : State) : Result :=
  .next (if s.live then logicTempSample (temps.map (·.toNat)) s
    else if s.pins.powered then s.modTns fun t => { t with tjmax := BitVec.ofNat 11 ((temps.map (·.toNat)).foldl max 0) } else s)
/-- THERMAL_TRIP (R479). -/
def execThermalTrip (s : State) : Result := .next (if s.pins.powered then thermalTrip s else s)
/-- COOLANT_LOSS_STOP (R480). -/
def execCoolantLossStop (s : State) : Result := .next (coolantLossStop s)
/-- STOP_EXPIRED (R482). -/
def execStopExpired (s : State) : Result := .next (if s.live then stopExpired s else s)

end Sys2Proof.Machine
end

