-- ==== Sys2Proof/Machine/Vault.lean ====
section
/-!
DEFINITION. The vaults (chapter 06): reads and writes at a controller, the command path, remaps, the self-test, scrub, refresh and
error injection.
-/

namespace Sys2Proof.Machine

/-! ### Reads and writes (R186, R192 to R195) -/

/-- A command-path error after three failed reissues (R195). -/
def commandError (s : State) (a : Nat) : State :=
  s.emit { code := 0x17, uclass := 6, uinst := vaultOf a * 8 + dieOf a, addr := a - a % 64 }

/-- VAULT_READ (R193, R195): the granule that holds `a` is read; a read whose command fails is delivered poisoned. -/
def vaultRead (a : Nat) (first second : Disturb) (s : State) : State :=
  if Config.dramEnd ≤ a then s
  else
    let g := a / 64
    let v := vaultOf a
    let failed := first.cmdFail || (second.cmdFail &&
      rsOfPattern (patternXor (patternOf (mget [] s.errs g)) (patternOf first.syms)) == .uncorrectable)
    if failed then
      (commandError s a).modVault v fun u => { u with lastRead := some (marked true (readB s (64 * g) 64)) }
    else
      let t := readGranule s g first second
      t.modVault v fun u => { u with lastRead := some (readP t (64 * g) 64) }

/-- VAULT_WRITE (R186, R194, R195): accepted bytes are merged, held for copy-before-write where the page is pending, and written;
an uncorrectable path code, an uncorrectable merge read or a failed command sets the mark. -/
def vaultWrite (a : Nat) (data : List Byte) (psn pathBad : Bool) (merge : Disturb) (s : State) : State :=
  let n := data.length
  if data = [] ∨ Config.dramEnd < a + n then s
  else
    let part := (granulesOf a n).filter fun g => !(decide (a ≤ 64 * g) && decide (64 * g + 64 ≤ a + n))
    let s := if merge.cmdFail then commandError s a else part.foldl (fun t g => readGranule t g merge merge) s
    writeDram s a (marked (psn || pathBad || merge.cmdFail) data)

/-- COMMAND_PATH_TIMEOUT (R195, R449): the vault is reported failed, a permanent classification that withdraws the part at once. -/
def pathTimeout (v die : Nat) (s : State) : State :=
  classify (s.emit { code := 0x18, uclass := 6, uinst := v * 8 + die }) 6 (v * 8 + die) 0 0x18

/-- DETECTION_SUMMARY (R199): at the end of a 1 ms window, the summary of the records replaced in it. -/
def detectionSummary (v : Nat) (s : State) : State :=
  if (s.vault v).detWindow < s.nowNs / 1000000 then
    (flushDetections s v).modVault v fun u => { u with detWindow := s.nowNs / 1000000 }
  else s

/-! ### Remap (R203 to R206, R209) -/

/-- Spare pages of a die that no word uses and that have not been found failing. -/
def freeSpares (v : Vault) (die : Nat) : List Nat :=
  (List.range 16).filter fun n =>
    !(v.remap.any fun w => w.die.toNat == die && w.spare.toNat == n) && !v.badSpares.contains (die, n)

/-- Whether a die has no free spare or all 16 words are valid (R206). -/
def remapFull (v : Vault) : Bool :=
  decide (16 ≤ v.remap.length) || (List.range 8).any fun d => (freeSpares v d).isEmpty

/-- The remap-exhausted record (R206): the page stays in service. -/
def remapExhausted (s : State) (v die a : Nat) : State :=
  (s.emit { code := 0x19, uclass := 6, uinst := v * 8 + die, addr := a }).modVault v fun u => { u with remapFull := true }

/-- The device address of a page's first byte. -/
def pageAddr (v die bank page : Nat) : Nat := page * 2 ^ 25 + bank * 2 ^ 20 + v * 2 ^ 14 + die * 2 ^ 7

/-- Redirect a failing page to a free spare of its die, or, for a page whose spare fails, to another spare (R204 to R206). Which free
spare is taken the spec leaves open (a free choice). The flag tells whether the page has a spare. -/
def addRemap (s : State) (v die bank page source : Nat) : State × Bool :=
  let u := s.vault v
  let same := fun (w : RemapWord) => w.die.toNat == die && w.bank.toNat == bank && w.page.toNat == page
  let spares := freeSpares u die
  let spare := nth spares (Config.freeChoice s.fresh % spares.length) 0
  let word : RemapWord := ⟨BitVec.ofNat 3 source, BitVec.ofNat 4 spare, BitVec.ofNat 13 page, BitVec.ofNat 5 bank, BitVec.ofNat 3 die⟩
  if spares = [] then (remapExhausted s v die (pageAddr v die bank page), false)
  else if u.remap.any same then
    (s.draw.modVault v fun u =>
      { u with
        remap := u.remap.map fun w => if same w then word else w
        badSpares := u.badSpares ++ (u.remap.filter same).map fun w => (die, w.spare.toNat) }, true)
  else if 16 ≤ u.remap.length then (remapExhausted s v die (pageAddr v die bank page), false)
  else (s.draw.modVault v fun u => { u with remap := u.remap ++ [word] }, true)

/-- The granules of a page. -/
def pageGranules (v die bank page : Nat) : List Nat :=
  (List.range 16).flatMap fun col => [0, 1].map fun h => (pageAddr v die bank page + col * 2 ^ 10 + h * 64) / 64

/-- The copy of a page to its spare (R205): corrected where it can be, marked where it cannot. -/
def remapCopy (s : State) (v die bank page : Nat) : State :=
  (pageGranules v die bank page).foldl (fun t g => fetchRange t (64 * g) 64) s

/-! ### Self-test (R207 to R209) -/

/-- The checkers on their test words (R208). -/
def checkersPass : Bool := rsSelfTest && metaSelfTest && sramSelfTest

/-- A spare page that fails (R204, R209): no word names it again, and a word that names it moves to another spare of the die. -/
def badSpare (s : State) (v die n source : Nat) : State :=
  match (s.vault v).remap.find? fun w => w.die.toNat == die && w.spare.toNat == n with
  | some w => (addRemap s v die w.bank.toNat w.page.toNat source).1
  | none => s.modVault v fun u => { u with badSpares := u.badSpares ++ if u.badSpares.contains (die, n) then [] else [(die, n)] }

/-- SELF_TEST_COMPLETE (R208, R209): the failing pages get remap words, a failing page from 6,144 on being a spare; a checker with a wrong
outcome fails the test. `checkersOk` tells that no checker of the hardware is broken. -/
def selfTest (v : Nat) (checkersOk : Bool) (failing : List (Nat × Nat × Nat)) (s : State) : State :=
  if (s.vault v).stDone then s
  else
    let s := failing.foldl (fun t (d, b, p) =>
      if 6144 ≤ p then badSpare t v d ((p - 6144) % 16) 1
      else if (t.vault v).redirects d b p then t else (addRemap t v d b p 1).1) s
    let s := if checkersOk && checkersPass then s
      else classify ((s.emit { code := 0x1A, uclass := 6, uinst := v * 8 }).modVault v fun u => { u with stFail := true })
        6 (v * 8) 0 0x1A
    (s.modVault v fun u => { u with stDone := true }).modPage (0x40 + v) fun p => if p.op = 3 then p.finish else p

/-! ### Scrub (R210, R211, R533) -/

/-- Granules that a pass of a vault's scrub reads: user and spare (R533). -/
abbrev scrubTotal : Nat := 50335744
/-- The user granules of a vault. -/
abbrev scrubUser : Nat := 50331648
/-- The granule at a place of the ascending order of a vault. -/
def scrubGranule (v pos : Nat) : Nat := (pos / 256 * 2 ^ 20 + v * 2 ^ 14) / 64 + pos % 256

/-- The granule of a device address that a spare granule stands for: one of the page that a remap word sends there. -/
def spareGranule (u : Vault) (v die n g : Nat) : Option Nat :=
  (u.remap.find? fun w => w.die.toNat == die && w.spare.toNat == n).map fun w =>
    nth (pageGranules v die w.bank.toNat w.page.toNat) g 0

/-- A read of a granule of a spare page that no word names (R193): it holds a clean word, so what it meets decides; such a granule has no
device address, and what a record of it names stays open. -/
def freeSpareRead (v die : Nat) (first second : Disturb) (s : State) : State :=
  let loc := Config.freeChoice s.fresh % Config.dramEnd
  let s := s.draw
  let seen := fun (d : Disturb) => if d.cmdFail then RsResult.uncorrectable else rsOfPattern (patternOf d.syms)
  let corrected := fun (retry : Nat) =>
    (s.modVault v fun u => u.ecc 1 0 retry).noteEvent 1 (unitId 6 (v * 8 + die)) 0x14 (dramPageLoc loc)
  if first.cmdFail || (second.cmdFail && seen first == .uncorrectable) then
    s.emit { code := 0x17, uclass := 6, uinst := v * 8 + die, addr := loc - loc % 64 }
  else match seen first, seen second with
  | .clean, _ => if first.mdata = 0 then s else corrected 0
  | .corrected _, _ => corrected 0
  | .uncorrectable, .clean => s.modVault v fun u => u.ecc 0 0 1
  | .uncorrectable, .corrected _ => corrected 1
  | .uncorrectable, .uncorrectable => detectAt (s.modVault v fun u => u.ecc 0 1 0) v die (loc - loc % 64) 0x14

/-- The spare granule at a place of the pass, counted from the first: 512 to a die, 32 to a page (DESIGN CHOICE, log 155: the order of spares). -/
def spareRead (v n : Nat) (first second : Disturb) (s : State) : State :=
  match spareGranule (s.vault v) v (n / 512) (n / 32 % 16) (n % 32) with
  | some g => vaultRead (64 * g) first second s
  | none => freeSpareRead v (n / 512) first second s

/-- DRAM_SCRUB_READ (R193, R210, R211): the next granule of the pass in ascending order, the spare granules after the user ones. -/
def scrubRead (v : Nat) (first second : Disturb) (s : State) : State :=
  let u := s.vault v
  if !u.scrubEn then s
  else
    let s := if u.scrubAct then s
      else (s.modVault v fun u => { u with scrubAct := true, scrubPos := 0 }).beginProg (0x40 + v) 2 scrubTotal
    let pos := (s.vault v).scrubPos
    let s := if pos < scrubUser then vaultRead (64 * scrubGranule v pos) first second s
      else spareRead v (pos - scrubUser) first second s
    let s := s.modPage (0x40 + v) fun p => if p.op = 2 then p.advance 1 else p
    if pos + 1 < scrubTotal then s.modVault v fun u => { u with scrubPos := pos + 1 }
    else (s.modVault v fun u => { u with scrubAct := false, scrubPos := 0, passes := satAdd 32 u.passes 1 }).modPage (0x40 + v)
      fun p => if p.op = 2 then p.finish else p

/-- Adjacent physical cells of the group of sixteen words that holds a word flip: bit j of word k lies at cell 16j + k (R196). -/
def burstFlips (s : State) (key : Nat) (b : SramBurst) : State :=
  (List.range (min b.len (1152 - b.pos))).foldl (fun t i =>
    let p := b.pos + i
    sramFlip t (16 * (key / 16) + p % 16) (BitVec.twoPow 72 (p / 16))) s

/-- Copies of the mark of a word's granule flip (R197). -/
def markFlips (s : State) (key : Nat) (m : BitVec 3) : State :=
  if accWords ≤ key then s
  else { s with metaErrs := mset 0 s.metaErrs (key / 8) (mget 0 s.metaErrs (key / 8) ^^^ m.setWidth 8) }

/-- Copies of the clean bit of a directory entry flip (R198). -/
def cleanFlips (s : State) (v slot : Nat) (m : BitVec 3) : State :=
  if m = 0 then s
  else s.modVault v fun u =>
    let e := u.entry (slot / 8) (slot % 8)
    u.setEntry (slot / 8) (slot % 8) { e with clean := e.clean ^^^ m }

/-- The read of an SRAM word at its store (R81, R197, R198). -/
def sramWordRead (s : State) (w : SramWord) : State :=
  let r := sramRead s (sramKey w)
  match w with
  | .tile _ _ => if r.2 then setMark r.1 (sramKey w / 8) else r.1
  | .acc ph n => readEntry s ph.val (n % 65536)
  | .hot v n => if r.2 then badSlot r.1 v.val (n % 2 ^ 17 / 16) else r.1
  | .dir v n => fetchDirWord s v.val (n % 4096)
  | .buffer _ _ | .sharedCache _ => r.1

/-- SRAM_SCRUB_READ (R196 to R198, R210): what has flipped in the word's group shows, and the word is read. -/
def sramScrub (w : SramWord) (b : SramBurst) (s : State) : State :=
  let s := markFlips (burstFlips s (sramKey w) b) (sramKey w) b.mark
  let s := match w with
    | .dir v n => cleanFlips (cleanFlips s v.val (2 * (n % 4096)) b.cleanLo) v.val (2 * (n % 4096) + 1) b.cleanHi
    | _ => s
  sramWordRead s w

/-! ### Refresh and injection (R212, R218) -/

/-- REFRESH (R212): a command covers four pages of a bank; none is issued in self-refresh. -/
def refreshBank (v die bank : Nat) (s : State) : State :=
  if (s.vault v).otstop then s
  else s.modVault v fun u => { u with refreshPtr := mmod 0 u.refreshPtr (die * 32 + bank) fun p => (p + 4) % 6144 }

/-- A write of VLT_INJ (R218): ARM is write-1-to-set; while it is 1, the other fields keep their values. -/
def writeInject (i : Inject) (x : Word) : Inject :=
  if i.arm then i
  else
    { arm := x.getLsbD 63, mode := x.extractLsb' 60 3, sym0 := x.extractLsb' 54 6, sym1 := x.extractLsb' 48 6,
      sym2 := x.extractLsb' 42 6, granule := x.extractLsb' 6 32 }

/-! ### The commands -/

/-- VAULT_READ (R193). -/
def execVaultRead (addr : Nat) (first second : Disturb) (s : State) : Result :=
  .next (if s.live && !s.stopped then vaultRead addr first second s else s)
/-- VAULT_WRITE (R186). -/
def execVaultWrite (addr : Nat) (data : List Byte) (psn pathBad : Bool) (merge : Disturb) (s : State) : Result :=
  .next (if s.live && !s.stopped then vaultWrite addr data psn pathBad merge s else s)
/-- COMMAND_PATH_TIMEOUT (R195). -/
def execCommandPathTimeout (v : VaultId) (die : Fin 8) (s : State) : Result :=
  .next (if s.live then pathTimeout v.val die.val s else s)
/-- DETECTION_SUMMARY (R199). -/
def execDetectionSummary (v : VaultId) (s : State) : Result := .next (if s.live then detectionSummary v.val s else s)
/-- DRAM_SCRUB_READ (R210). -/
def execDramScrubRead (v : VaultId) (first second : Disturb) (s : State) : Result :=
  .next (if s.live && !s.stopped then scrubRead v.val first second s else s)
/-- SRAM_SCRUB_READ (R210). -/
def execSramScrubRead (w : SramWord) (b : SramBurst) (s : State) : Result :=
  .next (if s.live && !s.stopped then sramScrub w b s else s)
/-- REFRESH (R212). -/
def execRefresh (v : VaultId) (die : Fin 8) (bank : Fin 32) (s : State) : Result :=
  .next (if s.live then refreshBank v.val die.val bank.val s else s)
/-- SELF_TEST_COMPLETE (R209). -/
def execSelfTestComplete (v : VaultId) (checkersOk : Bool) (failing : List (Fin 8 × Fin 32 × Nat)) (s : State) : Result :=
  .next (if s.live then selfTest v.val checkersOk (failing.map fun (d, b, p) => (d.val, b.val, p % 6160)) s else s)
/-- VLT_INJ_ARM (R218). -/
def execVltInjArm (v : VaultId) (val : Word) (s : State) : Result :=
  .next (if s.live then s.modVault v.val fun u => { u with inj := writeInject u.inj val } else s)

end Sys2Proof.Machine
end

