-- ==== Sys2Proof/Machine/Platform.lean ====
section
/-!
DEFINITION. Resets, boot, the part record, firmware update and attestation (R8 to R11, R205, R449, R450, R481, R482, R492 to R518).
-/

namespace Sys2Proof.Machine

/-! ### Array map amendments (R4, R8, R9, R496) -/

/-- Whether byte p of a map enables its array. -/
def enabledAt (m : List Byte) (p : Nat) : Bool := (nth m p 0).getLsbD 7
/-- Whether byte p of a map holds its array as a good spare. -/
def spareAt (m : List Byte) (p : Nat) : Bool := (nth m p 0).getLsbD 6 && !enabledAt m p
/-- The good arrays of core c in a map: enabled, or held as a spare (R494). -/
def goodArrays (m : List Byte) (c : Nat) : List Nat := ([0, 1, 2, 3].map (4 * c + ·)).filter fun p => enabledAt m p || spareAt m p
/-- The map bytes of a core by the rule of R4: the three lowest good arrays are enabled in order, a fourth is the spare. -/
def threeArrays (m : List Byte) (c : Nat) : List Byte :=
  ([0, 1, 2, 3].map (4 * c + ·)).map fun p =>
    match (goodArrays m c).zipIdx.find? fun x => x.1 == p with
    | some (_, i) => if i < 3 then BitVec.ofNat 8 (0x80 + i) else 0x40
    | none => 0
/-- The map after a regrade (R8): the faulty arrays disabled, R4 applied to every core; none when a core has fewer than three good ones. -/
def regradeMap (m : List Byte) (bad : List Nat) : Option (List Byte) :=
  let m := bad.foldl (fun m p => setAt m p 0) m
  if (List.range 32).all fun c => decide (3 ≤ (goodArrays m c).length) then some ((List.range 32).flatMap (threeArrays m)) else none
/-- The good spare of the core of array p (R9). -/
def spareOf (m : List Byte) (bad : List Nat) (p : Nat) : Option Nat :=
  ([0, 1, 2, 3].map (4 * (p / 4) + ·)).find? fun q => spareAt m q && !bad.contains q
/-- The map after spare q is substituted for array p (R9): it takes the faulty array's logical index. -/
def spareMap (m : List Byte) (p q : Nat) : List Byte := setAt (setAt m q (BitVec.ofNat 8 (0x80 + fld (nth m p 0) 0 2))) p 0

/-- Whether a classification of the unit history is one that the part record does not settle (R497). -/
def unsettled (s : State) (e : HistEntry) : Bool := e.ekind == 2 && decide (s.flash.base.ptcut < e.ptime) && e.ecode != 0x15

/-- The arrays classified as permanently faulty whose action waits or that the unit history names (R448, R449, R497): none of them is good
(R2, R4). -/
def faultyArrays (s : State) : List Nat :=
  let arrayOf := fun (a : Option Action) => match a with | some (.amendArray p) => some p | _ => none
  s.integ.actions.filterMap (arrayOf ∘ some) ++
    (s.entries.filter (unsettled s)).filterMap fun e =>
      arrayOf (actionOf s (fld e.unit 0 4) (fld e.unit 4 12) e.loc.toNat e.ecode.toNat)

/-- A faulty array that no amendment can replace (R2, R11): it is disabled in the map in force, and the part is withdrawn. -/
def withdrawArray (s : State) (p : Nat) : State := withdrawPart { s with amap := setAt s.amap p 0 }

/-- An amendment for a permanently faulty array takes effect (R2, R4, R8 to R11, R497, R533). A disabled array is a good spare no longer. -/
def amendArray (s : State) (p : Nat) : State :=
  let bad := p :: faultyArrays s
  if s.plt.noid then s
  else if !enabledAt s.amap p then { s with amap := setAt s.amap p 0 }
  else if 31 ≤ s.flash.amends.length then withdrawArray s p
  else if s.grade = 0x01 then
    match regradeMap s.amap bad with
    | some m =>
      let t := s.emit { code := 0x24, uclass := 2, uinst := 4 * p }
      let t := t.modPage 0 fun g => (g.begin 5 8192 s.nowNs).finish
      writeAmendment { t with amap := m, grade := 0x02 } 1 0x02 m
    | none => withdrawArray s p
  else
    match spareOf s.amap bad p with
    | some q =>
      let m := spareMap s.amap p q
      writeAmendment { s.emit { code := 0x25, uclass := 2, uinst := 4 * q } with amap := m } 2 s.grade m
    | none => withdrawArray s p

/-! ### Actions that wait for a reset (R10, R205, R449, R450, R512) -/

/-- A DRAM page that R206 leaves in service (R450): the part is service due; with the fourth it is withdrawn at the next job reset. -/
def pageLeft (s : State) (v die a : Nat) : State :=
  let s := s.emit { code := 0x2C, uclass := 6, uinst := v * 8 + die, addr := a }
  let s := { s with integ := { s.integ with unremap := satAdd 16 s.integ.unremap 1, svc := true } }
  if 4 ≤ s.integ.unremap.toNat then s.addAction .withdraw else s

/-- A classified page gets its remap word, after the copy to its spare (R205). -/
def remapAction (s : State) (v die bank page : Nat) : State :=
  let copied := remapCopy s v die bank page
  let (t, ok) := addRemap copied v die bank page 3
  let a := pageAddr v die bank page
  if ok then t.noteEvent 3 (unitId 6 (v * 8 + die)) 0x23 a else pageLeft t v die a

/-- An action takes effect (R449). -/
def applyAction (s : State) (a : Action) : State :=
  match a with
  | .amendArray p => amendArray s p
  | .withdraw => withdrawPart s
  | .remapPage v die bank page => remapAction s v die bank page
  | .sliceOff v => s.modVault v fun u => { u with sliceOff := true }
  | .spareRow unit => { s with integ := { s.integ with spareRows := mmod 0 s.integ.spareRows unit.toNat (· + 1) } }
  | .hostPortOff p => s.modPage (0x1A + p) fun g => { g with disabled := true }
  | .cpuOff k =>
    let cpus := s.plt.cpus &&& ~~~(BitVec.ofNat 8 (2 ^ k))
    let t := { s with plt := { s.plt with cpus := cpus } }
    if ((List.range 8).filter fun i => cpus.getLsbD i).length < 6 then withdrawPart t else t

/-- Whether a job reset lets an action take effect; the others wait for a warm or cold reset (R449). -/
def atJobReset : Action → Bool
  | .amendArray _ | .withdraw | .remapPage _ _ _ _ | .sliceOff _ => true
  | .spareRow _ | .hostPortOff _ | .cpuOff _ => false

/-- A waiting action takes effect and waits no longer. -/
def runAction (s : State) (a : Action) : State :=
  applyAction { s with integ := { s.integ with actions := s.integ.actions.filter (· != a) } } a

/-- The waiting actions that a reset applies; what a step of this adds waits for the following reset (R449, R450). -/
def applyActions (s : State) (job : Bool) : State := (s.integ.actions.filter fun a => !job || atJobReset a).foldl runAction s

/-! ### Job reset (R19, R313, R403, R511, R512) -/

/-- A job reset in a session (R403): its open IN transfers fail with a job-state fault, its rings and device buffers close. -/
def resetSession (s : State) (sid : Nat) : State :=
  let x : Session := mget {} s.sessions sid
  let s := (x.xfers.filter fun t => !t.out).foldl (fun s t => s.postTo sid 0x78 (.xfer t.xid t.moved none)) s
  { s with sessions := mmod {} s.sessions sid fun x =>
      { x with
        rings := [], xfers := x.xfers.filter (·.out)
        bufs := x.bufs.filter fun b => match b.2 with | some u => decide (3 ≤ u.kind) | none => false } }

/-- A port goes through DOWN and starts its link-up afresh (R313); its reservations, credits and buffers are gone (R332). -/
def resetPort (s : State) (p : Nat) : State :=
  s.modPort p fun x => { x.clear with st := .down, since := s.cycle, numCnt := {} }

/-- The checkpoint engine after a job reset (R366, R375, R377): nothing pending, every page of the set dirty; STATE keeps 4 after a failed
checkpoint, for R377 names no job reset there (R19). -/
def resetMirror (s : State) : State :=
  let s := if s.mirror.ckpt.isSome then
      { s with mirror := { s.mirror with state := 0 } }.modPage mirrorPage Page.fail
    else s
  let dirty := match s.prog with | some p => (setPages p).foldl (fun m g => mset false m g true) s.mirror.dirty | none => s.mirror.dirty
  { s with mirror := { s.mirror with
      cstep := 0xFFFFFFFF, mismatch := false, dirty := dirty, pend := [], digPend := [], pageCrc := [], copies := []
      ckpt := none, digests := [], dagree := none, waitingSnaps := [] } }

/-- Bookkeeping of a bank over a job reset: what its slots hold stays for a redo (R304); no descriptor waits on it. -/
def Bank.toJobReset (b : Bank) : Bank := { b with sealTok := none, applies := [], ran := false }

/-- The directory of a slice after a job reset (R255): VALID and PIN return to 0, the other fields stay. -/
def emptyDir (m : SMap HotEntry) : SMap HotEntry := 
  m.filterMap fun e =>
    let x := { e.2 with valid := false, pin := false }
    if x = {} then none else some (e.1, x)

/-- The program and every job state are gone (R511). -/
def unloadJob (s : State) : State :=
  let s := resetMirror s
  let s := (List.range 32).foldl (fun s c => s.modCore c Core.toJobReset) s
  let s := (List.range 9).foldl resetPort s
  let s := (List.range 64).foldl (fun s v => s.modVault v fun u => { u with dir := emptyDir u.dir, ledUsed := 0, numCnt := {} }) s
  let s := (s.sessions.map (·.1)).foldl resetSession s
  { s with
    workCtrs := [], barriers := [], tierTmo := 0x00989680, job := none, batches := [], accepted := [], lookups := []
    lookupQueue := [], counts := [], payloads := [], waitingPayloads := [], banks := s.banks.map fun b => (b.1, b.2.toJobReset)
    scales := [], waitingGrads := [], waitingFolds := [], waitingMarkers := [], commitWait := [], rowJobs := [], fetches := [], xops := []
    begun := [], tierDone := false, xwin := [], landings := [], tagWait := [], grants := [], inbox := [], outWait := []
    tierSources := [], tns := { s.tns with est := [] }
    plt := { s.plt with windows := bootWindows } }

/-- Work already granted completes, and no core goes on (R33, R512); windows are abandoned. -/
def finishGranted (s : State) : State :=
  let s := abandonWindows s
  (List.range 32).foldl (fun s c => dropPasses (finishPasses s c) c) s

/-- The job reset itself; it ends a stop or a halt (R482). -/
def jobResetNow (s : State) : State :=
  let s := if s.stopped then clearStop s else s
  (unloadJob (applyActions (finishGranted s) true)).jobEvent 4

/-! ### Boot selector and images (R501 to R503) -/

/-- The selector copy that applies: the higher sequence number (R502). -/
def selector (f : Flash) : Selector :=
  match f.sel1 with
  | some x => if f.sel0.sseq.toNat < x.sseq.toNat then x else f.sel0
  | none => f.sel0
/-- A boot-selector copy as it stands in the flash (R502), with its CRC-32C. -/
def Selector.image (x : Selector) : List Byte :=
  let body := toBytes 4 x.sseq.toNat ++ [BitVec.ofNat 8 x.slot.toNat, BitVec.ofNat 8 x.trial.toNat, x.tries] ++ List.replicate 53 0
  body ++ toBytes 4 (crc32c body).toNat
/-- A selector write goes to the other copy with the next sequence number (R502). -/
def writeSelector (f : Flash) (slot trial : Bool) (tries : Nat) : Flash :=
  let cur := selector f
  let new : Selector := ⟨cur.sseq + 1, slot, trial, BitVec.ofNat 8 tries⟩
  match f.sel1 with
  | some x => if f.sel0.sseq.toNat < x.sseq.toNat then { f with sel0 := new } else { f with sel1 := some new }
  | none => { f with sel1 := some new }
/-- The image of a slot: false A, true B. -/
def Flash.image (f : Flash) (slot : Bool) : Option FwImage := if slot then f.imgB else f.imgA
/-- A slot's image replaced. -/
def Flash.setImage (f : Flash) (slot : Bool) (i : Option FwImage) : Flash := if slot then { f with imgB := i } else { f with imgA := i }
/-- Whether a slot reads back intact. -/
def slotIntact (f : BootFinds) (slot : Bool) : Bool := if slot then f.okB else f.okA
/-- Whether a slot's image fails to reach ready. -/
def slotHangs (f : BootFinds) (slot : Bool) : Bool := if slot then f.hangB else f.hangA
/-- The record of an image that boot refuses (R501): 0x90 invalid, 0x91 below FWMIN; 0 when it is valid. -/
def imageFault (img : Option FwImage) (intact : Bool) (fwmin : BitVec 32) : Nat :=
  match img with
  | none => 0x90
  | some i => if !i.sigOk || !i.digestOk || !intact then 0x90 else if i.version.toNat < fwmin.toNat then 0x91 else 0

/-- The platform's unit in a record (R454). -/
def State.pltRec (s : State) (code : Nat) : State := s.emit { code := code, uclass := 0xB, uinst := 0 }
/-- The platform cluster changed. -/
def State.modPlt (s : State) (f : Platform → Platform) : State := { s with plt := f s.plt }

/-! ### Boot (R495 to R505, R510) -/

/-- The part record is read (R496, R498): a new base record takes effect; map and grade in force are those of the last amendment; a torn
slot is ignored with a record. -/
def readRecord (s : State) : State :=
  let f := match s.flash.nextBase with
    | some r => { s.flash with base := r, nextBase := none, amends := [] }
    | none => s.flash
  let torn := f.torn
  let f := { f with torn := false }
  let m := match f.amends.getLast? with | some a => a.amap | none => f.base.amap
  let g := match f.amends.getLast? with | some a => a.grade | none => f.base.grade
  let s := { s with
    flash := f, amap := m, grade := g
    integ := { s.integ with withdrawn := f.amends.any fun a => a.kind == 3 } }
  if torn then s.pltRec 0x94 else s

/-- The token region is read (R458, R510). -/
def readToken (s : State) : State :=
  let off := fun (s : State) => ({ s with integ := { s.integ with lab := false } }).modPlt fun p => { p with jtagUnlock := false }
  match s.flash.token with
  | none => off s
  | some t =>
    if t.sigOk && t.serial == s.flash.base.serial && decide (s.ptime < t.limit) then
      (({ s with integ := { s.integ with lab := t.scope.getLsbD 0 } }).modPlt fun p =>
        { p with jtagUnlock := t.scope.getLsbD 1 }).pltRec 0x98
    else (off s).pltRec 0x99

/-- The remap tables are rebuilt from the unit history (R205): its classified DRAM pages get words with SOURCE 2, each page one. -/
def rebuildRemaps (s : State) : State :=
  (s.integ.history.filter fun e =>
    e.ekind == 2 && fld e.unit 0 4 == 6 && !(e.ecode == 0x17 || e.ecode == 0x18 || e.ecode == 0x1A)).foldl (fun s e =>
      let v := fld e.unit 4 12 / 8
      let die := fld e.unit 4 12 % 8
      let bank := bankOf e.loc.toNat
      let page := pageOf e.loc.toNat
      if (s.vault v).redirects die bank page then s else (addRemap s v die bank page 2).1) s

/-- Waiting remaps whose page the rebuilt tables already redirect are done. -/
def dropRemapped (s : State) : State :=
  { s with integ := { s.integ with actions := s.integ.actions.filter fun a =>
      match a with
      | .remapPage v die bank page =>
        !(s.vault v).redirects die bank page
      | _ => true } }

/-- The amendments that the unit history calls for and the part record lacks are written (R497). -/
def missingAmendments (s : State) : State :=
  (s.integ.history.filter (unsettled s)).foldl (fun s e =>
    match actionOf s (fld e.unit 0 4) (fld e.unit 4 12) e.loc.toNat e.ecode.toNat with
    | some (.amendArray p) => amendArray s p
    | some .withdraw => withdrawPart s
    | _ => s) s

/-- Bytes that the phases of a reset move in a vault (R207, R533): phases 2 to 5 write and read every granule, phase 6 writes the user
ones; phase 1 moves none. -/
def selfTestBytes (cold : Bool) : Nat := if cold then (8 * scrubTotal + scrubUser) * 64 else 0

/-- The device reaches ready (R473, R497, R503, R505): the try count and the trial flag are cleared, a fallback is recorded, VREQ is
valid, and the missing amendments are written. -/
def reachReady (s : State) : State :=
  let sel := selector s.flash
  let s := if sel.trial || sel.tries != 0 then { s with flash := writeSelector s.flash sel.slot false 0 } else s
  let s := if s.plt.fellBack then s.pltRec 0x92 else s
  let s := s.modPlt fun p => { p with stage := .ready, trial := false, fallback := p.fellBack, fellBack := false, bootStart := none }
  let v := vreqOf s.flash.base.vpart s.tns.adder.toNat
  missingAmendments (s.modTns fun t => { t with vreq := BitVec.ofNat 16 v })

/-- An image has been verified (R449, R491, R493, R505): trims and map applied, self-test begun, monitor and device OS started; after a
cold reset the actions that waited take effect; a boot that does not hang reaches ready. -/
def startImage (s : State) (cold slot : Bool) (i : FwImage) : State :=
  let s := s.modPlt fun p =>
    { p with
      stage := .osStart, slot := slot, trial := (selector s.flash).trial, fwver := i.version, pending := false
      net0 := s.flash.net0, net1 := s.flash.net1, windows := bootWindows, romStarted := true, bootStart := some s.cycle }
  let s := (List.range 64).foldl (fun s v => s.modPage (0x40 + v) fun g => g.begin 3 (selfTestBytes cold) s.nowNs) s
  let s := rebuildRemaps s
  let s := if cold then applyActions (dropRemapped s) false else s
  if slotHangs s.plt.finds slot then s else reachReady s

/-- The boot ROM's tries (R503): three failed tries of a slot make the other one active; when neither boots, recovery. `n` bounds them. -/
def bootTries (cold : Bool) : Nat → State → State
  | 0, s => s.modPlt fun p => { p with stage := .recovery }
  | n + 1, s =>
    let sel := selector s.flash
    if 3 ≤ sel.tries.toNat then
      if s.plt.fellBack then s.modPlt fun p => { p with stage := .recovery }
      else bootTries cold n (({ s with flash := writeSelector s.flash (!sel.slot) false 0 }).modPlt fun p => { p with fellBack := true })
    else
      match imageFault (s.flash.image sel.slot) (slotIntact s.plt.finds sel.slot) s.flash.base.fwmin, s.flash.image sel.slot with
      | 0, some i => startImage s cold sel.slot i
      | code, _ =>
        let t := s.pltRec code
        bootTries cold n { t with flash := writeSelector t.flash sel.slot sel.trial (sel.tries.toNat + 1) }

/-- The boot ROM runs (R499 to R505): identity at a cold reset, part record, token, images. Without a valid base record the device enters
recovery. -/
def runBoot (s : State) (cold : Bool) : State :=
  let s := s.modPlt fun p => { p with romStarted := true, bootStart := some s.cycle }
  let s := readRecord s
  let noid := if cold then !s.plt.finds.pufOk else s.plt.noid
  let s := s.modPlt fun p => { p with noid := noid }
  let s := if cold && noid then s.pltRec 0x95 else s
  if !s.flash.base.valid then (s.pltRec 0x93).modPlt fun p => { p with stage := .recovery }
  else bootTries cold 10 (readToken s)

/-! ### Warm and cold reset (R511 to R513) -/

/-- The last value of ADDER in the margin history (R474, R488). -/
def adderOf (f : Flash) : BitVec 8 := match f.margins.getLast? with | some e => e.adder | none => 0

/-- An update that a reset meets is abandoned (R513): an image slot is marked invalid, the selector is unchanged. -/
def abandonUpdate (s : State) : State :=
  match s.plt.update with
  | none => s
  | some u =>
    let s := (s.modPlt fun p => { p with update := none, fwuResult := if p.fwuResult = 3 then 2 else p.fwuResult }).modPage 1 Page.fail
    match u.data with
    | .image _ => { s with flash := s.flash.setImage (!s.plt.slot) none }
    | .record _ => s

/-- The entries of the unit history that wait go to the flash while it can be written (R444, R447). -/
def flushHistory (s : State) : State :=
  if s.integ.failingSince.isSome then s
  else s.integ.histPending.foldl State.addHistory { s with integ := { s.integ with histPending := [] } }

/-- What every reset keeps of the integrity state: the flash's unit history, what it and the part record hold, and the spare rows in use. -/
def Integrity.persist (i : Integrity) : Integrity :=
  { history := i.history, perm := i.perm, unremap := i.unremap, svc := decide (i.unremap ≠ 0), withdrawn := i.withdrawn
    actions := i.actions, spareRows := i.spareRows }

/-- Pages after a warm or cold reset: a disabled unit stays disabled (R449). -/
def keptPages (s : State) : SMap Page :=
  s.pages.filterMap fun x => if x.2.disabled then some (x.1, { disabled := true }) else none

/-- Vaults after a warm or cold reset: a disabled slice stays disabled (R449). -/
def keptVaults (s : State) : SMap Vault :=
  s.vaults.filterMap fun x => if x.2.sliceOff then some (x.1, { sliceOff := true }) else none

/-- Ports after a warm or cold reset: dropped lane groups stay dropped (R449). -/
def keptPorts (s : State) : SMap Port :=
  s.ports.filterMap fun x => if x.2.dropped = 0 then none else some (x.1, { dropped := x.2.dropped })

/-- The logic state after a reset (R511): what stays is the flash, the pins, the input queue and what the block has sent. -/
def logicReset (s : State) : State :=
  { fresh := s.fresh, pending := s.pending, flash := s.flash, pins := s.pins, integ := s.integ.persist, pages := keptPages s
    vaults := keptVaults s, ports := keptPorts s, nextSid := s.nextSid, fabOut := s.fabOut, hostOut := s.hostOut
    mgmtOut := s.mgmtOut, amap := s.amap, grade := s.grade, plt := { cpus := s.plt.cpus }
    tns := { adder := adderOf s.flash } }

/-- A list by address below the end of the DRAM. -/
def dramPart {α : Type} (m : SMap α) (unit : Nat) : SMap α := m.filter fun x => decide (x.1 < Config.dramEnd / unit)

/-- What a warm reset keeps of a vault beyond that: the counts since the last cold reset, PASSES and HWM (R217, R308), and which spares
fail. -/
def warmVaults (s : State) : SMap Vault :=
  s.vaults.filterMap fun x =>
    let u : Vault := { passes := x.2.passes, hwm := x.2.hwm, sliceOff := x.2.sliceOff, badSpares := x.2.badSpares }
    if u = {} then none else some (x.1, u)

/-- The warm reset itself (R303, R474, R505, R511): granted work completes, actions apply, the DRAM, device time and identity stay, and with
the DRAM what the ledger banks hold. -/
def warmResetNow (f : BootFinds) (s : State) : State :=
  let s := if s.stopped then clearStop s else s
  let s := abandonUpdate (applyActions (finishGranted s) false)
  let s := flushHistory ((List.range s.errRing.length).foldl (fun s _ => deliver s) s)
  let t := logicReset s
  let t := { t with
    cycle := s.cycle, ptime0 := s.ptime0, rseq := s.rseq, mem := dramPart s.mem 1, marks := dramPart s.marks 64, errs := s.errs
    metaErrs := s.metaErrs, mirror := { dirty := s.mirror.dirty }, vaults := warmVaults s
    banks := s.banks.map fun b => (b.1, b.2.toJobReset)
    integ := { t.integ with windows := s.integ.windows }
    plt := { t.plt with noid := s.plt.noid, finds := { f with pufOk := true }, fellBack := s.plt.fellBack } }
  runBoot t false

/-- Whether THERMTRIP_N is released when RST_N is low (R549): no trip, or the hottest logic reading lies below the trip point of 115 °C. -/
def tripReleased (s : State) : Bool := s.pins.thermtripN || decide (s.tns.tjmax.toNat < 920)

/-- The device held in the cold reset domain (R511, R512, R513, R553): every state but the flash; the TAP keeps BYPASS or IDCODE. -/
def holdReset (s : State) : State :=
  let s := flushHistory (abandonUpdate s)
  let t := logicReset s
  { t with
    ptime0 := s.ptime
    nextSid := 1
    tns := { t.tns with tjmax := s.tns.tjmax }
    pins := { s.pins with
      thermtripN := tripReleased s, tap := if s.pins.tap = .idcode then .idcode else .bypass, drive := none } }

/-- The cold reset itself (R207, R505, R511, R549, R550): RST_N rises; POS is sampled; the DRAM reads as zero; the boot ROM waits for
COOL_OK, and nothing runs while a thermal trip stands. -/
def coldResetNow (f : BootFinds) (pos : BitVec 4) (s : State) : State :=
  let t := holdReset s
  let t := { t with
    pins := { t.pins with rstN := true, pos := pos, i2cAddr := BitVec.ofNat 7 (0x40 + pos.toNat) }
    plt := { t.plt with finds := f } }
  if t.pins.coolOk && t.pins.thermtripN then runBoot t true else t

/-- BOOT_ROM_START (R548): COOL_OK counts high, and the boot ROM that waited starts. -/
def bootRomStart (s : State) : State :=
  let s := { s with pins := { s.pins with coolOk := true } }
  if !s.clocked || s.plt.romStarted then s else runBoot s true

/-- BOOT_WATCHDOG (R503): a boot that has not reached ready in 10 s counts a try and restarts with a warm reset. -/
def bootWatchdog (s : State) : State :=
  match s.plt.bootStart with
  | some t =>
    if s.plt.stage = .ready ∨ s.plt.stage = .recovery ∨ s.cycle < t + cyclesOfUs 10000000 then s
    else
      let sel := selector s.flash
      let s := s.pltRec 0x9B
      warmResetNow s.plt.finds { s with flash := writeSelector s.flash sel.slot sel.trial (sel.tries.toNat + 1) }
  | none => s

/-! ### Requests (R481, R482, R512, R516) -/

/-- Whether a job or warm reset is kept waiting (R482): a stop or halt is in force and the conditions of R481 do not hold. -/
def resetWaits (s : State) : Bool := s.stopped && !(s.pins.coolOk && resumable s)
/-- JOB_RESET (R482, R511, R512): a larger request that waits absorbs it. -/
def jobReset (s : State) : State :=
  if resetWaits s then { s with waitingReset := { s.waitingReset with job := !s.waitingReset.warm } }
  else jobResetNow { s with waitingReset := {} }
/-- A warm reset request (R482, R511, R512): it replaces a waiting job reset. -/
def warmReset (f : BootFinds) (s : State) : State :=
  if resetWaits s then { s.modPlt fun p => { p with finds := f } with waitingReset := { s.waitingReset with warm := true, job := false } }
  else warmResetNow f { s with waitingReset := {} }

/-- RESUME (R481, R482): the conditions hold and COOL_OK has been high for 1 s. A waiting reset takes effect; else a stop that has lasted
60 s at most resumes. -/
def resume (s : State) : State :=
  if !s.stopped || !resumable s then s
  else if s.waitingReset.warm then warmResetNow s.plt.finds { s with waitingReset := {} }
  else if s.waitingReset.job then jobResetNow { s with waitingReset := {} }
  else if s.tns.halt || decide (s.tns.stopAt + cyclesOfUs 60000000 < s.cycle) then s
  else resumeNow s

/-- PLT_RST.CORES (R511, R516). -/
def pltRstCores (a : Agent) (cores : BitVec 32) (s : State) : State :=
  if mayWrite s a 1 then (List.range 32).foldl (fun s c => if cores.getLsbD c then coreReset c s else s) s else s
/-- PLT_RST.WARM (R516): the flash reads back as the last boot found it. -/
def pltRstWarm (a : Agent) (s : State) : State := if mayWrite s a 1 then warmReset s.plt.finds s else s
/-- PLT_RST.JOB (R516). -/
def pltRstJob (a : Agent) (s : State) : State := if mayWrite s a 1 then jobReset s else s

/-! ### Firmware update (R498, R506, R507, R513, R517) -/

/-- An update begins, unless one is in progress (R506, R533). -/
def beginUpdate (s : State) (u : UpdateData) (len : Nat) (sid : Option (BitVec 32)) : State :=
  if s.plt.update.isSome then s.pltRec 0x96
  else (s.modPlt fun p => { p with update := some ⟨u, len, sid⟩ }).modPage 1 fun g => g.begin 6 (2 * len) s.nowNs

/-- The buffer of a session. -/
def Session.buffer (x : Session) (b : Nat) : Option Buffer := mget none x.bufs b

/-- The check of a session's buffer range (R405): 0, or the code of a buffer or length fault. -/
def bufferFault (s : State) (sid : BitVec 32) (buf kind off len : Nat) : Nat :=
  match (s.session sid).buffer buf with
  | some b => if b.kind ≠ kind then 0x77 else if b.size < off + len then 0x76 else 0
  | none => 0x77

/-- PLT_FWU_CTRL.START (R506, R517): the fault code of the write, and the state. The fields of the register take their new values. -/
def fwuStart (a : Agent) (val : Word) (u : UpdateData) (s : State) : Nat × State :=
  if !mayWrite s a 1 then (0x72, s)
  else
    let s := s.modPlt fun p =>
      { p with fwuBuf := val.extractLsb' 56 8, fwuTarget := val.extractLsb' 48 8, fwuLen := val.extractLsb' 16 32 }
    let refuse := fun (s : State) => s.modPlt fun p => { p with fwuResult := 2 }
    let len := fld val 16 32
    let target := match u with | .image _ => 1 | .record _ => 2
    match a with
    | .session sid =>
      let f := bufferFault s sid (fld val 56 8) 3 s.plt.fwuSrc.toNat len
      if f ≠ 0 then (f, refuse s)
      else if fld val 48 8 ≠ target then (0x02, refuse s)
      else if s.plt.update.isSome then (0, s.pltRec 0x96)
      else (0, (beginUpdate s u len (some sid)).modPlt fun p => { p with fwuResult := 3 })
    | _ => (0x77, refuse s)

/-- PLT_FWU_CTRL.ABORT (R513, R517). -/
def fwuAbort (a : Agent) (s : State) : State := if mayWrite s a 1 then abandonUpdate s else s

/-- The update completes (R498, R507): what was written is read back and checked; RESULT, record and activation. -/
def updateComplete (s : State) : State :=
  match s.plt.update with
  | none => s
  | some u =>
    let byHost := u.sid.isSome
    let s := (s.modPlt fun p => { p with update := none }).modPage 1 Page.finish
    let done := fun (s : State) (ok : Bool) =>
      let s := s.pltRec (if ok then 0x97 else 0x96)
      let s := s.modPlt fun p =>
        { p with pending := p.pending || ok, fwuResult := if byHost then (if ok then 1 else 2) else p.fwuResult }
      if byHost then s else { s with mgmtOut := s.mgmtOut ++ [.updateResult ok] }
    match u.data with
    | .image i =>
      let slot := !s.plt.slot
      let ok := imageFault (some i) true s.flash.base.fwmin == 0
      let f := s.flash.setImage slot (some i)
      done { s with flash := if ok then writeSelector f slot true 0 else f } ok
    | .record r =>
      let b := s.flash.base
      let ok := r.valid && r.serial == b.serial && decide (b.fwmin.toNat ≤ r.fwmin.toNat)
      done (if ok then { s with flash := { s.flash with nextBase := some r } } else s) ok

/-! ### Attestation (R508, R509, R518) -/

/-- The base record as it stands in the flash (R494). -/
def baseImage (b : BaseRecord) : List Byte :=
  let parts : List (Nat × List Byte) :=
    [(0, toBytes 4 3), (8, toBytes 8 b.serial.toNat), (16, [b.grade]), (20, toBytes 4 b.fwmin.toNat), (24, b.amap),
     (152, toBytes 2 b.vpart), (154, toBytes 2 b.slack), (160, toBytes 8 b.ptcut)]
  Config.baseRecord (parts.foldl (fun l x => putBytes l x.1 x.2) (List.replicate 168 0))

/-- Amendment number `n` as it stands in its slot of 4 KiB (R496), after an amendment or base record of digest `prev`. -/
def Amendment.image (a : Amendment) (n : Nat) (prev : BitVec 384) : List Byte :=
  let parts : List (Nat × List Byte) :=
    [(0, toBytes 4 n), (4, [a.kind]), (5, [a.grade]), (8, a.amap), (136, toBytes 48 prev.toNat)]
  let body := parts.foldl (fun l x => putBytes l x.1 x.2) (List.replicate 256 0)
  let d := Config.sha384 body
  putBytes (putBytes (body ++ List.replicate 3840 0) 256 (toBytes 64 (Config.signEd d).toNat)) 320 ((Config.signMl d).take 3309)

/-- The base record and every amendment in force, each with its sequence number and the digest of the one before (R496, R508). -/
def recordImages (f : Flash) : List (List Byte) :=
  f.amends.zipIdx.foldl (fun l x => l ++ [x.1.image (x.2 + 1) (Config.sha384 (l.getLastD []))]) [baseImage f.base]

/-- The flags of a report (R508). -/
def reportFlags (s : State) : Nat :=
  let bit := fun (b : Bool) (n : Nat) => if b then 2 ^ n else 0
  bit s.integ.lab 0 + bit (s.job.any (·.det)) 1 + bit s.integ.withdrawn 2 + bit s.integ.svc 3 + bit (s.plt.stage == .recovery) 4 +
    bit (s.grade == 0x02) 5

/-- Bytes 0 to 383 of a report, which the signatures cover (R508). -/
def reportHead (s : State) (nonce : List Byte) : List Byte :=
  let digest := fun (d : BitVec 384) => toBytes 48 d.toNat
  let parts : List (Nat × List Byte) :=
    [(0, [1]), (8, toBytes 8 s.flash.base.serial.toNat), (16, nonce), (48, toBytes 8 s.ptime), (56, toBytes 8 (reportFlags s)),
     (64, digest (Config.measurement 0 [])), (112, digest (Config.measurement 1 (toBytes 4 s.plt.fwver.toNat))),
     (160, toBytes 4 s.plt.fwver.toNat), (164, toBytes 4 s.flash.base.fwmin.toNat), (168, digest (Config.sha384 (recordImages s.flash).flatten)),
     (216, toBytes 4 s.flash.amends.length), (224, match s.job with | some j => digest j.digest | none => List.replicate 48 0),
     (272, digest (Config.measurement 5 (s.flash.roots.flatMap digest)))]
  parts.foldl (fun l x => putBytes l x.1 x.2) (List.replicate 384 0)

/-- An attestation report (R508): 4,096 bytes. -/
def report (s : State) (nonce : List Byte) : List Byte :=
  let head := reportHead s nonce
  let d := Config.sha384 head
  putBytes (putBytes (head ++ List.replicate 3712 0) 384 (toBytes 64 (Config.signEd d).toNat)) 448 ((Config.signMl d).take 3309)

/-- ATTESTATION_REQUEST through management (R509). -/
def attestationRequest (nonce : BitVec 256) (s : State) : State :=
  { s with mgmtOut := s.mgmtOut ++ [if s.plt.noid then .refused else .attestation (report s (toBytes 32 nonce.toNat))] }

/-- The nonce of PLT_ATT_NONCE0 to 3. -/
def attNonce (p : Platform) : List Byte := [p.nonce0, p.nonce1, p.nonce2, p.nonce3].flatMap fun w => toBytes 8 w.toNat

/-- PLT_ATT_CTRL.START (R405, R509, R518): the fault code of the write, and the state. -/
def attStart (a : Agent) (val : Word) (s : State) : Nat × State :=
  if !mayWrite s a 1 then (0x72, s)
  else
    let off := fld val 8 48
    let s := s.modPlt fun p => { p with attBuf := val.extractLsb' 56 8, attOff := val.extractLsb' 8 48, attResult := 2 }
    match a with
    | .session sid =>
      let f := bufferFault s sid (fld val 56 8) 2 off 4096
      if f ≠ 0 then (f, s)
      else if off % 64 ≠ 0 then (0x02, s)
      else if s.plt.noid then (0, s)
      else
        match (s.session sid).buffer (fld val 56 8) with
        | some b => if groupTableHit s (b.addr + off) 4096 then (0x07, s) else (0, (store s (b.addr + off) (clean (report s (attNonce s.plt)))).modPlt fun p => { p with attResult := 1 })
        | none => (0, s)
    | _ => (0x77, s)

/-! ### The commands -/

/-- COLD_RESET (R505, R511): RST_N rises. -/
def execColdReset (f : BootFinds) (pos : BitVec 4) (s : State) : Result :=
  .next (if s.pins.powered && s.pins.coreclk then coldResetNow f pos s else s)
/-- CORECLK_RETURN (R546): the clock that was missing returns, and the device performs a cold reset. -/
def execCoreclkReturn (f : BootFinds) (pos : BitVec 4) (s : State) : Result :=
  .next (if s.pins.coreclk then s
    else
      let t := { s with pins := { s.pins with coreclk := true } }
      if t.pins.powered && t.pins.rstN then coldResetNow f pos t else t)
/-- BOOT_ROM_START (R548). -/
def execBootRomStart (s : State) : Result := .next (bootRomStart s)
/-- BOOT_WATCHDOG (R503). -/
def execBootWatchdog (s : State) : Result := .next (if s.clocked then bootWatchdog s else s)
/-- WARM_RESET (R511). -/
def execWarmReset (f : BootFinds) (s : State) : Result := .next (if s.clocked then warmReset f s else s)
/-- JOB_RESET (R511). -/
def execJobReset (s : State) : Result := .next (if s.live then jobReset s else s)
/-- CORE_RESET (R511). -/
def execCoreReset (c : CoreId) (s : State) : Result := .next (if s.live then coreReset c.val s else s)
/-- PLT_RST_CORES (R516). -/
def execPltRstCores (a : Agent) (cores : BitVec 32) (s : State) : Result := .next (if s.live then pltRstCores a cores s else s)
/-- PLT_RST_WARM (R516). -/
def execPltRstWarm (a : Agent) (s : State) : Result := .next (if s.clocked then pltRstWarm a s else s)
/-- PLT_RST_JOB (R516). -/
def execPltRstJob (a : Agent) (s : State) : Result := .next (if s.live then pltRstJob a s else s)
/-- PLDM_FIRMWARE_UPDATE (R506): management only; recovery takes it too (R504). -/
def execPldmFirmwareUpdate (u : UpdateData) (len : Nat) (s : State) : Result :=
  .next (if s.clocked then beginUpdate s u len none else s)
/-- FWU_START (R517). -/
def execFwuStart (a : Agent) (val : Word) (u : UpdateData) (s : State) : Result := .next (if s.live then (fwuStart a val u s).2 else s)
/-- FWU_ABORT (R517). -/
def execFwuAbort (a : Agent) (s : State) : Result := .next (if s.clocked then fwuAbort a s else s)
/-- FIRMWARE_UPDATE_COMPLETE (R507). -/
def execFirmwareUpdateComplete (s : State) : Result := .next (if s.clocked then updateComplete s else s)
/-- ATTESTATION_REQUEST (R509). -/
def execAttestationRequest (nonce : BitVec 256) (s : State) : Result := .next (if s.clocked then attestationRequest nonce s else s)
/-- ATT_START (R518). -/
def execAttStart (a : Agent) (val : Word) (s : State) : Result := .next (if s.live then (attStart a val s).2 else s)
/-- NETWORK_CONFIG_WRITE (R493): it takes effect at the next warm or cold reset. -/
def execNetworkConfigWrite (p : HostPortId) (n : NetConfig) (s : State) : Result :=
  .next (if s.clocked then
    { s with flash := if p = 0 then { s.flash with net0 := some n } else { s.flash with net1 := some n } } else s)
/-- OPERATOR_ROOT_WRITE (R492, R493): up to eight roots. -/
def execOperatorRootWrite (roots : List (BitVec 384)) (s : State) : Result :=
  .next (if s.clocked && decide (roots.length ≤ 8) then { s with flash := { s.flash with roots := roots } } else s)
/-- TOKEN_WRITE (R510): management writes or erases the token. -/
def execTokenWrite (t : Option Token) (s : State) : Result :=
  .next (if s.clocked then { s with flash := { s.flash with token := t } } else s)

end Sys2Proof.Machine
end

