-- ==== Sys2Proof/Machine/Registers.lean ====
section
/-!
DEFINITION. The register pages (chapter 16): every register's read and write, the header of a page, snapshots, and the accesses of the
platform processors (R490, R491, R519 to R537).
-/

namespace Sys2Proof.Machine

/-! ### Words from fields -/

/-- A word from fields, each a value and its lowest bit. -/
def word (l : List (Nat × Nat)) : Word := BitVec.ofNat 64 ((l.map fun x => x.1 * 2 ^ x.2).sum)
/-- One bit of a word. -/
def bitAt (b : Bool) (n : Nat) : Nat × Nat := (if b then 1 else 0, n)
/-- A field of a value in a word. -/
def at_ {w : Nat} (x : BitVec w) (n : Nat) : Nat × Nat := (x.toNat, n)

/-! ### Kinds of page (R525, R527, R534) -/

/-- TYPE of a present page. -/
def pageType (n : Nat) : Nat :=
  if n < 5 then n + 1 else if n < 0x10 then 6 else if n < 0x18 then 7 else if n = 0x18 then 8 else if n < 0x20 then 9
  else if n < 0x40 then 0xA else 0xB
/-- INST of a present page. -/
def pageInst (n : Nat) : Nat := if n < 8 then 0 else if n = 0x18 then 0 else (unitOfPage n).2
/-- NCNT of a present page. -/
def pageCounters (n : Nat) : Nat :=
  match pageType n with | 6 | 8 | 9 | 0xA => 1 | 7 => 2 | 0xB => 5 | _ => 0
/-- Whether a page reports progress (R533). -/
def pageProgress (n : Nat) : Bool := n == 0 || n == 1 || n == 4 || n == 8 || decide (0x40 ≤ n)

/-- BCAP (R527). -/
def pageCaps (s : State) (n : Nat) : Nat :=
  match pageType n with
  | 2 => s.plt.cpus.toNat
  | 0xA => ((s.enabledArrays (n - 0x20)).map (2 ^ ·)).sum
  | 0xB => if (s.vault (n - 0x40)).sliceOff then 0 else 1
  | _ => 0

/-- The agent's number in the snapshots (R531). -/
def agentKey : Agent → Nat
  | .platformM => 1
  | .platformS => 2
  | .management => 0
  | .session sid => 3 + sid.toNat
/-- The key of an agent's snapshot of a page. -/
def snapKey (a : Agent) (page : Nat) : Nat := agentKey a * 4096 + page

/-! ### Status of the blocks -/

/-- Whether a Teasel unit holds ingest or lookup work (R267). -/
def teaselBusy (s : State) (u : Nat) : Bool :=
  (s.lookups.any fun l => l.unit == u && !l.closed) ||
    s.sessions.any fun x => x.2.rings.any fun r => r.2.any fun g => !g.image.isEmpty
/-- STAT.BUSY of a page (R528): as the block's status register gives it; a core while it issues, holds or runs a window. -/
def pageBusy (s : State) (n : Nat) : Bool :=
  match pageType n with
  | 5 => !s.mirror.digests.isEmpty
  | 6 => teaselBusy s (n - 8)
  | 0xA => (s.core (n - 0x20)).st != .idle && (s.core (n - 0x20)).st != .halted
  | _ => false

/-- PCT of R532: floor of 10,000 POS / TOT, 10,000 only when DONE is 1. -/
def progPct (g : Page) : Nat :=
  if g.done then 10000 else if g.tot = 0 then 0 else min 9999 (10000 * g.pos / g.tot)
/-- The progress of a self-test in progress (R207): phase 1, of 5 ms, moves no bytes; the phases after it move 256 a nanosecond (DESIGN
CHOICE, log 103: they run at full bandwidth, R28). -/
def selfTestPos (g : Page) (now : Nat) : Nat := min g.tot (256 * (now - (g.t0.toNat + 5000000)))
/-- A page as a read of its progress finds it. -/
def Page.asOf (g : Page) (now : Nat) : Page := if g.active ∧ g.op = 3 then { g with pos := selfTestPos g now } else g
/-- PROG (R532). -/
def progWord (g : Page) : Word := word [at_ g.op 24, bitAt g.failed 18, bitAt g.done 17, bitAt g.active 16, (progPct g, 0)]
/-- STAT (R528). -/
def statWord (s : State) (n : Nat) : Word :=
  let g := s.page n
  word [bitAt g.active 3, bitAt (g.disabled || s.integ.withdrawn) 2, bitAt (g.errStat != 0) 1, bitAt (pageBusy s n) 0]

/-- SEQ_STAT.STATE (R138). -/
def seqCode : SeqState → Nat
  | .idle => 0 | .running => 1 | .holding => 2 | .window => 3 | .halted => 4
/-- SEQ_STAT (R138). -/
def seqStat (s : State) (c : Nat) : Word :=
  let k := s.core c
  let h := s.holds c
  word [at_ k.pc 32, bitAt h.fetch 14, bitAt h.sync 13, bitAt h.desc 12, bitAt h.move 11, bitAt h.vec 10, bitAt h.mat 9,
    (seqCode k.st, 0)]
/-- FAB_STAT.STATE (R353). -/
def linkCode : LinkState → Nat
  | .down => 0 | .train => 1 | .hello => 2 | .auth => 3 | .up => 4 | .foreign => 5 | .held => 6 | .quarantine => 7
/-- FAB_STAT (R353). -/
def fabStat (p : Port) : Word :=
  let up := p.st == .up || p.st == .foreign
  word [at_ p.peer 44, at_ p.lanebad 16, (linkCode p.st, 12), (if up then p.gen.toNat else 0, 10), at_ p.width 8]
/-- PLT_STAT.STAGE (R515). -/
def stageCode : Stage → Nat
  | .rom => 0 | .identity => 1 | .verify => 2 | .dramInit => 3 | .osStart => 4 | .ready => 5 | .recovery => 6
/-- TNS_STAT.STOPSRC (R487). -/
def stopCode : StopSrc → Nat
  | .none => 0 | .coolant => 1 | .logic => 2 | .dram => 3
/-- NUM_CNT (R58). -/
def numWord (n : NumCnt) : Word := word [at_ n.nonfin 32, at_ n.sat 0]
/-- A remap word (R203). -/
def remapWord (w : RemapWord) : Word := word [(1, 63), at_ w.source 60, at_ w.spare 21, at_ w.page 8, at_ w.bank 3, at_ w.die 0]
/-- VLT_STAT (R215). -/
def vltStat (u : Vault) : Word :=
  word [bitAt u.scrubAct 25, bitAt u.stFail 24, bitAt u.stDone 23, bitAt (u.remapFull || remapFull u) 22, (u.remap.length, 17),
    bitAt u.otstop 16, at_ u.rmode 14, at_ u.hotdie 11, at_ u.temp 0]
/-- VLT_INJ (R218). -/
def vltInj (i : Inject) : Word :=
  word [bitAt i.arm 63, at_ i.mode 60, at_ i.sym0 54, at_ i.sym1 48, at_ i.sym2 42, at_ i.granule 6]
/-- Sessions of a host port in a state (R431). -/
def sessionsIn (s : State) (p : Nat) (st : SessState) : Nat := (s.sessions.filter fun x => x.2.port == p && x.2.st == st).length
/-- INT_STAT (R460). -/
def intStat (s : State) : Word :=
  let i := s.integ
  word [at_ i.perm 48, at_ i.unremap 32, (min 1000 (i.history.length * 32 * 1000 / 2 ^ 26), 12), bitAt i.uhfail 4, bitAt i.svc 3,
    bitAt (!i.actions.isEmpty) 2, bitAt i.withdrawn 1, bitAt i.lab 0]
/-- JOB_DET (R386). -/
def jobDet (s : State) : Word :=
  let bit := fun (f : Job → Bool) (n : Nat) => bitAt (s.job.any f) n
  word [at_ s.late 32, bit (fun j => !j.det && j.prog.slots.any fun x => x.bcap.isSome) 2, bit (fun j => j.prog.bitIdentical) 1,
    bit (fun j => j.det) 0]

/-! ### Block registers (R535) -/

/-- The value of a block register at an offset from 0x00C0 onward; zero where the page names none (R521). -/
def blockReg (s : State) (n off : Nat) : Word :=
  let plt := s.plt
  let t := s.tns
  match pageType n with
  | 1 =>
    if off = 0x100 then intStat s
    else if off = 0x108 then jobDet s
    else if off = 0x110 then word [at_ s.grade 32, (fld s.flash.base.serial 0 32, 0)]
    else if off = 0x118 then BitVec.ofNat 64 s.nowNs
    else if off = 0x120 then BitVec.ofNat 64 s.ptime
    else if 0x180 ≤ off ∧ off ≤ 0x1F8 then BitVec.ofNat 64 (fromBytes ((s.amap.drop (off - 0x180)).take 8))
    else 0
  | 2 =>
    match off with
    | 0x100 => word [at_ plt.fwver 32, (stageCode plt.stage, 28), bitAt plt.slot 27, bitAt plt.trial 26, bitAt plt.fallback 25,
        bitAt plt.noid 24, bitAt plt.pending 23]
    | 0x110 => plt.fwuSrc.zeroExtend 64
    | 0x118 => word [at_ plt.fwuBuf 56, at_ plt.fwuTarget 48, at_ plt.fwuLen 16, at_ plt.fwuResult 2]
    | 0x120 => plt.nonce0
    | 0x128 => plt.nonce1
    | 0x130 => plt.nonce2
    | 0x138 => plt.nonce3
    | 0x140 => word [at_ plt.attBuf 56, at_ plt.attOff 8, at_ plt.attResult 2]
    | _ => 0
  | 3 =>
    match off with
    | 0x100 => word [at_ t.alertCap 32, at_ t.rtCap 16, at_ t.mgCap 0]
    | 0x108 => word [at_ t.droop 48, at_ t.tjmax 37, (stopCode t.stopSrc, 29), bitAt t.halt 28, bitAt t.stop 27,
        bitAt (!s.pins.capAlertN) 26, bitAt t.tlim 25, bitAt (capping s) 24, at_ t.pwr 12, at_ t.ecap 0]
    | 0x110 => word [at_ t.adder 32, at_ t.vapplied 16, at_ t.vreq 0]
    | _ => 0
  | 4 =>
    if off = 0x100 then word [at_ s.integ.windows 32, at_ s.integ.mismatch 24, at_ s.integ.forced 16, at_ s.integ.overdue 8] else 0
  | 5 =>
    let m := s.mirror
    match off with
    | 0x100 => word [at_ m.cstep 32, at_ m.state 28, (match m.ckpt with | some k => k.pages.length - k.sent | none => 0, 0)]
    | 0x108 => word [at_ m.astep 32, at_ m.diverge 16, bitAt m.mismatch 1, bitAt (!m.digests.isEmpty) 0]
    | _ => 0
  | 6 =>
    let u := s.teasel (n - 8)
    if off = 0xC0 then word [at_ u.clip 32, at_ u.nfval 0]
    else if off = 0x100 then
      word [((s.lookups.filter fun l => l.unit == n - 8 && !l.closed).length, 48), at_ u.rejects 32, at_ u.descFlt 16,
        bitAt (tieredAbsent s) 1, bitAt (teaselBusy s (n - 8)) 0]
    else if off = 0x108 ∧ n = 8 then s.tierTmo.zeroExtend 64
    else 0
  | 7 | 8 =>
    let p := s.port (n - 0x10)
    if off = 0xC0 then word [at_ p.crc 48, at_ p.replayCnt 32, at_ p.discard 16, at_ p.retrain 8, at_ p.late 0]
    else if off = 0xC8 ∧ n < 0x18 then numWord p.numCnt
    else if off = 0x100 then
      word [at_ p.upTmo 32, at_ p.credTmo 16, at_ p.maxgen 6, at_ p.maxw 4, bitAt p.migr 3, bitAt p.en 0]
    else if off = 0x108 then fabStat p
    else if n = 0x10 ∧ 0x1000 ≤ off ∧ off < 0x1400 then
      let w := s.window ((off - 0x1000) / 16)
      if off % 16 = 0 then w.1 else w.2
    else 0
  | 9 =>
    let p := s.hport (n - 0x1A)
    match off with
    | 0xC0 => word [at_ p.dbflt 48, at_ p.notrdy 32, at_ p.reread 16, at_ p.indoubt 8, at_ p.expired 0]
    | 0x100 => word [at_ p.grace 32, at_ p.vmask 16, at_ p.mode 10, bitAt p.pfc 9, bitAt p.en 0]
    | 0x108 => word [(sessionsIn s (n - 0x1A) .attached, 40), (sessionsIn s (n - 0x1A) .detached, 32), at_ p.link 12, at_ p.rmode 10]
    | _ => 0
  | 0xA =>
    let k := s.core (n - 0x20)
    if off = 0xC0 then numWord k.numCnt
    else if off = 0x100 then word [at_ k.waitTmo 16, bitAt k.vrefuse 4, bitAt k.brkEn 3]
    else if off = 0x108 then seqStat s (n - 0x20)
    else if off = 0x110 then word [at_ k.exc.bundle 32, at_ k.exc.slot 16, at_ k.exc.detail 8, at_ k.exc.cause 0]
    else if off = 0x118 then k.fill.zeroExtend 64
    else if 0x200 ≤ off ∧ off < 0x400 then (k.token ((off - 0x200) / 8)).zeroExtend 64
    else 0
  | _ =>
    let u := s.vault (n - 0x40)
    if off = 0xC0 then word [at_ u.retry 48, at_ u.ue 32, at_ u.ce 0]
    else if off = 0xC8 then word [at_ u.hit 32, at_ u.miss 0]
    else if off = 0xD0 then word [at_ u.pfDrop 32, at_ u.pinRej 16, ((u.dir.filter fun e => e.2.valid && e.2.pin).length, 0)]
    else if off = 0xD8 then word [at_ u.applied 32, at_ u.nfrow 16, at_ u.clip 0]
    else if off = 0xE0 then numWord u.numCnt
    else if off = 0x100 then vltStat u
    else if off = 0x108 then word [at_ u.passes 32, at_ u.interval 8, bitAt u.scrubEn 0]
    else if off = 0x110 then vltInj u.inj
    else if off = 0x118 then word [at_ u.hwm 32, at_ u.ledUsed 0]
    else if 0x180 ≤ off ∧ off < 0x200 then (match u.remap[(off - 0x180) / 8]? with | some w => remapWord w | none => 0)
    else 0

/-! ### Reads (R16, R521, R531, R532) -/

/-- The RC fields of a register return to zero after a read (R16). -/
def clearOnRead (s : State) (n off : Nat) : State :=
  match pageType n, off with
  | 1, 0x108 => { s with late := 0 }
  | 3, 0x108 => s.modTns fun t => { t with droop := 0 }
  | 4, 0x100 => { s with integ := { s.integ with mismatch := 0, forced := 0, overdue := 0 } }
  | 5, 0x108 => { s with mirror := { s.mirror with diverge := 0 } }
  | 6, 0xC0 => s.modTeasel (n - 8) fun u => { u with clip := 0, nfval := 0 }
  | 6, 0x100 => s.modTeasel (n - 8) fun u => { u with rejects := 0, descFlt := 0 }
  | 7, 0xC0 | 8, 0xC0 => s.modPort (n - 0x10) fun p => { p with crc := 0, replayCnt := 0, discard := 0, retrain := 0, late := 0 }
  | 9, 0xC0 => s.modHport (n - 0x1A) fun p => { p with dbflt := 0, notrdy := 0, reread := 0, indoubt := 0, expired := 0 }
  | 0xB, 0xC0 => s.modVault (n - 0x40) fun u => { u with retry := 0, ue := 0, ce := 0 }
  | 0xB, 0xC8 => s.modVault (n - 0x40) fun u => { u with hit := 0, miss := 0 }
  | 0xB, 0xD0 => s.modVault (n - 0x40) fun u => { u with pfDrop := 0, pinRej := 0 }
  | 0xB, 0xD8 => s.modVault (n - 0x40) fun u => { u with applied := 0, nfrow := 0, clip := 0 }
  | _, _ => s

/-- The value of a register for an agent (R521, R524 to R532): ERR_REC words 1 to 7 and the progress counts come from its snapshot. -/
def regValue (s : State) (a : Agent) (n off : Nat) : Word :=
  let g := s.page n
  let snap := mget {} s.snaps (snapKey a n)
  if off = 0 then word [(pageInst n, 16), (pageType n, 0)]
  else if off = 0x08 then word [(3, 16)]
  else if off = 0x10 then word [(pageCaps s n, 16), (1, 9), bitAt (pageProgress n) 8, (pageCounters n, 0)]
  else if off = 0x18 then 0
  else if off = 0x20 then statWord s n
  else if off = 0x28 then g.errStat.zeroExtend 64
  else if off = 0x30 then g.errEn.zeroExtend 64
  else if off = 0x38 then g.forceCode.zeroExtend 64
  else if off = 0x40 then nth g.errRec 0 0
  else if off < 0x80 then nth snap.errRec ((off - 0x48) / 8) 0
  else if off = 0x80 then progWord (g.asOf s.nowNs)
  else if off = 0x88 then snap.pos
  else if off = 0x90 then snap.tot
  else if off = 0x98 then g.t0
  else blockReg s n off

/-- What a read changes: the snapshot that it latches, the fields that it clears (R16, R531, R532). -/
def afterRead (s : State) (a : Agent) (n off : Nat) : State :=
  let g := s.page n
  let key := snapKey a n
  if off = 0x40 then { s with snaps := mmod {} s.snaps key fun x => { x with errRec := g.errRec.drop 1 } }
  else if off = 0x80 then
    { s with snaps := mmod {} s.snaps key fun x =>
      { x with pos := BitVec.ofNat 64 (g.asOf s.nowNs).pos, tot := BitVec.ofNat 64 g.tot } }
  else clearOnRead s n off

/-- Whether an agent reads register pages (R427, R522). -/
def mayRead (s : State) (a : Agent) : Bool :=
  match a with
  | .session sid => (s.session sid).st == .attached
  | _ => true

/-- A read: the fault code (R520, R521), the value and the state. -/
def regRead (s : State) (a : Agent) (n off : Nat) : Nat × Word × State :=
  if !mayRead s a then (0x72, 0, s)
  else if !pagePresent n || off % 8 != 0 || decide (2 ^ 16 ≤ off) then (0x07, 0, s)
  else (0, regValue s a n off, afterRead s a n off)

/-- A read by an agent that is no session's REG_RD: its value goes to the agent. -/
def agentRead (a : Agent) (n off : Nat) (s : State) : State :=
  match regRead s a n off with
  | (0, v, t) => { t with mgmtOut := t.mgmtOut ++ [.regValue a n off v] }
  | _ => s

/-! ### Writes (R16, R17, R521 to R523) -/

/-- Whether an agent may write a register (R427, R522). -/
def mayWriteReg (s : State) (a : Agent) (n off : Nat) : Bool :=
  mayWrite s a n || (off == 0x28 && match a with
    | .management => true
    | .session sid => (s.session sid).st == .attached && decide (1 ≤ (s.session sid).level)
    | _ => false)

/-- A W1C write of ERR_STAT: a bit that a new event sets in the same cycle ends set (R19, R523, R529). -/
def errStatWrite (n : Nat) (val : Word) (setSame : BitVec 9) (s : State) : State :=
  s.modPage n fun g => { g with errStat := (g.errStat &&& ~~~(val.truncate 9)) ||| (setSame &&& 0x17F) }

/-- The forced record of R530. -/
def forcedRecord (s : State) (n code : Nat) : Rec :=
  { code := BitVec.ofNat 8 code, kind := BitVec.ofNat 3 (kindOf code), uclass := BitVec.ofNat 4 (unitOfPage n).1,
    uinst := BitVec.ofNat 12 (unitOfPage n).2, time := BitVec.ofNat 64 s.nowNs, count := 0 }

/-- A write of ERR_FORCE (R530): an unallocated CODE is ignored; with GO the record enters the page and no other place. -/
def errForceWrite (n : Nat) (val : Word) (s : State) : State :=
  let code := fld val 0 8
  if val.getLsbD 63 then
    if codeAllocated code then s.modPage n fun g => { g with forceCode := BitVec.ofNat 8 code }.enter (forcedRecord s n code) else s
  else s.modPage n fun g => { g with forceCode := BitVec.ofNat 8 code }

/-- CTRL.PCLR (R528). -/
def progClear (n : Nat) (s : State) : State :=
  s.modPage n fun g => if g.active then g else { g with op := 0, failed := false, done := false, pos := 0, tot := 0, t0 := 0 }

/-- A write of SEQ_CTRL (R168, R175, R176). -/
def seqCtrlWrite (c : Nat) (val : Word) (s : State) : State :=
  let s := s.modCore c fun k =>
    { k with waitTmo := val.extractLsb' 16 32, vrefuse := k.vrefuse || val.getLsbD 4, brkEn := val.getLsbD 3 }
  let s := if val.getLsbD 2 then resumeCore c s else s
  if val.getLsbD 1 then startCore c s else s

/-- A write of FAB_CTRL (R352): a CRED_TMO of 0 and a reserved MAXGEN or MAXW leave their fields; EN 0 takes the port DOWN (R313). -/
def fabCtrlWrite (p : Nat) (val : Word) (s : State) : State :=
  let s := s.modPort p fun x =>
    { x with
      upTmo := val.extractLsb' 32 16
      credTmo := if fld val 16 8 = 0 then x.credTmo else val.extractLsb' 16 8
      maxgen := if fld val 6 2 < 2 then x.maxgen else val.extractLsb' 6 2
      maxw := if fld val 4 2 = 3 then x.maxw else val.extractLsb' 4 2
      migr := val.getLsbD 3
      en := val.getLsbD 0 }
  if !val.getLsbD 0 then portDown s p else if val.getLsbD 1 then fabRetrain p s else s

/-- HST_CTRL.RETRAIN (R430): a link that is up trains again. -/
def hostRetrain (p : Nat) (s : State) : State :=
  s.modHport p fun x => if x.link = 2 then { x with link := 1 } else x

/-- A write of HST_CTRL (R430): a reserved MODE leaves the field. -/
def hstCtrlWrite (p : Nat) (val : Word) (s : State) : State :=
  let s := s.modHport p fun x =>
    { x with
      grace := val.extractLsb' 32 16, vmask := val.extractLsb' 16 3
      mode := if fld val 10 2 = 3 then x.mode else val.extractLsb' 10 2
      pfc := val.getLsbD 9, en := val.getLsbD 0 }
  if val.getLsbD 1 then hostRetrain p s else s

/-- A write of TNS_CAP (R464, R486): each agent's own fields, each with its range. -/
def tnsCapWrite (a : Agent) (val : Word) (s : State) : State :=
  if a = .management then alertCapWrite a (val.extractLsb' 32 11) (mgCapWrite a (val.extractLsb' 0 11) s)
  else rtCapWrite a (val.extractLsb' 16 11) s

/-- The payload of an update that a plain register write starts: what the buffer holds no command carries, so its checks are open. -/
def updateFound (s : State) (target : Nat) : UpdateData :=
  let x := Config.freeImage s.fresh
  if target = 2 then .record { s.flash.base with valid := x.2.1 } else .image ⟨x.1, x.2.1, x.2.2⟩

/-- A write of PLT_FWU_CTRL (R517): its fields, then ABORT and START. -/
def fwuCtrlWrite (a : Agent) (val : Word) (s : State) : Nat × State :=
  let s := if val.getLsbD 1 then abandonUpdate s else s
  if val.getLsbD 0 then fwuStart a val (updateFound s (fld val 48 8)) s.draw
  else (0, s.modPlt fun p => { p with fwuBuf := val.extractLsb' 56 8, fwuTarget := val.extractLsb' 48 8, fwuLen := val.extractLsb' 16 32 })

/-- A write of PLT_RST (R512, R516): the largest domain applies. -/
def pltRstWrite (a : Agent) (val : Word) (s : State) : State :=
  if val.getLsbD 2 then pltRstWarm a s
  else if val.getLsbD 1 then pltRstJob a s
  else pltRstCores a (val.extractLsb' 32 32) s

/-- A write of one entry of the window table (R334, R354): reserved bits read as zero (R17). -/
def windowWriteReg (off : Nat) (val : Word) (s : State) : State :=
  let w := (off - 0x1000) / 16
  { s with xwin := mmod (0, 0) s.xwin w fun x =>
      if off % 16 = 0 then (val &&& 0xF000FFFFFFFFF000, x.2) else (x.1, val &&& 0xFFFFFFFFFFFFF000) }

/-- Whether a register is frozen while a job runs (R334, R395, R523). -/
def frozen (s : State) (n off : Nat) : Bool := s.jobRuns && n == 0x10 && decide (0x1000 ≤ off) && decide (off < 0x1400)

/-- The effect of a permitted write to a block register (R535); RO and RC fields and offsets without a register are left. -/
def blockWrite (a : Agent) (n off : Nat) (val : Word) (s : State) : Nat × State :=
  let ok := fun (t : State) => (0, t)
  match pageType n, off with
  | 2, 0x108 => ok (pltRstWrite a val s)
  | 2, 0x110 => ok (s.modPlt fun p => { p with fwuSrc := val.truncate 48 })
  | 2, 0x118 => fwuCtrlWrite a val s
  | 2, 0x120 => ok (s.modPlt fun p => { p with nonce0 := val })
  | 2, 0x128 => ok (s.modPlt fun p => { p with nonce1 := val })
  | 2, 0x130 => ok (s.modPlt fun p => { p with nonce2 := val })
  | 2, 0x138 => ok (s.modPlt fun p => { p with nonce3 := val })
  | 2, 0x140 =>
    if val.getLsbD 0 then attStart a val s
    else ok (s.modPlt fun p => { p with attBuf := val.extractLsb' 56 8, attOff := val.extractLsb' 8 48 })
  | 3, 0x100 => ok (tnsCapWrite a val s)
  | 3, 0x110 => ok (vappliedWrite a (val.extractLsb' 16 16) s)
  | 6, 0x108 => ok (if n = 8 then { s with tierTmo := val.truncate 32 } else s)
  | 7, 0xC8 => ok (s.modPort (n - 0x10) fun p => { p with numCnt := p.numCnt.write s.cycle val })
  | 7, 0x100 | 8, 0x100 => ok (fabCtrlWrite (n - 0x10) val s)
  | 7, _ => ok (if n = 0x10 ∧ 0x1000 ≤ off ∧ off < 0x1400 then windowWriteReg off val s else s)
  | 9, 0x100 => ok (hstCtrlWrite (n - 0x1A) val s)
  | 0xA, 0xC0 => ok (s.modCore (n - 0x20) fun k => { k with numCnt := k.numCnt.write s.cycle val })
  | 0xA, 0x100 => ok (seqCtrlWrite (n - 0x20) val s)
  | 0xB, 0xE0 => ok (s.modVault (n - 0x40) fun u => { u with numCnt := u.numCnt.write s.cycle val })
  | 0xB, 0x108 => ok (s.modVault (n - 0x40) fun u =>
      { u with interval := if fld val 8 8 = 0 then u.interval else val.extractLsb' 8 8, scrubEn := val.getLsbD 0 })
  | 0xB, 0x110 => ok (s.modVault (n - 0x40) fun u => { u with inj := writeInject u.inj val })
  | _, _ => ok s

/-- The fault of a write before it has any effect (R520 to R523): 0x72 for want of permission, 0x07 for an address fault. -/
def writeFault (s : State) (a : Agent) (n off : Nat) : Nat :=
  if !mayWriteReg s a n off then 0x72
  else if !pagePresent n || off % 8 != 0 || decide (2 ^ 16 ≤ off) || frozen s n off then 0x07
  else 0

/-- A write: the fault code and the state (R521). -/
def regWrite (s : State) (a : Agent) (n off : Nat) (val : Word) : Nat × State :=
  let f := writeFault s a n off
  if f ≠ 0 then (f, s)
  else if off = 0x18 then (0, if val.getLsbD 0 then progClear n s else s)
  else if off = 0x28 then (0, errStatWrite n val 0 s)
  else if off = 0x30 then (0, s.modPage n fun g => { g with errEn := val.truncate 7 })
  else if off = 0x38 then (0, errForceWrite n val s)
  else if off < 0xC0 then (0, s)
  else blockWrite a n off val s

/-! ### Accesses of the platform processors (R201, R490, R491, R520) -/

/-- The windows that allow an access (R491): they hold its range and serve its mode; a load reads, a store writes, and a cache-block operation
needs the one or the other. -/
def allowing (s : State) (x : PlatAccess) : List (Nat × Nat × BitVec 6) :=
  let bit := if x.mode = 0 then 3 else if x.mode = 1 then 4 else 5
  s.plt.windows.filter fun (b, n, perm) =>
    decide (b ≤ x.addr) && decide (x.addr + x.len ≤ b + n) && perm.getLsbD bit &&
      (match x.op with
       | .load => perm.getLsbD 0
       | .store => perm.getLsbD 1
       | _ => perm.getLsbD 0 || perm.getLsbD 1)

/-- Whether the window table allows an access (R491). -/
def windowAllows (s : State) (x : PlatAccess) : Bool := !(allowing s x).isEmpty

/-- Whether an access goes through the caches (R490): to DRAM, in a window whose C is set. -/
def cached (s : State) (x : PlatAccess) : Bool := inDram x.addr x.len && (allowing s x).any fun w => w.2.2.getLsbD 2

/-- A trap of a hart (R489, R491), by the published RISC-V privileged specification: to supervisor mode when medeleg delegates the cause
from a lower mode, else to machine mode; cause, pc and address are saved, interrupts are disabled, the pc goes to the handler. -/
def Hart.trap (h : Hart) (cause addr : Nat) : Hart :=
  let csr := fun n => (mget 0 h.csrs n).toNat
  let st := csr 0x300
  let put := fun (m : SMap Word) (x : Nat × Nat) => mset 0 m x.1 (BitVec.ofNat 64 x.2)
  let without := fun (n lo w : Nat) => n - nbits n lo w * 2 ^ lo
  if h.mode ≠ 3 ∧ (csr 0x302).testBit cause then
    let st := without (without (without st 8 1) 5 1) 1 1 + h.mode.toNat % 2 * 2 ^ 8 + nbits st 1 1 * 2 ^ 5
    { h with
      csrs := [(0x141, h.pc.toNat), (0x142, cause), (0x143, addr), (0x300, st)].foldl put h.csrs
      pc := BitVec.ofNat 64 (csr 0x105 / 4 * 4), mode := 1 }
  else
    let st := without (without (without st 11 2) 7 1) 3 1 + h.mode.toNat * 2 ^ 11 + nbits st 3 1 * 2 ^ 7
    { h with
      csrs := [(0x341, h.pc.toNat), (0x342, cause), (0x343, addr), (0x300, st)].foldl put h.csrs
      pc := BitVec.ofNat 64 (csr 0x305 / 4 * 4), mode := 3 }

/-- The core takes an access fault, in the mode of its access: 5 for a load, 7 for a store or a cache-block operation. The load delivers
nothing. -/
def accessFault (s : State) (x : PlatAccess) : State :=
  s.modPlt fun p =>
    { p with
      lastLoad := some none
      harts := mmod {} p.harts x.cpu.val fun h =>
        ({ h with mode := x.mode } : Hart).trap (if x.op = PlatOp.load then 5 else 7) x.addr }
/-- The load delivers its bytes. -/
def loaded (s : State) (bs : List PByte) : State := s.modPlt fun p => { p with lastLoad := some (some bs) }

/-- A load delivers its bytes; poison bites, and the load takes an access fault (R201, R202). `bad` are the marked granules. -/
def platDeliver (s : State) (x : PlatAccess) (bs : List PByte) (bad : List Nat) : State :=
  match bad with
  | [] => loaded s bs
  | g :: _ => accessFault (s.bite 0xB x.cpu.val 0 (64 * g) bad.length) x

/-- A load of memory. -/
def platLoad (s : State) (x : PlatAccess) : State := platDeliver s x (readP s x.addr x.len) (poisonedGranules s x.addr x.len)

/-! ### The caches of the cluster (R489, R490) -/

/-- The lines of the shared cache, 8 MiB, and of a core's own second-level cache, 1 MiB. -/
abbrev sharedLines : Nat := 131072
abbrev coreLines : Nat := 16384

/-- A line of the cache. -/
def State.line (s : State) (g : Nat) : Option CacheLine := mget none s.plt.cache g
/-- A line replaced. -/
def State.setLine (s : State) (g : Nat) (l : Option CacheLine) : State :=
  s.modPlt fun p => { p with cache := mset none p.cache g l }

/-- A changed line goes to the vault, where it takes effect under R186. -/
def writeBack (s : State) (g : Nat) : State :=
  match s.line g with
  | some l => if l.dirty then store (s.setLine g (some { l with dirty := false })) (64 * g) (marked l.psn l.bytes) else s
  | none => s

/-- Room in core k's own cache for one more line: the choice of what leaves it is open. -/
def roomL2 (s : State) (k : Nat) : State :=
  let mine := (s.plt.cache.filter fun e => e.2.any fun l => l.l2.getLsbD k).map (·.1)
  if mine.length < coreLines then s
  else
    let g := nth mine (Config.freeChoice s.fresh % mine.length) 0
    s.draw.setLine g ((s.line g).map fun l => { l with l2 := l.l2 &&& ~~~(BitVec.ofNat 8 (2 ^ k)) })

/-- Room in the shared cache for one more line: the choice of what leaves it is open, and what has changed is written back. -/
def roomShared (s : State) : State :=
  let all := s.plt.cache.map (·.1)
  if all.length < sharedLines then s
  else
    let g := nth all (Config.freeChoice s.fresh % all.length) 0
    (writeBack s.draw g).setLine g none

/-- Core k holds line g: an absent line is filled from the DRAM. -/
def fillLine (k : Nat) (s : State) (g : Nat) : State :=
  let bit := BitVec.ofNat 8 (2 ^ k)
  match s.line g with
  | some l => if l.l2.getLsbD k then s else (roomL2 s k).setLine g (some { l with l2 := l.l2 ||| bit })
  | none =>
    let s := fetchRange (roomShared (roomL2 s k)) (64 * g) 64
    s.setLine g (some ⟨readB s (64 * g) 64, s.mark g, false, bit⟩)

/-- The bytes of an access that lie in a line, with the line's mark. -/
def lineBytes (s : State) (x : PlatAccess) (g : Nat) : List PByte :=
  match s.line g with
  | some l => ((List.range 64).filter fun i => decide (x.addr ≤ 64 * g + i) && decide (64 * g + i < x.addr + x.len)).map fun i =>
      (nth l.bytes i 0, l.psn)
  | none => []

/-- A load through the caches, line by line: the state and the bytes. -/
def cacheLoad (s : State) (x : PlatAccess) : State × List PByte :=
  (granulesOf x.addr x.len).foldl (fun (r : State × List PByte) g =>
    let s := fillLine x.cpu.val r.1 g
    (s, r.2 ++ lineBytes s x g)) (s, [])

/-- A store into a line that the core holds: the line is then no other core's, and differs from the DRAM (R111, R490). -/
def storeLine (x : PlatAccess) (s : State) (g : Nat) : State :=
  match s.line g with
  | none => s
  | some l =>
    let bytes := (List.range 64).map fun i =>
      let a := 64 * g + i
      if x.addr ≤ a ∧ a < x.addr + x.len then nth x.data (a - x.addr) 0 else nth l.bytes i 0
    s.setLine g (some ⟨bytes, markAfter l.psn g x.addr (clean x.data), true, BitVec.ofNat 8 (2 ^ x.cpu.val)⟩)

/-- The granules of poisoned bytes that stand from address a on, each once, ascending. -/
def poisonedOf (a : Nat) (bs : List PByte) : List Nat :=
  sortNats ((bs.zipIdx.filter fun b => b.1.2).map fun b => (a + b.2) / 64)

/-- An access through the caches (R490): it sees the lines that they hold, whatever other blocks have written since. -/
def cacheAccess (s : State) (x : PlatAccess) : State :=
  let gs := granulesOf x.addr x.len
  match x.op with
  | .load => let r := cacheLoad s x; platDeliver r.1 x r.2 (poisonedOf x.addr r.2)
  | .store => gs.foldl (fun s g => storeLine x (fillLine x.cpu.val s g) g) s
  | .clean => gs.foldl writeBack s
  | .inval => gs.foldl (fun s g => s.setLine g none) s
  | .flush => gs.foldl (fun s g => (writeBack s g).setLine g none) s

/-! ### Accumulator entries (R82, R101, R520) -/

/-- The physical array and the entry at an address of the accumulator region. -/
def accPlace (s : State) (a : Nat) : Option (Nat × Nat × Nat × Nat) :=
  let o := a - Config.accBase
  let c := o / 0x200000
  let l := o % 0x200000 / 0x80000
  (s.physArray c l).map fun ph => (c, l, ph, o % 0x80000 / 8)

/-- A read by a platform processor: Z56 in bits 55:0, zero above; poison bites (R82, R520). It waits while an unfinished pass or chain
writes an entry (R84, R101): the access has no effect then, and is made again. -/
def accLoad (s : State) (x : PlatAccess) : State :=
  let places := (List.range (x.len / 8)).map fun i => accPlace s (x.addr + 8 * i)
  let found := places.filterMap id
  if x.addr % 8 ≠ 0 ∨ x.len % 8 ≠ 0 ∨ places.any (·.isNone) then accessFault s x
  else if found.any fun (c, l, _, n) => (s.core c).writtenByPass (s.core c).seqNo l n 1 then s
  else
    let s := found.foldl (fun s (_, _, ph, n) => readEntry s ph n) s
    let lanes := found.map fun (_, _, ph, n) => entryLane (s.entry ph n)
    let bad := (lanes.zipIdx.filter fun l => l.1.psn).map (·.2)
    match bad with
    | [] => loaded s (clean (lanes.flatMap fun l => toBytes 8 (fld l.val 0 56)))
    | i :: _ => accessFault (s.bite 0xB x.cpu.val 0 (x.addr + 8 * i) bad.length) x

/-- A load of the slot data of the hot-row store (R254): the slots' words are checked (R197, R198). -/
def slotLoad (s : State) (x : PlatAccess) : State :=
  let slots := sortNats ((granulesOf x.addr x.len).map fun g => (64 * g - Config.hotBase) / 128)
  platLoad (slots.foldl (fun s n => fetchSlot s (n / 8192) (n % 8192)) s) x

/-- An access to a register page. -/
def pageAccess (s : State) (x : PlatAccess) : State :=
  let agent := if x.mode = 1 then Agent.platformS else Agent.platformM
  let n := (x.addr - Config.pageBase) / 2 ^ 16
  let off := (x.addr - Config.pageBase) % 2 ^ 16
  if x.write then
    match regWrite s agent n off (BitVec.ofNat 64 (fromBytes x.data)) with
    | (0, t) => t
    | _ => accessFault s x
  else
    match regRead s agent n off with
    | (0, v, t) => loaded t (clean (toBytes 8 v.toNat))
    | _ => accessFault s x

/-- An access that the window table allows reaches its region (R110, R395, R490, R519 to R522). -/
def platReach (s : State) (x : PlatAccess) : State :=
  let a := x.addr
  let within := fun (b e : Nat) => decide (b ≤ a) && decide (a + x.len ≤ e)
  if cached s x then cacheAccess s x
  else if x.op ≠ .load ∧ x.op ≠ .store then s
  else if inDram a x.len then
    if x.write && groupTableHit s a x.len then accessFault s x
    else if x.write then store s a (clean x.data) else platLoad (fetchRange s a x.len) x
  else if (tileCore a x.len).isSome then
    if x.write then (if a % 8 = 0 ∧ x.len % 8 = 0 then outsideStore s a (clean x.data) else accessFault s x)
    else platLoad (fetchRange s a x.len) x
  else if within Config.hotBase Config.hotEnd && !x.write then slotLoad s x
  else if within Config.accBase Config.accEnd && !x.write then accLoad s x
  else if within Config.pageBase Config.pageEnd && x.mode != 0 && x.len == 8 && a % 8 == 0 then pageAccess s x
  else accessFault s x

/-- PLATFORM_ACCESS (R491): an access that no window allows has no effect but its fault and record. -/
def platformAccess (x : PlatAccess) (s : State) : State :=
  if !s.plt.cpus.getLsbD x.cpu.val || s.plt.cpuHalted.getLsbD x.cpu.val || (x.write && x.data.length != x.len) then s
  else if windowAllows s x then platReach s x
  else accessFault (s.emit { code := 0x9A, uclass := 0xB, uinst := x.cpu.val, addr := x.addr }) x

/-! ### The commands -/

/-- ERR_STAT_WRITE (R523, R529). -/
def execErrStatWrite (a : Agent) (page : Nat) (val : Word) (setSame : BitVec 9) (s : State) : Result :=
  .next (if s.clocked && writeFault s a page 0x28 == 0 then errStatWrite page val setSame s else s)
/-- ERR_FORCE_GO (R530): the write has GO set. -/
def execErrForceGo (a : Agent) (page : Nat) (val : Word) (s : State) : Result :=
  .next (if s.clocked && writeFault s a page 0x38 == 0 then errForceWrite page (val ||| BitVec.ofNat 64 (2 ^ 63)) s else s)
/-- CTRL_PCLR (R528). -/
def execCtrlPclr (a : Agent) (page : Nat) (s : State) : Result :=
  .next (if s.clocked && writeFault s a page 0x18 == 0 then progClear page s else s)
/-- ERR_REC_READ (R531). -/
def execErrRecRead (a : Agent) (page : Nat) (s : State) : Result := .next (if s.clocked then agentRead a page 0x40 s else s)
/-- PROG_READ (R532). -/
def execProgRead (a : Agent) (page : Nat) (s : State) : Result := .next (if s.clocked then agentRead a page 0x80 s else s)
/-- READ_CLEAR (R16): a read of any register, whose RC fields clear. -/
def execReadClear (a : Agent) (page off : Nat) (s : State) : Result := .next (if s.clocked then agentRead a page off s else s)
/-- REGISTER_WRITE (R521): a refused write changes nothing. -/
def execRegisterWrite (a : Agent) (page off : Nat) (val : Word) (s : State) : Result :=
  .next (if s.clocked then (regWrite s a page off val).2 else s)
/-- PLATFORM_ACCESS (R491). -/
def execPlatformAccess (x : PlatAccess) (s : State) : Result := .next (if s.live then platformAccess x s else s)

end Sys2Proof.Machine
end

