-- ==== Sys2Proof/Machine/Ingest.lean ====
section
/-!
DEFINITION. Ingest validation (chapter 07, R234 to R237, R388, R389, R411 to R413): the layout of a batch image, its checks, the
rejection report, and the acceptance of a batch.
-/

namespace Sys2Proof.Machine

/-! ### Reading an image -/

/-- Up to the next multiple of 64. -/
def pad64 (n : Nat) : Nat := 64 * ceilDiv n 64

/-- One offence (R236): code, feature (0xFF for framing; the slot for code 0x0B) and position. -/
structure Offence where
  code : Nat
  feature : Nat
  pos : Nat
  deriving DecidableEq, Repr

/-- The place of an offence in a report: by feature, then position, then code (R236). -/
def Offence.key (x : Offence) : Nat := (x.feature * 2 ^ 32 + x.pos) * 256 + x.code

/-- Insert an offence in the order of R236, after those of the same place. -/
def insertOffence (x : Offence) : List Offence → List Offence
  | [] => [x]
  | y :: ys => if x.key < y.key then x :: y :: ys else y :: insertOffence x ys

/-- Offences in the order of R236. -/
def sortOffences (l : List Offence) : List Offence := l.foldr insertOffence []

/-- A report entry (R236). -/
def Offence.word (x : Offence) : Word := BitVec.ofNat 64 (x.code % 256 + x.feature % 256 * 2 ^ 8 + x.pos % 2 ^ 32 * 2 ^ 16)

/-- `n` numbers of `w` bytes from an address. -/
def readArray (s : State) (a w n : Nat) : List Nat := (List.range n).map fun i => readN s (a + w * i) w

/-- The section offsets of a batch image (R411). -/
structure ImageHead where
  emb : Nat
  dns : Nat
  deriving DecidableEq, Repr

/-- The bytes of the micro-batch table that stands at byte 64 (R388). -/
def microBytes (s : State) (a : Nat) : Nat := 64 + pad64 (4 * readN s (a + 64) 1)

/-- The head of the image at `a` of `len` bytes, when it meets R411 for the entry's step. -/
def imageHead (s : State) (a len : Nat) (step : BitVec 32) : Option ImageHead :=
  let emb := readN s (a + 16) 8
  let dns := readN s (a + 24) 8
  if len < 128 ∨ readN s a 4 ≠ step.toNat ∨ readN s (a + 4) 4 ≠ 0 ∨ readN s (a + 8) 8 ≠ len ∨ readN s (a + 40) 24 ≠ 0 ∨ emb % 64 ≠ 0 ∨
      dns % 64 ≠ 0 ∨ emb < 64 + microBytes s a ∨ dns < emb ∨ len < dns + readN s (a + 32) 8 then none
  else some ⟨emb, dns⟩

/-! ### One part (R234, R235) -/

/-- A part as it stands in the image: its extent and its arrays. -/
structure RawPart where
  start : Nat
  size : Nat
  head : Nat
  bags : Nat
  count : Nat
  offsets : List Nat
  indices : List Nat
  weights : List Nat
  deriving DecidableEq, Repr

/-- The bytes of a part with B bags and N indices (R234). -/
def partBytes (weighted : Bool) (b n : Nat) : Nat :=
  64 + pad64 (4 * (b + 1)) + pad64 (8 * n) + if weighted then pad64 (4 * n) else 0

/-- The part of a feature at an address, when it ends at or before `lim` (R411). -/
def rawPart (s : State) (f : Feature) (a lim : Nat) : Option RawPart :=
  let b := readN s (a + 4) 4
  let n := readN s (a + 8) 4
  let size := partBytes f.weighted b n
  if lim < a + 64 ∨ lim < a + size then none
  else
    let idx := a + 64 + pad64 (4 * (b + 1))
    some ⟨a, size, readN s a 64, b, n, readArray s (a + 64) 4 (b + 1), readArray s idx 8 n,
      if f.weighted then readArray s (idx + pad64 (8 * n)) 4 n else []⟩

/-- The index of the first offset that breaks check 0x04, from index i on; `prev` is the offset before. -/
def badOffset (n : Nat) : Nat → Nat → List Nat → Option Nat
  | _, _, [] => none
  | i, prev, [o] => if o < prev ∨ (i = 0 ∧ o ≠ 0) ∨ o ≠ n then some i else none
  | i, prev, o :: os => if o < prev ∨ (i = 0 ∧ o ≠ 0) then some i else badOffset n (i + 1) o os

/-- The missing index (R234). -/
abbrev missingIndex : Nat := 0xFFFFFFFFFFFFFFFF

/-- The offences of checks 0x01 to 0x09 in the part of feature f (R235). -/
def partOffences (s : State) (ft : Feature) (rows f : Nat) (x : RawPart) : List Offence :=
  let at_ := fun (code pos : Nat) => (⟨code, f, pos⟩ : Offence)
  let lens := (x.offsets.zip (x.offsets.drop 1)).map fun (a, b) => b - a
  (if x.head ≠ f + x.bags * 2 ^ 32 + x.count * 2 ^ 64 then [at_ 0x01 0] else []) ++
  (if ft.maxBags < x.bags then [at_ 0x02 0] else []) ++
  (if ft.maxIdx < x.count then [at_ 0x03 0] else []) ++
  (match badOffset x.count 0 0 x.offsets with | some i => [at_ 0x04 i] | none => []) ++
  (if ft.maxLen = 0 then [] else (lens.zipIdx.filter fun (n, _) => decide (ft.maxLen < n)).map fun (_, g) => at_ 0x05 g) ++
  ((x.indices.zipIdx.filter fun (v, _) => v != missingIndex && decide (rows ≤ v)).map fun (_, p) => at_ 0x06 p) ++
  ((x.indices.zipIdx.filter fun (v, _) => v == missingIndex).map fun (_, p) => at_ 0x07 p) ++
  ((x.weights.zipIdx.filter fun (w, _) => nbits w 23 8 == 255).map fun (_, p) => at_ 0x08 p) ++
  ((poisonedGranules s x.start x.size).map fun g => at_ 0x09 (g - x.start / 64))

/-- The part that a clean raw part gives (R234). -/
def RawPart.toPart (x : RawPart) : Part := ⟨x.offsets, x.indices, x.weights.map (BitVec.ofNat 32)⟩

/-- The offences of check 0x0A (R235, R237): an owner's unique rows, positions or bags exceed the program's bounds. -/
def ownerOffences (s : State) (ft : Feature) (d : TableDesc) (f : Nat) (x : Part) : List Offence :=
  ((ownersOf s d).filter fun o =>
    let es := ownerPositions s d x o
    decide (ft.ownerRows < (uniqueRows s d x o).length) || decide (ft.ownerPos < es.length) ||
      decide (ft.ownerBags < (sortNats (es.map (·.bag))).length)).map fun o => ⟨0x0A, f, o⟩

/-! ### The image as a whole (R235, R236, R389, R412) -/

/-- What validation finds: its offences and, for an image without any, the parts. -/
structure Found where
  offences : List Offence
  parts : List Part

/-- Check the parts of the features from number f on; a part that leaves its section is an offence of framing (R411). -/
def checkParts (s : State) (lim : Nat) : Nat → Nat → List Feature → Found
  | _, _, [] => ⟨[], []⟩
  | f, a, ft :: fts =>
    match rawPart s ft a lim, tableOf s ft.table with
    | some x, some d =>
      let bad := partOffences s ft (tRows d) f x
      let bad := if bad.isEmpty then ownerOffences s ft d f x.toPart else bad
      let rest := checkParts s lim (f + 1) (a + x.size) fts
      ⟨bad ++ rest.offences, x.toPart :: rest.parts⟩
    | _, _ => ⟨[⟨0x10, 0xFF, 0⟩], []⟩

/-- The sample counts of the micro-batch table (R388). -/
def microCounts (s : State) (a : Nat) : List Nat := readArray s (a + 128) 4 (readN s (a + 64) 1)

/-- The offences of check 0x0B (R389). -/
def microOffences (s : State) (p : Program) (det : Bool) (a : Nat) : List Offence :=
  let m := readN s (a + 64) 1
  let spread := !det && p.slots.any fun x => x.bcap.isSome
  let limit := fun (x : MicroSlot) => if spread then x.bcap.getD x.cap else x.cap
  let padding := readN s (a + 128 + 4 * m) (pad64 (4 * m) - 4 * m)
  (if m ≠ p.slots.length ∨ readN s (a + 65) 63 ≠ 0 ∨ padding ≠ 0 then [⟨0x0B, 0xFF, 0⟩] else []) ++
    (((microCounts s a).zip p.slots).zipIdx.filter fun (x, _) => decide (limit x.2 < x.1)).map fun (_, j) => ⟨0x0B, j, 0⟩

/-- Whether a step has committed in this job (R412). -/
def hasCommitted (j : Job) (step : BitVec 32) : Bool :=
  match j.lastCommit with
  | some c => decide (j.prog.firstStep.toNat ≤ step.toNat) && decide (step.toNat ≤ c.toNat)
  | none => false

/-- Every check of an image at `a` of `len` bytes for a step. With a bad head the parts cannot be found. -/
def checkImage (s : State) (j : Job) (a len : Nat) (step : BitVec 32) : Found :=
  let once := if s.accepted.contains step then [(⟨0x11, 0xFF, 0⟩ : Offence)] else []
  let late := if hasCommitted j step then [(⟨0x12, 0xFF, 0⟩ : Offence)] else []
  let top := if len < 128 then len else min len (64 + microBytes s a)
  let psn := (poisonedGranules s a top).map fun g => (⟨0x09, 0xFF, g - a / 64⟩ : Offence)
  match imageHead s a len step with
  | none => ⟨⟨0x10, 0xFF, 0⟩ :: once ++ late ++ psn, []⟩
  | some h =>
    let x := checkParts s (a + h.dns) 0 (a + h.emb) j.prog.features
    ⟨once ++ late ++ psn ++ microOffences s j.prog j.det a ++ x.offences, x.parts⟩

/-- The Teasel units whose features have an offence (R267). -/
def rejectingUnits (l : List Offence) : List Nat :=
  sortNats ((l.filter fun x => x.feature != 0xFF && x.code != 0x0B).map fun x => x.feature % 4)

/-- The bite of a batch image at `a` of `len` bytes (R201, R202): the unit of its first poisoned part, the address of the first poisoned
granule, their number. -/
def biteBatch (s : State) (opid : Word) (a len : Nat) (l : List Offence) : State :=
  match (sortOffences l).filter fun x => x.code == 0x09 with
  | [] => s
  | x :: xs =>
    s.bite 8 (if x.feature = 0xFF then 0 else x.feature % 4) opid (64 * (poisonedGranules s a len).headD 0) (xs.length + 1)

end Sys2Proof.Machine
end

