-- ==== Sys2Proof/Machine/Host.lean ====
section
/-!
DEFINITION. The Scanel Host Link (chapter 12): messages, sessions, buffers, ingest rings and doorbells, events, transfers, tier sources,
LOAD and JOB_CTRL, the register window, detach and re-attach (R397 to R431).
-/

namespace Sys2Proof.Machine

/-! ### Records and replies (R400, R428, R429) -/

/-- A record of a host port (R454). -/
def State.hostRec (s : State) (p code : Nat) (opid : Word) : State := s.emit { code := code, uclass := 0xA, uinst := p, opid := opid }

/-- Whether messages pass a host port: enabled, its link up, not taken out of service (R430, R431, R449). -/
def portOpen (s : State) (p : Nat) : Bool := (s.hport p).en && (s.hport p).link == 2 && !(s.page (0x1A + p)).disabled

/-- A message to the host of a session, counted in its direction (R400). -/
def sendReply (s : State) (sid : BitVec 32) (m : HostMsg) : State :=
  let t := { s with hostOut := s.hostOut ++ [m] }
  if (s.session sid).st = .closed then t else t.modSession sid fun x => { x with txSeq := x.txSeq + 1 }

/-- A checkpoint that streams to a session's buffer fails (R420). -/
def failStream (s : State) (sid : BitVec 32) : State :=
  if (s.ckptDest.any fun d => d.1 == sid) && (s.mirror.ckpt.any fun k => k.form == 3) then failCheckpoint s else s

/-- A session is closed, with its rings, buffers, transfers, tier sources and waiting events (R403, R425). -/
def closeSession (s : State) (sid : BitVec 32) : State :=
  let s := failStream s sid
  { s with
    sessions := mdel s.sessions sid.toNat
    tierSources := s.tierSources.filter fun x => x.sid != sid
    ckptDest := if s.ckptDest.any fun d => d.1 == sid then none else s.ckptDest }

/-- The operation id of a message (R453). -/
def opidMsg (h : ShlHead) : Word := opidHost h.sid (fld h.tag 0 32)

/-- A FAIL reply (R400, R429); a session that is still opening closes (R403). -/
def failReply (h : ShlHead) (code : Nat) (s : State) : State :=
  let t := sendReply s h.sid (.fail h.sid h.tag (BitVec.ofNat 8 code))
  if (s.session h.sid).st = .opening ∧ (s.session h.sid).port = h.port.val then closeSession t h.sid else t

/-- A request is refused with a fault of the host link: its record and the FAIL reply (R428, R429). -/
def refuse (h : ShlHead) (code : Nat) (s : State) : State := failReply h code (s.hostRec h.port.val code (opidMsg h))

/-- The plain reply of a request that succeeds. -/
def okReply (h : ShlHead) (s : State) : State := sendReply s h.sid (.ok h.sid h.tag)

/-- A message on a session: discarded with a message fault (R400), refused with a version or privilege fault (R401), or served. A
detached session has no queue pair, so nothing arrives on it. DESIGN CHOICE (log 139): a VER that is not the session's is a version fault. -/
def onSession (h : ShlHead) (ty version level : Nat) (body : State → State) (s : State) : State :=
  let x := s.session h.sid
  if !portOpen s h.port.val || x.st == .detached then s
  else if x.st = .closed ∨ x.port ≠ h.port.val ∨ !h.ok ty ∨ h.seq ≠ x.rxSeq then refuse h 0x73 s
  else
    let s := s.modSession h.sid fun x => { x with rxSeq := x.rxSeq + 1 }
    if x.st = .opening then refuse h 0x72 s
    else if x.version < version ∨ h.ver.toNat ≠ x.version then refuse h 0x71 s
    else if x.level < level then refuse h 0x72 s
    else body s

/-- A message on a session that is opening (R402, R424). -/
def onOpening (h : ShlHead) (ty : Nat) (body : State → State) (s : State) : State :=
  let x := s.session h.sid
  if !portOpen s h.port.val || x.st == .detached then s
  else if x.st ≠ .opening ∨ x.port ≠ h.port.val ∨ !h.ok ty ∨ h.seq ≠ x.rxSeq then refuse h 0x73 s
  else if h.ver.toNat ≠ x.version then refuse h 0x71 s
  else body (s.modSession h.sid fun x => { x with rxSeq := x.rxSeq + 1 })

/-! ### Opening a session (R399, R402) -/

/-- The highest version that a HELLO offers and VMASK allows; 0 for none. -/
def commonVersion (offered allowed : BitVec 3) : Nat :=
  let both := offered &&& allowed
  if both.getLsbD 2 then 3 else if both.getLsbD 1 then 2 else if both.getLsbD 0 then 1 else 0

/-- The reply to HELLO as bytes (R400, R402). DESIGN CHOICE (log 139): its body is the version, the nonce and the certificate chain. -/
def helloReplyImage (h : ShlHead) (v : Nat) (nonce : BitVec 256) : List Byte :=
  let reply : ShlHead :=
    { port := h.port, ver := BitVec.ofNat 8 v, flags := 1, rsvd := 0, len := 0, seq := 0, sid := 0, tag := h.tag, crc := 0
      body := toBytes 1 v ++ toBytes 32 nonce.toNat ++ Config.certChain }
  let r := reply.sealed 1
  r.image 1 r.crc.toNat

/-- SHL_HELLO (R399, R400, R402): a new session opens. Its number is the next SID, which AUTH grants. The host's nonce lies in the body. -/
def shlHello (h : ShlHead) (versions : BitVec 3) (s : State) : State :=
  let p := h.port.val
  let v := commonVersion versions (s.hport p).vmask
  if !portOpen s p then s
  else if h.sid ≠ 0 ∨ h.seq ≠ 0 ∨ !h.ok 1 then refuse h 0x73 s
  else if 16 ≤ (s.sessions.filter fun x => x.2.port == p).length then refuse h 0x70 s
  else if v = 0 then refuse h 0x71 s
  else
    let nonce := Config.freeNonce s.fresh
    let x : Session :=
      { port := p, version := v, st := .opening, rxSeq := 1, txSeq := 1, hello := h.image 1 h.crc.toNat ++ helloReplyImage h v nonce }
    let t := { s with
      sessions := mset {} s.sessions s.nextSid.toNat x, nextSid := s.nextSid + 1
      hostOut := s.hostOut ++ [HostMsg.helloReply s.nextSid v nonce Config.certChain] }
    t.draw

/-- The level that AUTH grants (R402). -/
def grantedLevel (version requested cert : Nat) : Nat :=
  let l := min 2 (min requested cert)
  if version = 1 then min 1 l else l

/-- What the device signs in its reply to AUTH (R402). DESIGN CHOICE (log 139): the transcript and the body of AUTH, which ends with the
host's signatures. -/
def authDigest (x : Session) (h : ShlHead) : BitVec 384 := Config.sha384 (x.hello ++ h.body)

/-- SHL_AUTH (R402, R500): the chain must verify against an installed operator root; a device without identity cannot sign. -/
def shlAuth (h : ShlHead) (verifies : Bool) (level cert : Nat) : State → State :=
  onOpening h 2 fun s =>
    if !verifies || s.flash.roots.isEmpty || s.plt.noid then refuse h 0x70 s
    else
      let ticket := Config.freeTicket s.fresh
      let key := Config.freeKey s.fresh
      let l := grantedLevel (s.session h.sid).version level cert
      let d := authDigest (s.session h.sid) h
      let s := s.modSession h.sid fun x => { x with st := .attached, level := l, ticket := ticket, doorKey := key }
      (sendReply s h.sid (.authReply h.sid ticket l key (Config.signEd d) (Config.signMl d))).draw

/-! ### Transfers (R405, R416 to R418) -/

/-- Events that wait in device memory (R416). -/
def Session.waiting (x : Session) : Nat := x.events.length - x.written

/-- Whether a session's ring entries and transfers go on (R416, R483): fewer than 4,096 waiting events, and no stop. -/
def mayProceed (s : State) (sid : BitVec 32) : Bool := !s.stopped && decide ((s.session sid).waiting < 4096)

/-- A session's transfer changed. -/
def modXfer (s : State) (sid xid : BitVec 32) (f : Xfer → Xfer) : State :=
  s.modSession sid fun x => { x with xfers := x.xfers.map fun t => if t.xid = xid then f t else t }

/-- The bytes of a transfer's next segment (R417). -/
def Xfer.segment (t : Xfer) : Nat := min (2 ^ 20) (t.len - t.moved)

/-- The device pulls the next segment of an IN transfer (R417). -/
def pullSegment (s : State) (sid : BitVec 32) (t : Xfer) : State :=
  { s with hostOut := s.hostOut ++ [.pull sid t.xid t.qp t.hbuf (t.hoff + t.moved) t.segment] }

/-- The segments of an OUT transfer's data (R417). -/
def pushSegments (sid : BitVec 32) (t : Xfer) (data : List Byte) : List HostMsg :=
  (chunksOf (2 ^ 20) (data.length / 2 ^ 20 + 1) data).zipIdx.map fun c => .data sid t.xid t.qp t.hbuf (t.hoff + 2 ^ 20 * c.2) c.1

/-- A transfer starts: an IN transfer pulls its next segment; an OUT transfer pushes its data up to the first poisoned granule, which bites
(R201, R418). -/
def startXfer (s : State) (sid : BitVec 32) (t : Xfer) : State :=
  if !t.out then modXfer (pullSegment s sid t) sid t.xid fun t => { t with started := true }
  else
    let s := fetchRange s t.dev t.len
    let bad := (poisonedGranules s t.dev t.len).head?.map fun g => 64 * g
    let n := match bad with | some a => a - t.dev | none => t.len
    let send := { s with hostOut := s.hostOut ++ pushSegments sid t (readB s t.dev n) }
    let done := match bad with
      | some a => send.bite 0xA (s.session sid).port (opidHost sid t.xid.toNat) a 1
      | none => send
    modXfer done sid t.xid fun t => { t with started := true, moved := n, poisonAt := bad.map fun a => a - t.dev }

/-- The transfers of an attached session that wait start, in order. -/
def startXfers (s : State) (sid : BitVec 32) : State :=
  if (s.session sid).st = .attached ∧ mayProceed s sid then
    ((s.session sid).xfers.filter fun t => !t.started && !t.inDoubt).foldl (fun s t => startXfer s sid t) s
  else s

/-- An XFER request (R405, R417). -/
def openXfer (h : ShlHead) (b : XferBody) (out : Bool) : State → State :=
  onSession h 0x20 1 (if out then 0 else 1) fun s =>
    let x := s.session h.sid
    let devKind := if out ∧ (x.buffer b.src.toNat).any (fun u => u.kind == 2) then 2 else 1
    let dev := if out then bufferFault s h.sid b.src.toNat devKind b.srcOff b.len else bufferFault s h.sid b.dst.toNat 1 b.dstOff b.len
    let host := if out then bufferFault s h.sid b.dst.toNat 4 b.dstOff b.len else bufferFault s h.sid b.src.toNat 3 b.srcOff b.len
    if 7 < b.qp then refuse h 0x02 s
    else if (x.xfers.any fun t => t.xid == b.xid) ∨ 64 ≤ x.xfers.length ∨ dev = 0x77 ∨ host = 0x77 then refuse h 0x77 s
    else if dev ≠ 0 ∨ host ≠ 0 then refuse h 0x76 s
    else
      let base := match x.buffer (if out then b.src.toNat else b.dst.toNat) with | some u => u.addr | none => 0
      let t : Xfer :=
        { xid := b.xid, out := out, qp := b.qp, dev := base + (if out then b.srcOff else b.dstOff), hbuf := if out then b.dst else b.src,
          hoff := if out then b.dstOff else b.srcOff, len := b.len, started := false, moved := 0, poisonAt := none, inDoubt := false }
      startXfers ((okReply h s).modSession h.sid fun x => { x with xfers := x.xfers ++ [t] }) h.sid

/-- A transfer ends: it leaves the open ones, and its event is written (R417). -/
def endXfer (s : State) (sid : BitVec 32) (t : Xfer) (status moved : Nat) : State :=
  (s.modSession sid fun x => { x with xfers := x.xfers.filter fun u => u.xid != t.xid }).postTo sid.toNat status
    (.xfer t.xid moved t.poisonAt)

/-- A segment of an IN transfer arrives and is placed (R417); the transfer ends with its last one. None of it lands in the group table of a
running job (R395). -/
def placeSegment (s : State) (sid : BitVec 32) (t : Xfer) (data : List Byte) : State :=
  if groupTableHit s (t.dev + t.moved) data.length then endXfer (s.hostRec (s.session sid).port 0x07 (opidHost sid t.xid.toNat)) sid t 0x07 t.moved
  else
    let s := store s (t.dev + t.moved) (clean data)
    let t := { t with moved := t.moved + data.length }
    if t.moved = t.len then endXfer s sid t 0 t.len else pullSegment (modXfer s sid t.xid fun _ => t) sid t

/-- XFER_COMPLETE (R417, R418): the pulled segment is placed, or the host has acknowledged every write. -/
def xferComplete (sid xid : BitVec 32) (data : List Byte) (s : State) : State :=
  let s := startXfers s sid
  match (s.session sid).xfers.find? fun t => t.xid == xid with
  | none => s
  | some t =>
    if !t.started || t.inDoubt || (s.session sid).st != .attached then s
    else if t.out then endXfer s sid t (if t.poisonAt.isSome then 0x13 else 0) t.moved
    else if s.stopped || data.length != t.segment then s
    else placeSegment s sid t data

/-- RESOLVE (R424): the whole transfer again, or its end with an abort. -/
def resolve (h : ShlHead) (xid : BitVec 32) (again : Bool) : State → State :=
  onSession h 0x21 2 1 fun s =>
    match (s.session h.sid).xfers.find? fun t => t.xid == xid && t.inDoubt with
    | none => refuse h 0x77 s
    | some t =>
      let s := okReply h s
      if again then
        startXfers (modXfer s h.sid xid fun t => { t with started := false, inDoubt := false, moved := 0, poisonAt := none }) h.sid
      else endXfer (s.hostRec h.port.val 0x79 (opidHost h.sid xid.toNat)) h.sid t 0x79 t.moved

/-! ### Detach, re-attach and expiry (R423 to R425) -/

/-- Transfers of a session that loses its queue pairs (R423): OUT data that is not acknowledged is in doubt; IN transfers
stop after the segments that have been placed, and resume with the next. -/
def detachXfer (t : Xfer) : Xfer :=
  if t.out then (if t.started then { t with inDoubt := true } else t) else { t with started := false }

/-- The grace time ends a session (R425, R428): its in-doubt transfers are aborted, and it is closed, each with a record. -/
def expire (s : State) (sid : BitVec 32) : State :=
  let p := (s.session sid).port
  let s := ((s.session sid).xfers.filter (·.inDoubt)).foldl (fun s t => s.hostRec p 0x79 (opidHost sid t.xid.toNat)) s
  let s := (s.hostRec p 0x7A (opidHost sid 0)).modHport p fun x => { x with expired := satAdd 8 x.expired 1 }
  closeSession s sid

/-- A queue pair of the session enters the error state (R403, R423, R425). -/
def qpError (sid : BitVec 32) (s : State) : State :=
  let x := s.session sid
  match x.st with
  | .attached =>
    let fresh := (x.xfers.filter fun t => t.out && t.started && !t.inDoubt).length
    let s := s.modHport x.port fun p => { p with indoubt := satAdd 8 p.indoubt fresh }
    let s := failStream s sid
    if x.version = 1 then closeSession s sid
    else
      let s := s.modSession sid fun x =>
        { x with st := .detached, detachedAt := s.cycle, xfers := x.xfers.map detachXfer }
      if (s.hport x.port).grace = 0 then expire s sid else s
  | .opening => closeSession s sid
  | _ => s

/-- SESSION_EXPIRY (R425). -/
def sessionExpiry (sid : BitVec 32) (s : State) : State :=
  let x := s.session sid
  if x.st = .detached ∧ x.detachedAt + (s.hport x.port).grace.toNat * cyclesOfUs 1000000 ≤ s.cycle then expire s sid else s

/-- ATTACH (R424): the connection that opened takes over the detached session; unconsumed events are written again. -/
def attachSession (h : ShlHead) (sid : BitVec 32) (ticket : BitVec 128) : State → State :=
  onOpening h 3 fun s =>
    let o := s.session h.sid
    let x := s.session sid
    if o.version < 2 then refuse h 0x71 s
    else if x.st ≠ .detached ∨ x.ticket ≠ ticket then refuse h 0x70 s
    else if x.version ≠ o.version then refuse h 0x71 s
    else
      let new := Config.freeTicket s.fresh
      let rings := x.rings.filterMap fun r => r.2.map fun g => (r.1, g.cons, generation g.n g.cons.toNat)
      let inDoubt := (x.xfers.filter (·.inDoubt)).map (·.xid)
      let oldest := match x.events with | e :: _ => e.eseq | [] => x.eseq
      let s := (closeSession s h.sid).modSession sid fun x =>
        { x with
          st := .attached, port := h.port.val, ticket := new, rxSeq := o.rxSeq, txSeq := o.txSeq
          evt := x.evt.map fun e => { e with prod := e.cons } }
      let s := (sendReply s sid (.attachReply sid new rings oldest inDoubt)).draw
      startXfers (writeEvents s sid.toNat x.events.length) sid

/-- DETACH (R403). -/
def detachSession (h : ShlHead) : State → State := onSession h 4 1 0 fun s => closeSession (okReply h s) h.sid

/-! ### Buffers (R404, R405) -/

/-- Whether a device buffer's region is permitted (R404): a host window of the program, or the staging area with no job. -/
def hostRegion (s : State) (a n : Nat) : Bool :=
  match s.prog with
  | some p => p.hostWindows.any fun w => decide (w.base ≤ a) && decide (a + n ≤ w.base + w.size)
  | none => decide (Config.stagingBase ≤ a) && decide (a + n ≤ Config.stagingBase + Config.stagingSize)

/-- BUF_OPEN (R404). -/
def bufOpen (h : ShlHead) (b : BufBody) : State → State :=
  onSession h 0x10 1 1 fun s =>
    let k := b.kind.toNat
    let device := decide (k = 1 ∨ k = 2)
    if k < 1 ∨ 4 < k ∨ !b.rsvdOk ∨ b.size < 1 ∨ 2 ^ 48 < b.size ∨ ((s.session h.sid).buffer b.buf.toNat).isSome ∨
        (device ∧ (b.rkey ≠ 0 ∨ !hostRegion s b.addr.toNat b.size ∨ !inDram b.addr.toNat b.size)) then refuse h 0x77 s
    else
      let key := Config.freeKey s.fresh
      let u : Buffer := ⟨k, b.addr.toNat, b.size, if k = 1 then key else b.rkey⟩
      let s := s.modSession h.sid fun x => { x with bufs := mset none x.bufs b.buf.toNat (some u) }
      if k = 1 then (sendReply s h.sid (.key h.sid h.tag key)).draw else okReply h s

/-- BUF_CLOSE (R401). -/
def bufClose (h : ShlHead) (buf : BitVec 8) : State → State :=
  onSession h 0x11 1 1 fun s =>
    if ((s.session h.sid).buffer buf.toNat).isNone then refuse h 0x77 s
    else okReply h (s.modSession h.sid fun x => { x with bufs := mset none x.bufs buf.toNat none })

/-! ### Rings (R406 to R410) -/

/-- A power of two between two bounds. -/
def powerBetween (lo hi n : Nat) : Bool := (List.range 17).any fun k => n == 2 ^ k && decide (lo ≤ n) && decide (n ≤ hi)

/-- A ring of a session. -/
def Session.ring (x : Session) (r : Nat) : Option Ring := mget none x.rings r
/-- A ring replaced. -/
def setRing (s : State) (sid : BitVec 32) (r : Nat) (g : Option Ring) : State :=
  s.modSession sid fun x => { x with rings := mset none x.rings r g }

/-- RING_OPEN (R406). -/
def ringOpen (h : ShlHead) (r : Nat) (buf : BitVec 8) (off n qp : Nat) : State → State :=
  onSession h 0x12 1 1 fun s =>
    let x := s.session h.sid
    let f := bufferFault s h.sid buf.toNat 1 off (64 * n)
    if !powerBetween 8 4096 n || off % 64 != 0 || decide (7 < qp) then refuse h 0x02 s
    else if f = 0x77 ∨ (x.ring r).isSome then refuse h 0x77 s
    else if f ≠ 0 then refuse h f s
    else
      let base := match x.buffer buf.toNat with | some u => u.addr + off | none => 0
      okReply h (setRing s h.sid r (some { base := base, n := n, qp := qp }))

/-- A ring that is closing goes once nothing of it is validated or held (R426). -/
def dropIfDone (s : State) (sid : BitVec 32) (r : Nat) : State :=
  match (s.session sid).ring r with
  | some g => if g.closing && g.image.isEmpty && g.cons == g.prod then setRing s sid r none else s
  | none => s

/-- RING_CLOSE (R426): an entry that is validated or held is finished, the unread ones are discarded. -/
def ringClose (h : ShlHead) (r : Nat) : State → State :=
  onSession h 0x13 1 1 fun s =>
    match (s.session h.sid).ring r with
    | none => refuse h 0x77 s
    | some g =>
      let g := { g with closing := true, prod := if g.held then g.cons + 1 else g.cons }
      dropIfDone (setRing (okReply h s) h.sid r (some g)) h.sid r

/-- EVT_OPEN (R414): the event ring is placed; events that the host has not consumed are written into it. -/
def evtOpen (h : ShlHead) (buf : BitVec 8) (off n : Nat) : State → State :=
  onSession h 0x14 1 0 fun s =>
    let f := bufferFault s h.sid buf.toNat 4 off (256 * n)
    if !powerBetween 8 65536 n then refuse h 0x02 s
    else if f ≠ 0 then refuse h f s
    else
      let s := okReply h (s.modSession h.sid fun x => { x with evt := some { buf := buf, off := off, n := n } })
      writeEvents s h.sid.toNat (s.session h.sid).events.length

/-- DOORBELL (R407, R409, R426). -/
def doorbell (sid : BitVec 32) (r : Nat) (p : Word) (s : State) : State :=
  let x := s.session sid
  let new := p.extractLsb' 0 32
  if x.st ≠ .attached ∨ !portOpen s x.port then s
  else
    match x.ring r with
    | some g =>
      if fld p 32 32 = 0 ∧ (new - g.cons).toNat ≤ g.n ∧ (new - g.prod).toNat ≤ g.n ∧ !g.closing then
        setRing s sid r (some (if g.stopped then { g with prod := new, stopped := false, rereads := 0, rereadAt := none }
          else { g with prod := new }))
      else badDoorbell s
    | none => badDoorbell s
where
  /-- An invalid doorbell is ignored and counted (R409, R428). -/
  badDoorbell (s : State) : State :=
    let p := (s.session sid).port
    (s.hostRec p 0x75 (opidHost sid r)).modHport p fun x => { x with dbflt := satAdd 16 x.dbflt 1 }

/-- The bytes of a ring entry from `lo`, as a number. -/
def entryField (e : List Byte) (lo n : Nat) : Nat := fromBytes ((e.drop lo).take n)

/-- Whether an entry is ready (R410): its generation and its CRC. -/
def entryReady (g : Ring) (e : List Byte) : Bool :=
  entryField e 0 2 == generation g.n g.cons.toNat && entryField e 60 4 == (crc32c (e.take 60)).toNat

/-- The fault of an entry that is ready (R405, R406, R410); 0 for none. -/
def entryFault (s : State) (sid : BitVec 32) (e : List Byte) : Nat :=
  if entryField e 2 1 ≠ 1 ∨ entryField e 3 1 ≠ 0 ∨ entryField e 9 7 ≠ 0 ∨ entryField e 36 24 ≠ 0 ∨ entryField e 16 8 % 64 ≠ 0 then 0x02
  else bufferFault s sid (entryField e 8 1) 1 (entryField e 16 8) (entryField e 24 8)

/-- The BATCH event of an entry. -/
def entryEvent (r : Nat) (g : Ring) (e : List Byte) : EventBody :=
  .batch r g.cons (BitVec.ofNat 32 (entryField e 32 4)) (BitVec.ofNat 32 (entryField e 4 4)) 0 []

/-- Whether a step lies beyond the ingest depth (R34, R410); without a job there is no depth yet. DESIGN CHOICE (log 135): the executing step
is the one after the last commit, the program's first step before any. -/
def beyondDepth (s : State) (step : Nat) : Bool :=
  match s.prog with | some p => decide (s.nextStep.toNat + p.depth < step) | none => true

/-- An entry that is not ready (R410): a re-read 1,600 cycles on, or after the eighth the ring stops with a fault. -/
def entryNotReady (s : State) (sid : BitVec 32) (r : Nat) (g : Ring) (e : List Byte) : State :=
  if g.rereads < 8 then setRing s sid r (some { g with rereadAt := some (s.cycle + 1600) })
  else
    let p := (s.session sid).port
    let s := (s.hostRec p 0x74 (opidHost sid r)).modHport p fun x => { x with notrdy := satAdd 16 x.notrdy 1 }
    (setRing s sid r (some { g with rereadAt := none, stopped := true })).postTo sid.toNat 0x74 (entryEvent r g e)

/-- An entry has been read (R410): not ready, failed and consumed, held for its step, or passed to validation. -/
def entryArrives (s : State) (sid : BitVec 32) (r : Nat) (g : Ring) : State :=
  let a := g.base + 64 * (g.cons.toNat % g.n)
  let s := fetchRange s a 64
  let e := readB s a 64
  let step := entryField e 4 4
  if !entryReady g e || poisonedIn s a 64 then entryNotReady s sid r g e
  else
    let f := entryFault s sid e
    let next := { g with cons := g.cons + 1, rereads := 0, rereadAt := none, held := false }
    if f ≠ 0 then
      let s := setRing (s.hostRec (s.session sid).port f (opidHost sid r)) sid r (some next)
      dropIfDone (s.postTo sid.toNat f (entryEvent r g e)) sid r
    else if beyondDepth s step then setRing s sid r (some { g with held := true, rereadAt := none })
    else
      let base := match (s.session sid).buffer (entryField e 8 1) with | some u => u.addr | none => 0
      setRing s sid r (some { next with image := g.image ++
        [(g.cons, BitVec.ofNat 32 (entryField e 32 4), BitVec.ofNat 32 step, base + entryField e 16 8, entryField e 24 8)] })

/-- Whether the entry at C of a ring may be read (R410, R416, R423, R483). -/
def ringReads (s : State) (sid : BitVec 32) (g : Ring) : Bool :=
  ((s.session sid).st == .attached || (s.session sid).st == .detached) && !g.stopped && g.cons != g.prod && mayProceed s sid

/-- RING_ENTRY_READ (R410). -/
def ringEntryRead (sid : BitVec 32) (r : Nat) (s : State) : State :=
  match (s.session sid).ring r with
  | some g => if ringReads s sid g && g.rereadAt.isNone then entryArrives s sid r g else s
  | none => s

/-- ENTRY_REREAD (R410). -/
def entryReread (sid : BitVec 32) (r : Nat) (s : State) : State :=
  match (s.session sid).ring r with
  | some g =>
    match g.rereadAt with
    | some t =>
      if ringReads s sid g && decide (t ≤ s.cycle) then
        let p := (s.session sid).port
        let g := { g with rereads := g.rereads + 1, rereadAt := none }
        entryArrives (s.modHport p fun x => { x with reread := satAdd 16 x.reread 1 }) sid r g
      else s
    | none => s
  | none => s

/-- A batch that passes every check is accepted (R237, R239, R413, R236). -/
def acceptBatch (s : State) (sid step : BitVec 32) (a : Nat) (parts : List Part) : State :=
  let b : Batch := ⟨step, parts, microCounts s a, sid⟩
  sendPrefetch { s with batches := s.batches ++ [b], accepted := s.accepted ++ [step] } b

/-- A batch with an offence is rejected whole (R201, R236, R267). -/
def rejectBatch (s : State) (sid : BitVec 32) (r a len : Nat) (bad : List Offence) : State :=
  let s := (rejectingUnits bad).foldl (fun s u => s.modTeasel u fun x => { x with rejects := satAdd 16 x.rejects 1 }) s
  biteBatch s (opidHost sid r) a len bad

/-- BATCH_VALIDATION (R235 to R237, R411 to R413): the oldest image of a ring is accepted or rejected, with its BATCH event. -/
def batchValidation (sid : BitVec 32) (r : Nat) (s : State) : State :=
  match (s.session sid).ring r, s.job with
  | some g, some j =>
    match g.image with
    | [] => s
    | (index, ftag, step, a, len) :: rest =>
      let s := setRing s sid r (some { g with image := rest })
      let s := fetchRange s a len
      let x := checkImage s j a len step
      let s := if x.offences.isEmpty then acceptBatch s sid step a x.parts else rejectBatch s sid r a len x.offences
      let report := ((sortOffences x.offences).take 16).map Offence.word
      dropIfDone (s.postTo sid.toNat 0 (.batch r index ftag step x.offences.length report)) sid r
  | _, _ => s

/-- EVENT_CONSUMER_WRITE (R407, R414, R416): consumed events go, and waiting ones are written. -/
def eventConsumer (sid : BitVec 32) (c : Word) (s : State) : State :=
  let x := s.session sid
  match x.evt with
  | none => s
  | some e =>
    let n := (c.extractLsb' 0 32 - BitVec.ofNat 32 e.cons).toNat
    if x.st ≠ .attached ∨ fld c 32 32 ≠ 0 ∨ e.prod < e.cons + n then s
    else
      let s := s.modSession sid fun x => { x with evt := some { e with cons := e.cons + n }, events := x.events.drop n }
      startXfers (writeEvents s sid.toNat x.events.length) sid

/-! ### RDMA accesses of the host (R404, R407, R409) -/

/-- An access outside what the host may reach: counted as a fault, and the queue pair ends (R404, R428). -/
def remoteAccess (sid : BitVec 32) (s : State) : State :=
  let p := (s.session sid).port
  let s := s.hostRec p 0x7B (opidHost sid 0)
  qpError sid { s with hostOut := s.hostOut ++ [.remoteAccess sid] }

/-- RDMA_WRITE into a device-in buffer (R404, R422); a write to the group table of a running job is refused (R395). -/
def rdmaWrite (sid : BitVec 32) (buf : BitVec 8) (off : Nat) (data : List Byte) (s : State) : State :=
  let x := s.session sid
  if x.st ≠ .attached ∨ !portOpen s x.port ∨ s.stopped then s
  else if bufferFault s sid buf.toNat 1 off data.length ≠ 0 then remoteAccess sid s
  else
    match x.buffer buf.toNat with
    | some u =>
      if groupTableHit s (u.addr + off) data.length then s.hostRec x.port 0x07 (opidHost sid 0) else store s (u.addr + off) (clean data)
    | none => s

/-- RDMA_READ of a read-back word (R407, R409). -/
def rdmaRead (sid : BitVec 32) (qp off : Nat) (s : State) : State :=
  let x := s.session sid
  if x.st ≠ .attached ∨ !portOpen s x.port then s
  else if off < 2048 ∨ 2560 ≤ off ∨ off % 8 ≠ 0 ∨ 7 < qp then remoteAccess sid s
  else
    let c := match x.ring ((off - 2048) / 8) with | some g => g.cons.zeroExtend 64 | none => 0
    { s with hostOut := s.hostOut ++ [.readBack sid qp c] }

/-! ### Tier sources and checkpoint streams (R419, R420) -/

/-- Whether two ranges of local records share one. -/
def recordsOverlap (x : TierSource) (table first last : Nat) : Bool :=
  x.table == table && decide (x.first ≤ last) && decide (first ≤ x.last)

/-- TIER_SRC (R405, R419). -/
def tierSrc (h : ShlHead) (table first last : Nat) (buf : BitVec 8) (hoff stride : Nat) : State → State :=
  onSession h 0x22 3 1 fun s =>
    match tableOf s table with
    | none => refuse h 0x78 s
    | some t =>
      let f := bufferFault s h.sid buf.toNat 3 hoff ((last - first) * stride + tRec t)
      if stride % 64 ≠ 0 ∨ stride < tRec t then refuse h 0x02 s
      else if !tTier t || decide (last < first) || decide (tLrows t ≤ last) ||
          s.tierSources.any (fun x => recordsOverlap x table first last) then refuse h 0x78 s
      else if f ≠ 0 then refuse h f s
      else okReply h { s with tierSources := s.tierSources ++ [⟨h.sid, table, first, last, buf, hoff, stride⟩] }

/-- CKPT_DEST (R420). -/
def ckptDestMsg (h : ShlHead) (buf : BitVec 8) (off : Nat) : State → State :=
  onSession h 0x23 3 1 fun s =>
    let f := bufferFault s h.sid buf.toNat 4 off 0
    if f ≠ 0 then refuse h f s else okReply h { s with ckptDest := some (h.sid, buf, off) }

/-! ### LOAD and JOB_CTRL (R421) -/

/-- The record of a load that is refused: of the device as a whole for a fault that is not of the host link. -/
def loadRefused (h : ShlHead) (code detail : Nat) (s : State) : State :=
  let own := decide (0x70 ≤ code)
  failReply h code (s.emit
    { code := code, uclass := if own then 0xA else 0, uinst := if own then h.port.val else 0, opid := opidMsg h, detail := detail })

/-- LOAD (R405, R421). -/
def loadMsg (h : ShlHead) (b : LoadBody) : State → State :=
  onSession h 0x30 2 2 fun s =>
    let f := bufferFault s h.sid b.buf.toNat 3 b.binOff b.binLen
    let g := bufferFault s h.sid b.buf.toNat 3 b.plOff b.plLen
    if f ≠ 0 then refuse h f s
    else if g ≠ 0 then refuse h g s
    else
      match loadResult s b with
      | ((0, _), t) => okReply h t
      | ((code, detail), t) => loadRefused h code detail t

/-- Whether every local record of every tiered table has a source (R419); the ranges of one table do not overlap. -/
def tiersCovered (s : State) (p : Program) : Bool :=
  p.tables.all fun t => !tTier t ||
    ((s.tierSources.filter fun x => x.table == tId t).map fun x => x.last + 1 - x.first).sum == tLrows t

/-- JOB_CTRL start (R349, R419, R421): it waits until every cabled port is UP. -/
def jobStart (h : ShlHead) : State → State :=
  onSession h 0x31 2 2 fun s =>
    match s.job with
    | none => refuse h 0x78 s
    | some j =>
      if s.jobRuns || j.halted || j.startAt.isSome || !tiersCovered s j.prog then refuse h 0x78 s
      else startIfReady { okReply h s with job := some { j with startAt := some s.cycle } }

/-- JOB_CTRL stop (R421). -/
def jobStop (h : ShlHead) : State → State :=
  onSession h 0x31 2 2 fun s => if s.jobRuns then (okReply h s).stopAtBoundary else refuse h 0x78 s

/-- JOB_CTRL reset (R421, R511). -/
def jobCtrlReset (h : ShlHead) : State → State := onSession h 0x31 2 2 fun s => jobReset (okReply h s)

/-! ### The register window (R427, R522) -/

/-- Read `n` registers in ascending order. -/
def readRegs (s : State) (a : Agent) (page off n : Nat) : State × List Word :=
  (List.range n).foldl (fun x i => let r := regRead x.1 a page (off + 8 * i); (r.2.2, x.2 ++ [r.2.1])) (s, [])

/-- REG_RD (R427): a request that leaves the page is an address fault. -/
def regRd (h : ShlHead) (page off n : Nat) : State → State :=
  onSession h 0x38 1 0 fun s =>
    if n < 1 ∨ 64 < n then refuse h 0x76 s
    else if !pagePresent page || off % 8 != 0 || decide (2 ^ 16 < off + 8 * n) then failReply h 0x07 s
    else
      let x := readRegs s (.session h.sid) page off n
      sendReply x.1 h.sid (.values h.sid h.tag x.2)

/-- Write registers in ascending order; the first code of a refused operation, or 0. -/
def writeRegs (s : State) (a : Agent) (page off : Nat) (vals : List Word) : Nat × State :=
  vals.zipIdx.foldl (fun x v =>
    let r := regWrite x.2 a page (off + 8 * v.2) v.1
    (if x.1 = 0 then r.1 else x.1, r.2)) (0, s)

/-- The fault of a REG_WR before it writes anything (R427): privilege before address. -/
def regWrFault (s : State) (a : Agent) (page off n : Nat) : Nat :=
  let fs := (List.range n).map fun i => writeFault s a page (off + 8 * i)
  if fs.contains 0x72 then 0x72 else if fs.any (· != 0) then 0x07 else 0

/-- REG_WR (R427). -/
def regWr (h : ShlHead) (page off : Nat) (vals : List Word) : State → State :=
  onSession h 0x39 1 0 fun s =>
    let a := Agent.session h.sid
    if vals.length < 1 ∨ 64 < vals.length then refuse h 0x76 s
    else
      match regWrFault s a page off vals.length with
      | 0 =>
        match writeRegs s a page off vals with
        | (0, t) => okReply h t
        | (code, t) => failReply h code t
      | 0x72 => refuse h 0x72 s
      | code => failReply h code s

/-! ### After a stop (R480, R483) -/

/-- The transfers of every session that waited go on. -/
def startAllXfers (s : State) : State := (s.sessions.map (·.1)).foldl (fun s sid => startXfers s (BitVec.ofNat 32 sid)) s

/-! ### The commands -/

/-- RESUME (R481). -/
def execResume (s : State) : Result := .next (if s.live then startAllXfers (resume s) else s)
/-- RING_ENTRY_READ (R410). -/
def execRingEntryRead (sid : BitVec 32) (ring : Fin 64) (s : State) : Result :=
  .next (if s.live then ringEntryRead sid ring.val s else s)
/-- ENTRY_REREAD (R410). -/
def execEntryReread (sid : BitVec 32) (ring : Fin 64) (s : State) : Result := .next (if s.live then entryReread sid ring.val s else s)
/-- BATCH_VALIDATION (R235). -/
def execBatchValidation (sid : BitVec 32) (ring : Fin 64) (s : State) : Result :=
  .next (if s.live && !s.stopped then batchValidation sid ring.val s else s)
/-- SHL_HELLO (R402). -/
def execShlHello (h : ShlHead) (versions : BitVec 3) (_nonce : BitVec 256) (s : State) : Result :=
  .next (if s.live then shlHello h versions s else s)
/-- SHL_AUTH (R402). -/
def execShlAuth (h : ShlHead) (verifies : Bool) (level certLevel : Nat) (s : State) : Result :=
  .next (if s.live then shlAuth h verifies level certLevel s else s)
/-- ATTACH (R424). -/
def execAttach (h : ShlHead) (sid : BitVec 32) (ticket : BitVec 128) (s : State) : Result :=
  .next (if s.live then attachSession h sid ticket s else s)
/-- DETACH (R403). -/
def execDetach (h : ShlHead) (s : State) : Result := .next (if s.live then detachSession h s else s)
/-- BUF_OPEN (R404). -/
def execBufOpen (h : ShlHead) (b : BufBody) (s : State) : Result := .next (if s.live then bufOpen h b s else s)
/-- BUF_CLOSE (R401). -/
def execBufClose (h : ShlHead) (buf : BitVec 8) (s : State) : Result := .next (if s.live then bufClose h buf s else s)
/-- RING_OPEN (R406). -/
def execRingOpen (h : ShlHead) (ring : Fin 64) (buf : BitVec 8) (off n qp : Nat) (s : State) : Result :=
  .next (if s.live then ringOpen h ring.val buf off n qp s else s)
/-- RING_CLOSE (R426). -/
def execRingClose (h : ShlHead) (ring : Fin 64) (s : State) : Result := .next (if s.live then ringClose h ring.val s else s)
/-- EVT_OPEN (R414). -/
def execEvtOpen (h : ShlHead) (buf : BitVec 8) (off n : Nat) (s : State) : Result := .next (if s.live then evtOpen h buf off n s else s)
/-- XFER_IN (R417). -/
def execXferIn (h : ShlHead) (b : XferBody) (s : State) : Result := .next (if s.live then openXfer h b false s else s)
/-- XFER_OUT (R417, R418). -/
def execXferOut (h : ShlHead) (b : XferBody) (s : State) : Result := .next (if s.live then openXfer h b true s else s)
/-- XFER_COMPLETE (R417). -/
def execXferComplete (sid xid : BitVec 32) (data : List Byte) (s : State) : Result :=
  .next (if s.live then xferComplete sid xid data s else s)
/-- RESOLVE_RESEND (R424). -/
def execResolveResend (h : ShlHead) (xid : BitVec 32) (s : State) : Result := .next (if s.live then resolve h xid true s else s)
/-- RESOLVE_ABORT (R424). -/
def execResolveAbort (h : ShlHead) (xid : BitVec 32) (s : State) : Result := .next (if s.live then resolve h xid false s else s)
/-- TIER_SRC (R419). -/
def execTierSrc (h : ShlHead) (table first last : Nat) (buf : BitVec 8) (hoff stride : Nat) (s : State) : Result :=
  .next (if s.live then tierSrc h table first last buf hoff stride s else s)
/-- CKPT_DEST (R420). -/
def execCkptDest (h : ShlHead) (buf : BitVec 8) (off : Nat) (s : State) : Result := .next (if s.live then ckptDestMsg h buf off s else s)
/-- LOAD (R421): during a stop the load's pull of the binary waits. -/
def execLoad (h : ShlHead) (b : LoadBody) (s : State) : Result := .next (if s.live && !s.stopped then loadMsg h b s else s)
/-- JOB_START (R421): a stopped device starts nothing. -/
def execJobStart (h : ShlHead) (s : State) : Result := .next (if s.live && !s.stopped then jobStart h s else s)
/-- JOB_STOP (R421). -/
def execJobStop (h : ShlHead) (s : State) : Result := .next (if s.live then jobStop h s else s)
/-- JOB_CTRL_RESET (R421). -/
def execJobCtrlReset (h : ShlHead) (s : State) : Result := .next (if s.live then jobCtrlReset h s else s)
/-- REG_RD (R427). -/
def execRegRd (h : ShlHead) (page off n : Nat) (s : State) : Result := .next (if s.live then regRd h page off n s else s)
/-- REG_WR (R427). -/
def execRegWr (h : ShlHead) (page off : Nat) (vals : List Word) (s : State) : Result :=
  .next (if s.live then regWr h page off vals s else s)
/-- RDMA_WRITE (R404). -/
def execRdmaWrite (sid : BitVec 32) (buf : BitVec 8) (off : Nat) (data : List Byte) (s : State) : Result :=
  .next (if s.live then rdmaWrite sid buf off data s else s)
/-- RDMA_READ (R409). -/
def execRdmaRead (sid : BitVec 32) (qp pageOff : Nat) (s : State) : Result := .next (if s.live then rdmaRead sid qp pageOff s else s)
/-- DOORBELL (R409). -/
def execDoorbell (sid : BitVec 32) (ring : Fin 64) (p : Word) (s : State) : Result :=
  .next (if s.live then doorbell sid ring.val p s else s)
/-- EVENT_CONSUMER_WRITE (R414). -/
def execEventConsumerWrite (sid : BitVec 32) (c : Word) (s : State) : Result := .next (if s.live then eventConsumer sid c s else s)
/-- QP_ERROR (R423). -/
def execQpError (sid : BitVec 32) (s : State) : Result := .next (if s.live then qpError sid s else s)
/-- SESSION_EXPIRY (R425). -/
def execSessionExpiry (sid : BitVec 32) (s : State) : Result := .next (if s.live then sessionExpiry sid s else s)
/-- HOST_RETRAIN (R430). -/
def execHostRetrain (p : HostPortId) (s : State) : Result := .next (if s.live then hostRetrain p.val s else s)

end Sys2Proof.Machine
end

