-- ==== Sys2Proof/Machine/Pins.lean ====
section
/-!
DEFINITION. Pins, supplies, clocks, the TAP, PLDM monitoring and the Ethernet links of the host ports (R397, R398, R431, R541 to R558).
-/

namespace Sys2Proof.Machine

/-! ### Lands (R540): positions (row, column) -/

/-- The lands TX_P, TX_N, RX_P and RX_N of lane `l` of fabric port `p`. -/
def fabLands (p l : Nat) : List (Nat × Nat) :=
  let c := 3 + 20 * (p % 4) + 3 * (l % 6)
  let row := fun (y : Nat) => if p < 4 then y else 91 - y
  let t := if l < 6 then 2 else 6
  [(row t, c), (row t, c + 1), (row (t + 2), c), (row (t + 2), c + 1)]

/-- The lands TX_P, TX_N, RX_P and RX_N of west-band lane `k`: TWIN lanes 0 to 7, HOST0 lanes 0 to 3, HOST1 lanes 0 to 3. -/
def westLands (k : Nat) : List (Nat × Nat) := [(12 + 3 * k, 2), (13 + 3 * k, 2), (12 + 3 * k, 4), (13 + 3 * k, 4)]

/-- The lands of SDREFk, _P and _N. -/
def sdrefLands (k : Nat) : List (Nat × Nat) := [(12 + 3 * k, 6), (13 + 3 * k, 6)]

/-! ### Reset, supplies and clocks (R511, R542, R545, R546, R549, R558) -/

/-- RST_N_ASSERT (R511, R512): RST_N low ends every activity; the device stays in reset until it rises. -/
def rstNAssert (s : State) : State :=
  if s.pins.rstN then let t := holdReset s; { t with pins := { t.pins with rstN := false } } else s

/-- CORECLK_LOSS (R546, R558): the clock missing for 10 µs acts as RST_N low; while RST_N is low the reset just continues. -/
def coreclkLoss (s : State) : State :=
  if !s.pins.coreclk then s
  else
    let t := if s.pins.rstN then holdReset s else s
    { t with pins := { t.pins with coreclk := false } }

/-- A host port's link is down (R431). -/
def hostLinkDown (p : Nat) (s : State) : State := s.modHport p fun x => { x with link := 0 }

/-- SDREF_LOSS (R545, R546): SDREF0 and SDREF1 serve four fabric ports each, SDREF2 TWIN, SDREF3 the host ports. -/
def sdrefLoss (k : Nat) (s : State) : State :=
  let s := { s with pins := { s.pins with sdref := s.pins.sdref &&& ~~~(BitVec.ofNat 4 (2 ^ k)) } }
  if k = 3 then hostLinkDown 1 (hostLinkDown 0 s)
  else ((List.range 9).filter fun p => clockOf p == k).foldl portDown s

/-- POWER_LOSS (R512, R542): as RST_N low; without VDD_IO THERMTRIP_N is undriven. -/
def powerLoss (s : State) : State :=
  if !s.pins.powered then s
  else
    let t := holdReset s
    { t with tns := { t.tns with tjmax := 0 }
             pins := { t.pins with powered := false, rstN := false, thermtripN := true, tap := .idcode, tdo := 0, boundary := [] } }

/-- POWER_ON (R549, R553): the supplies are in regulation, with RST_N still low. -/
def powerOnNow (s : State) : State :=
  if s.pins.powered then s
  else { s with pins := { s.pins with powered := true, rstN := false, thermtripN := true, coreclk := true, sdref := 0xF } }

/-! ### JTAG (R553, R558) -/

/-- A TAP instruction is selected; only EXTEST drives the boundary. -/
def selectTap (s : State) (i : TapInstr) : State := { s with pins := { s.pins with tap := i, drive := none } }

/-- JTAG_IDCODE. -/
def jtagIdcode (s : State) : State :=
  let t := selectTap s .idcode
  { t with pins := { t.pins with tdo := 0x03100E6D } }

/-- JTAG_SAMPLE_PRELOAD: provided while RST_N is low, else BYPASS. -/
def jtagSample (pattern : List Bool) (s : State) : State :=
  if s.pins.rstN then selectTap s .bypass
  else
    let t := selectTap s .samplePreload
    { t with pins := { t.pins with boundary := pattern } }

/-- JTAG_EXTEST: the boundary drives what was preloaded, while RST_N is low. -/
def jtagExtest (s : State) : State :=
  if s.pins.rstN then selectTap s .bypass
  else { s with pins := { s.pins with tap := .extest, drive := some s.pins.boundary } }

/-- Halt mode of a platform processor. -/
def haltCpu (s : State) (k : Nat) (on : Bool) : State :=
  let bit := BitVec.ofNat 8 (2 ^ k)
  s.modPlt fun p => { p with cpuHalted := if on then p.cpuHalted ||| bit else p.cpuHalted &&& ~~~bit }

/-- JTAG_DEBUG (R510, R553): with the unlock, halt mode of the platform processors and reads of register pages; each use leaves a
token-accepted notice. -/
def jtagDebug (read : Option (Nat × Nat)) (halt : Option (Fin 8 × Bool)) (s : State) : State :=
  if !s.plt.jtagUnlock || !s.clocked then selectTap s .bypass
  else
    let s := (selectTap s .debug).pltRec 0x98
    let s := match halt with | some (k, on) => haltCpu s k.val on | none => s
    match read with
    | some (page, off) =>
      match regRead s .management page off with
      | (0, v, t) => { t with mgmtOut := t.mgmtOut ++ [.tapRead (some v)] }
      | _ => { s with mgmtOut := s.mgmtOut ++ [.tapRead none] }
    | none => s

/-! ### Management (R551) -/

/-- The hottest DRAM reading of the device, in units of 0.125 °C. -/
def hottestDram (s : State) : Nat := ((List.range 64).map fun v => (s.vault v).temp.toNat).foldl max 0

/-- PLDM_PLATFORM_MONITORING (R551): the sensors that management reads. -/
def pldmMonitoring (s : State) : State :=
  let t := s.tns
  { s with mgmtOut := s.mgmtOut ++ [.sensors t.tjmax.toNat (hottestDram s) t.pwr.toNat t.ecap.toNat t.vreq.toNat] }

/-! ### Host links (R397, R398, R430, R431) -/

/-- HOST_LINK_UP (R397): the selected mode takes effect at link-up. -/
def hostLinkUp (p : Nat) (s : State) : State :=
  let x := s.hport p
  if !x.en || x.link == 2 || (s.page (0x1A + p)).disabled then s
  else
    { s with pins := { s.pins with sdref := s.pins.sdref ||| 8 } }.modHport p fun x => { x with link := 2, rmode := x.mode }

/-- A congestion notification packet (R398): the device reduces its send rate; the packets are counted. -/
def congestion (p : Nat) (s : State) : State := if portOpen s p then s.modHport p fun x => { x with cnps := x.cnps + 1 } else s

/-- A pause frame (R398): with PFC enabled it pauses the port's transmission for its quanta; 0 resumes. -/
def pauseFrame (p : Nat) (quanta : BitVec 16) (s : State) : State :=
  if portOpen s p && (s.hport p).pfc then s.modHport p fun x => { x with paused := quanta } else s

/-! ### The commands -/

/-- RST_N_ASSERT (R511). -/
def execRstNAssert (s : State) : Result := .next (rstNAssert s)
/-- PLDM_PLATFORM_MONITORING (R551): management answers while RST_N is high. -/
def execPldmPlatformMonitoring (s : State) : Result := .next (if s.clocked then pldmMonitoring s else s)
/-- CORECLK_LOSS (R546). -/
def execCoreclkLoss (s : State) : Result := .next (coreclkLoss s)
/-- SDREF_LOSS (R546). -/
def execSdrefLoss (k : Fin 4) (s : State) : Result := .next (if s.pins.powered then sdrefLoss k.val s else s)
/-- POWER_LOSS (R542). -/
def execPowerLoss (s : State) : Result := .next (powerLoss s)
/-- POWER_ON (R549). -/
def execPowerOn (s : State) : Result := .next (powerOnNow s)
/-- JTAG_BYPASS (R553). -/
def execJtagBypass (s : State) : Result := .next (if s.pins.powered then selectTap s .bypass else s)
/-- JTAG_IDCODE (R553). -/
def execJtagIdcode (s : State) : Result := .next (if s.pins.powered then jtagIdcode s else s)
/-- JTAG_SAMPLE_PRELOAD (R553). -/
def execJtagSamplePreload (pattern : List Bool) (s : State) : Result := .next (if s.pins.powered then jtagSample pattern s else s)
/-- JTAG_EXTEST (R553). -/
def execJtagExtest (s : State) : Result := .next (if s.pins.powered then jtagExtest s else s)
/-- JTAG_DEBUG (R553). -/
def execJtagDebug (read : Option (Nat × Nat)) (halt : Option (Fin 8 × Bool)) (s : State) : Result :=
  .next (if s.pins.powered then jtagDebug read halt s else s)
/-- TAP_RESET (R553, R558): TRST_N low; the unlock stays in force. -/
def execTapReset (s : State) : Result := .next (if s.pins.powered then selectTap s .idcode else s)
/-- HOST_LINK_UP (R397). -/
def execHostLinkUp (p : HostPortId) (s : State) : Result := .next (if s.live then hostLinkUp p.val s else s)
/-- HOST_LINK_DOWN (R431): the sessions' queue pairs run their retry budget; QP_ERROR ends it. -/
def execHostLinkDown (p : HostPortId) (s : State) : Result := .next (if s.live then hostLinkDown p.val s else s)
/-- CONGESTION_NOTIFICATION_PACKET (R398). -/
def execCongestionNotificationPacket (p : HostPortId) (s : State) : Result := .next (if s.live then congestion p.val s else s)
/-- PRIORITY_FLOW_CONTROL_FRAME (R398). -/
def execPriorityFlowControlFrame (p : HostPortId) (quanta : BitVec 16) (s : State) : Result :=
  .next (if s.live then pauseFrame p.val quanta s else s)

end Sys2Proof.Machine
end

