-- ==== Sys2Proof/Machine/Dispatch.lean ====
section
/-!
DEFINITION. The dispatch of a command to its meaning: one arm per constructor, one direct call each.
-/

namespace Sys2Proof.Machine

/-- The meaning of each command. -/
def exec (i : Instr) (s : State) : Host.Outcome State Fault Refusal :=
  match i with
  | .instructionStreamFill c => Sys2Proof.Machine.execInstructionStreamFill c s
  | .instructionFetch c uncorrectable => Sys2Proof.Machine.execInstructionFetch c uncorrectable s
  | .bundleIssue c fault => Sys2Proof.Machine.execBundleIssue c fault s
  | .nop c => Sys2Proof.Machine.execNop c s
  | .addi c sd sa imm => Sys2Proof.Machine.execAddi c sd sa imm s
  | .add c sd sa sb => Sys2Proof.Machine.execAdd c sd sa sb s
  | .sub c sd sa sb => Sys2Proof.Machine.execSub c sd sa sb s
  | .and c sd sa sb => Sys2Proof.Machine.execAnd c sd sa sb s
  | .or c sd sa sb => Sys2Proof.Machine.execOr c sd sa sb s
  | .xor c sd sa sb => Sys2Proof.Machine.execXor c sd sa sb s
  | .shli c sd sa imm => Sys2Proof.Machine.execShli c sd sa imm s
  | .shri c sd sa imm => Sys2Proof.Machine.execShri c sd sa imm s
  | .movi c sd imm => Sys2Proof.Machine.execMovi c sd imm s
  | .shlor c sd sa imm => Sys2Proof.Machine.execShlor c sd sa imm s
  | .mul c sd sa sb => Sys2Proof.Machine.execMul c sd sa sb s
  | .sld c sd sa imm => Sys2Proof.Machine.execSld c sd sa imm s
  | .sst c sd sa imm => Sys2Proof.Machine.execSst c sd sa imm s
  | .cmplt c sd sa sb => Sys2Proof.Machine.execCmplt c sd sa sb s
  | .cmpeq c sd sa sb => Sys2Proof.Machine.execCmpeq c sd sa sb s
  | .jmp c imm => Sys2Proof.Machine.execJmp c imm s
  | .bz c sa imm => Sys2Proof.Machine.execBz c sa imm s
  | .bnz c sa imm => Sys2Proof.Machine.execBnz c sa imm s
  | .loop c sd imm => Sys2Proof.Machine.execLoop c sd imm s
  | .stepset c sa => Sys2Proof.Machine.execStepset c sa s
  | .stepinc c => Sys2Proof.Machine.execStepinc c s
  | .phase c imm => Sys2Proof.Machine.execPhase c imm s
  | .testwin c => Sys2Proof.Machine.execTestwin c s
  | .trap c imm => Sys2Proof.Machine.execTrap c imm s
  | .endProgram c => Sys2Proof.Machine.execEndProgram c s
  | .pass c m => Sys2Proof.Machine.execPass c m s
  | .weightBroadcast c arr half row => Sys2Proof.Machine.execWeightBroadcast c arr half row s
  | .passComplete c arr half fault => Sys2Proof.Machine.execPassComplete c arr half fault s
  | .chainReplay c arr half fault => Sys2Proof.Machine.execChainReplay c arr half fault s
  | .arrayArbitration c arr half agree otherMismatch => Sys2Proof.Machine.execArrayArbitration c arr half agree otherMismatch s
  | .iadd c f => Sys2Proof.Machine.execIadd c f s
  | .isub c f => Sys2Proof.Machine.execIsub c f s
  | .icmp c f => Sys2Proof.Machine.execIcmp c f s
  | .imin c f => Sys2Proof.Machine.execImin c f s
  | .imax c f => Sys2Proof.Machine.execImax c f s
  | .vecAnd c f => Sys2Proof.Machine.execVecAnd c f s
  | .vecOr c f => Sys2Proof.Machine.execVecOr c f s
  | .vecXor c f => Sys2Proof.Machine.execVecXor c f s
  | .shl c f => Sys2Proof.Machine.execShl c f s
  | .shr c f => Sys2Proof.Machine.execShr c f s
  | .sel c f => Sys2Proof.Machine.execSel c f s
  | .fadd c f => Sys2Proof.Machine.execFadd c f s
  | .fsub c f => Sys2Proof.Machine.execFsub c f s
  | .fmul c f => Sys2Proof.Machine.execFmul c f s
  | .fma c f => Sys2Proof.Machine.execFma c f s
  | .fmin c f => Sys2Proof.Machine.execFmin c f s
  | .fmax c f => Sys2Proof.Machine.execFmax c f s
  | .fcmp c f => Sys2Proof.Machine.execFcmp c f s
  | .fabs c f => Sys2Proof.Machine.execFabs c f s
  | .fneg c f => Sys2Proof.Machine.execFneg c f s
  | .frcp c f => Sys2Proof.Machine.execFrcp c f s
  | .frsq c f => Sys2Proof.Machine.execFrsq c f s
  | .fsqrt c f => Sys2Proof.Machine.execFsqrt c f s
  | .fexp2 c f => Sys2Proof.Machine.execFexp2 c f s
  | .flog2 c f => Sys2Proof.Machine.execFlog2 c f s
  | .cvt c f => Sys2Proof.Machine.execCvt c f s
  | .vld c f => Sys2Proof.Machine.execVld c f s
  | .vst c f => Sys2Proof.Machine.execVst c f s
  | .pack c f => Sys2Proof.Machine.execPack c f s
  | .packx c f => Sys2Proof.Machine.execPackx c f s
  | .unpack c f => Sys2Proof.Machine.execUnpack c f s
  | .rsum c f => Sys2Proof.Machine.execRsum c f s
  | .rssq c f => Sys2Proof.Machine.execRssq c f s
  | .rmax c f => Sys2Proof.Machine.execRmax c f s
  | .rmin c f => Sys2Proof.Machine.execRmin c f s
  | .bcast c f => Sys2Proof.Machine.execBcast c f s
  | .rot c f => Sys2Proof.Machine.execRot c f s
  | .ilv c f => Sys2Proof.Machine.execIlv c f s
  | .dilv c f => Sys2Proof.Machine.execDilv c f s
  | .ard c f => Sys2Proof.Machine.execArd c f s
  | .awr c f => Sys2Proof.Machine.execAwr c f s
  | .adrn c f => Sys2Proof.Machine.execAdrn c f s
  | .sard c f => Sys2Proof.Machine.execSard c f s
  | .copy c f => Sys2Proof.Machine.execCopy c f s
  | .scopy c f => Sys2Proof.Machine.execScopy c f s
  | .transferComplete c q => Sys2Proof.Machine.execTransferComplete c q s
  | .gather c q => Sys2Proof.Machine.execGather c q s
  | .openVersion c q => Sys2Proof.Machine.execOpenVersion c q s
  | .publish c q => Sys2Proof.Machine.execPublish c q s
  | .lookup c d poisoned => Sys2Proof.Machine.execLookup c d poisoned s
  | .pin c d poisoned => Sys2Proof.Machine.execPin c d poisoned s
  | .importRows c d poisoned => Sys2Proof.Machine.execImportRows c d poisoned s
  | .exportRows c d poisoned => Sys2Proof.Machine.execExportRows c d poisoned s
  | .grad c d poisoned => Sys2Proof.Machine.execGrad c d poisoned s
  | .sealBank c d poisoned => Sys2Proof.Machine.execSealBank c d poisoned s
  | .applyBank c d poisoned => Sys2Proof.Machine.execApplyBank c d poisoned s
  | .commit c d poisoned => Sys2Proof.Machine.execCommit c d poisoned s
  | .snap c d poisoned => Sys2Proof.Machine.execSnap c d poisoned s
  | .put c e adaptive d poisoned => Sys2Proof.Machine.execPut c e adaptive d poisoned s
  | .reduceScatter c e adaptive d poisoned => Sys2Proof.Machine.execReduceScatter c e adaptive d poisoned s
  | .allGather c e adaptive d poisoned => Sys2Proof.Machine.execAllGather c e adaptive d poisoned s
  | .allReduce c e adaptive d poisoned => Sys2Proof.Machine.execAllReduce c e adaptive d poisoned s
  | .exchangeComplete step descId => Sys2Proof.Machine.execExchangeComplete step descId s
  | .wait c tok consume src imm => Sys2Proof.Machine.execWait c tok consume src imm s
  | .signal c tok dst inc => Sys2Proof.Machine.execSignal c tok dst inc s
  | .bar c grp => Sys2Proof.Machine.execBar c grp s
  | .tset c tok val => Sys2Proof.Machine.execTset c tok val s
  | .claim c ctr sd => Sys2Proof.Machine.execClaim c ctr sd s
  | .wset c ctr sa => Sys2Proof.Machine.execWset c ctr sa s
  | .tokenIncrement a => Sys2Proof.Machine.execTokenIncrement a s
  | .waitTimeout c => Sys2Proof.Machine.execWaitTimeout c s
  | .barrierTimeout c => Sys2Proof.Machine.execBarrierTimeout c s
  | .rendezvousTimeout c => Sys2Proof.Machine.execRendezvousTimeout c s
  | .barrierArrivalPacket a grp gen => Sys2Proof.Machine.execBarrierArrivalPacket a grp gen s
  | .barrierReleasePacket a u => Sys2Proof.Machine.execBarrierReleasePacket a u s
  | .seqCtrlResume c => Sys2Proof.Machine.execSeqCtrlResume c s
  | .seqCtrlStart c => Sys2Proof.Machine.execSeqCtrlStart c s
  | .vrefuseSet c => Sys2Proof.Machine.execVrefuseSet c s
  | .pairDue p => Sys2Proof.Machine.execPairDue p s
  | .testWindowEnd p forcedCore sigEqual parityCore => Sys2Proof.Machine.execTestWindowEnd p forcedCore sigEqual parityCore s
  | .forcedTestWindow c => Sys2Proof.Machine.execForcedTestWindow c s
  | .testOverdue p => Sys2Proof.Machine.execTestOverdue p s
  | .campionUnitTest u pass => Sys2Proof.Machine.execCampionUnitTest u pass s
  | .referenceRecompute p unit sub coreOk partnerOk coreRerunOk partnerRerunOk => Sys2Proof.Machine.execReferenceRecompute p unit sub coreOk partnerOk coreRerunOk partnerRerunOk s
  | .vaultRead addr first second => Sys2Proof.Machine.execVaultRead addr first second s
  | .vaultWrite addr data psn pathBad merge => Sys2Proof.Machine.execVaultWrite addr data psn pathBad merge s
  | .commandPathTimeout v die => Sys2Proof.Machine.execCommandPathTimeout v die s
  | .detectionSummary v => Sys2Proof.Machine.execDetectionSummary v s
  | .dramScrubRead v first second => Sys2Proof.Machine.execDramScrubRead v first second s
  | .sramScrubRead w b => Sys2Proof.Machine.execSramScrubRead w b s
  | .refresh v die bank => Sys2Proof.Machine.execRefresh v die bank s
  | .dramTempSample v temps => Sys2Proof.Machine.execDramTempSample v temps s
  | .selfTestComplete v checkersOk failing => Sys2Proof.Machine.execSelfTestComplete v checkersOk failing s
  | .vltInjArm v val => Sys2Proof.Machine.execVltInjArm v val s
  | .ringEntryRead sid ring => Sys2Proof.Machine.execRingEntryRead sid ring s
  | .entryReread sid ring => Sys2Proof.Machine.execEntryReread sid ring s
  | .batchValidation sid ring => Sys2Proof.Machine.execBatchValidation sid ring s
  | .prefetchMessage m => Sys2Proof.Machine.execPrefetchMessage m s
  | .countMessage m => Sys2Proof.Machine.execCountMessage m s
  | .grantPacket a g => Sys2Proof.Machine.execGrantPacket a g s
  | .lookupPayload m e fault => Sys2Proof.Machine.execLookupPayload m e fault s
  | .tierFetchComplete table lidx image => Sys2Proof.Machine.execTierFetchComplete table lidx image s
  | .tierFetchTimeout table lidx => Sys2Proof.Machine.execTierFetchTimeout table lidx s
  | .backgroundTierFetch table => Sys2Proof.Machine.execBackgroundTierFetch table s
  | .lookupResponse m => Sys2Proof.Machine.execLookupResponse m s
  | .lookupComplete batch descId => Sys2Proof.Machine.execLookupComplete batch descId s
  | .bankOpen table step => Sys2Proof.Machine.execBankOpen table step s
  | .contributionMessage m => Sys2Proof.Machine.execContributionMessage m s
  | .endMarker m => Sys2Proof.Machine.execEndMarker m s
  | .sealDecision table step t => Sys2Proof.Machine.execSealDecision table step t s
  | .applyComplete table step => Sys2Proof.Machine.execApplyComplete table step s
  | .bankClear table step => Sys2Proof.Machine.execBankClear table step s
  | .signalDetect p => Sys2Proof.Machine.execSignalDetect p s
  | .trainLock p lanesBad peerWidth laneGen => Sys2Proof.Machine.execTrainLock p lanesBad peerWidth laneGen s
  | .trainTimeout p => Sys2Proof.Machine.execTrainTimeout p s
  | .helloPacket a h => Sys2Proof.Machine.execHelloPacket a h s
  | .authPacket a x => Sys2Proof.Machine.execAuthPacket a x s
  | .linkAck p seq => Sys2Proof.Machine.execLinkAck p seq s
  | .linkNak p seq => Sys2Proof.Machine.execLinkNak p seq s
  | .creditReturn p vc dl n => Sys2Proof.Machine.execCreditReturn p vc dl n s
  | .linkRetrain p errLanes => Sys2Proof.Machine.execLinkRetrain p errLanes s
  | .dataPacket p k => Sys2Proof.Machine.execDataPacket p k s
  | .packetTransit p f => Sys2Proof.Machine.execPacketTransit p f s
  | .releasePacket p f credits => Sys2Proof.Machine.execReleasePacket p f credits s
  | .donePacket a step descId => Sys2Proof.Machine.execDonePacket a step descId s
  | .failPacket a step descId code => Sys2Proof.Machine.execFailPacket a step descId code s
  | .linkDown p => Sys2Proof.Machine.execLinkDown p s
  | .creditTimeout p vc dl => Sys2Proof.Machine.execCreditTimeout p vc dl s
  | .linkAbsentTimeout p => Sys2Proof.Machine.execLinkAbsentTimeout p s
  | .fabRetrain p => Sys2Proof.Machine.execFabRetrain p s
  | .digestPageCrc page => Sys2Proof.Machine.execDigestPageCrc page s
  | .digestCompare region peers diffPages => Sys2Proof.Machine.execDigestCompare region peers diffPages s
  | .mirrorPageSend => Sys2Proof.Machine.execMirrorPageSend s
  | .checkpointCommit => Sys2Proof.Machine.execCheckpointCommit s
  | .journalApply => Sys2Proof.Machine.execJournalApply s
  | .hostCheckpointStream => Sys2Proof.Machine.execHostCheckpointStream s
  | .shlHello h versions nonce => Sys2Proof.Machine.execShlHello h versions nonce s
  | .shlAuth h verifies level certLevel => Sys2Proof.Machine.execShlAuth h verifies level certLevel s
  | .attach h sid ticket => Sys2Proof.Machine.execAttach h sid ticket s
  | .detach h => Sys2Proof.Machine.execDetach h s
  | .bufOpen h b => Sys2Proof.Machine.execBufOpen h b s
  | .bufClose h buf => Sys2Proof.Machine.execBufClose h buf s
  | .ringOpen h ring buf off n qp => Sys2Proof.Machine.execRingOpen h ring buf off n qp s
  | .ringClose h ring => Sys2Proof.Machine.execRingClose h ring s
  | .evtOpen h buf off n => Sys2Proof.Machine.execEvtOpen h buf off n s
  | .xferIn h b => Sys2Proof.Machine.execXferIn h b s
  | .xferOut h b => Sys2Proof.Machine.execXferOut h b s
  | .xferComplete sid xid data => Sys2Proof.Machine.execXferComplete sid xid data s
  | .resolveResend h xid => Sys2Proof.Machine.execResolveResend h xid s
  | .resolveAbort h xid => Sys2Proof.Machine.execResolveAbort h xid s
  | .tierSrc h table first last buf hoff stride => Sys2Proof.Machine.execTierSrc h table first last buf hoff stride s
  | .ckptDest h buf off => Sys2Proof.Machine.execCkptDest h buf off s
  | .load h b => Sys2Proof.Machine.execLoad h b s
  | .jobStart h => Sys2Proof.Machine.execJobStart h s
  | .jobStop h => Sys2Proof.Machine.execJobStop h s
  | .jobCtrlReset h => Sys2Proof.Machine.execJobCtrlReset h s
  | .regRd h page off n => Sys2Proof.Machine.execRegRd h page off n s
  | .regWr h page off vals => Sys2Proof.Machine.execRegWr h page off vals s
  | .rdmaWrite sid buf off data => Sys2Proof.Machine.execRdmaWrite sid buf off data s
  | .rdmaRead sid qp pageOff => Sys2Proof.Machine.execRdmaRead sid qp pageOff s
  | .doorbell sid ring p => Sys2Proof.Machine.execDoorbell sid ring p s
  | .eventConsumerWrite sid c => Sys2Proof.Machine.execEventConsumerWrite sid c s
  | .qpError sid => Sys2Proof.Machine.execQpError sid s
  | .sessionExpiry sid => Sys2Proof.Machine.execSessionExpiry sid s
  | .hostRetrain p => Sys2Proof.Machine.execHostRetrain p s
  | .errorRingDelivery => Sys2Proof.Machine.execErrorRingDelivery s
  | .unitHistoryWrite flashOk => Sys2Proof.Machine.execUnitHistoryWrite flashOk s
  | .unitHistoryRetry flashOk => Sys2Proof.Machine.execUnitHistoryRetry flashOk s
  | .permanentClassification uclass uinst loc code => Sys2Proof.Machine.execPermanentClassification uclass uinst loc code s
  | .tansyPeriod m => Sys2Proof.Machine.execTansyPeriod m s
  | .capUnattainable => Sys2Proof.Machine.execCapUnattainable s
  | .mgCapWrite a w => Sys2Proof.Machine.execMgCapWrite a w s
  | .rtCapWrite a w => Sys2Proof.Machine.execRtCapWrite a w s
  | .alertCapWrite a w => Sys2Proof.Machine.execAlertCapWrite a w s
  | .capAlertAssert => Sys2Proof.Machine.execCapAlertAssert s
  | .capAlertDeassert => Sys2Proof.Machine.execCapAlertDeassert s
  | .droopCut c => Sys2Proof.Machine.execDroopCut c s
  | .droopCutEnd c => Sys2Proof.Machine.execDroopCutEnd c s
  | .droopRecord => Sys2Proof.Machine.execDroopRecord s
  | .vappliedWrite a mv => Sys2Proof.Machine.execVappliedWrite a mv s
  | .voltageNotApplied => Sys2Proof.Machine.execVoltageNotApplied s
  | .marginMeasurement slackPs => Sys2Proof.Machine.execMarginMeasurement slackPs s
  | .logicTempSample temps => Sys2Proof.Machine.execLogicTempSample temps s
  | .thermalTrip => Sys2Proof.Machine.execThermalTrip s
  | .coolantLossStop => Sys2Proof.Machine.execCoolantLossStop s
  | .resume => Sys2Proof.Machine.execResume s
  | .stopExpired => Sys2Proof.Machine.execStopExpired s
  | .rstNAssert => Sys2Proof.Machine.execRstNAssert s
  | .coldReset f pos => Sys2Proof.Machine.execColdReset f pos s
  | .bootRomStart => Sys2Proof.Machine.execBootRomStart s
  | .bootWatchdog => Sys2Proof.Machine.execBootWatchdog s
  | .warmReset f => Sys2Proof.Machine.execWarmReset f s
  | .jobReset => Sys2Proof.Machine.execJobReset s
  | .coreReset c => Sys2Proof.Machine.execCoreReset c s
  | .pltRstCores a cores => Sys2Proof.Machine.execPltRstCores a cores s
  | .pltRstWarm a => Sys2Proof.Machine.execPltRstWarm a s
  | .pltRstJob a => Sys2Proof.Machine.execPltRstJob a s
  | .pldmFirmwareUpdate u len => Sys2Proof.Machine.execPldmFirmwareUpdate u len s
  | .fwuStart a val u => Sys2Proof.Machine.execFwuStart a val u s
  | .fwuAbort a => Sys2Proof.Machine.execFwuAbort a s
  | .firmwareUpdateComplete => Sys2Proof.Machine.execFirmwareUpdateComplete s
  | .attestationRequest nonce => Sys2Proof.Machine.execAttestationRequest nonce s
  | .attStart a val => Sys2Proof.Machine.execAttStart a val s
  | .networkConfigWrite p n => Sys2Proof.Machine.execNetworkConfigWrite p n s
  | .operatorRootWrite roots => Sys2Proof.Machine.execOperatorRootWrite roots s
  | .tokenWrite t => Sys2Proof.Machine.execTokenWrite t s
  | .pldmPlatformMonitoring => Sys2Proof.Machine.execPldmPlatformMonitoring s
  | .coreclkLoss => Sys2Proof.Machine.execCoreclkLoss s
  | .sdrefLoss k => Sys2Proof.Machine.execSdrefLoss k s
  | .powerLoss => Sys2Proof.Machine.execPowerLoss s
  | .jtagBypass => Sys2Proof.Machine.execJtagBypass s
  | .jtagIdcode => Sys2Proof.Machine.execJtagIdcode s
  | .jtagSamplePreload pattern => Sys2Proof.Machine.execJtagSamplePreload pattern s
  | .jtagExtest => Sys2Proof.Machine.execJtagExtest s
  | .jtagDebug read halt => Sys2Proof.Machine.execJtagDebug read halt s
  | .tapReset => Sys2Proof.Machine.execTapReset s
  | .errStatWrite a page val setSame => Sys2Proof.Machine.execErrStatWrite a page val setSame s
  | .errForceGo a page val => Sys2Proof.Machine.execErrForceGo a page val s
  | .ctrlPclr a page => Sys2Proof.Machine.execCtrlPclr a page s
  | .errRecRead a page => Sys2Proof.Machine.execErrRecRead a page s
  | .progRead a page => Sys2Proof.Machine.execProgRead a page s
  | .readClear a page off => Sys2Proof.Machine.execReadClear a page off s
  | .registerWrite a page off val => Sys2Proof.Machine.execRegisterWrite a page off val s
  | .coreclkReturn f pos => Sys2Proof.Machine.execCoreclkReturn f pos s
  | .powerOn => Sys2Proof.Machine.execPowerOn s
  | .hostLinkUp p => Sys2Proof.Machine.execHostLinkUp p s
  | .hostLinkDown p => Sys2Proof.Machine.execHostLinkDown p s
  | .congestionNotificationPacket p => Sys2Proof.Machine.execCongestionNotificationPacket p s
  | .priorityFlowControlFrame p quanta => Sys2Proof.Machine.execPriorityFlowControlFrame p quanta s
  | .platformAccess a => Sys2Proof.Machine.execPlatformAccess a s
  | .pinImportExportComplete descId tok c => Sys2Proof.Machine.execPinImportExportComplete descId tok c s

end Sys2Proof.Machine
end

