-- ==== Sys2Proof/Safety.lean ====
section
/-!
DEFINITION. The terms that statements use: the canonical form of the memory, the invariant, when a bundle of one operation issues at
once, and what an issue does to its core whatever the operation.
-/

namespace Sys2Proof.Machine

/-- The memory is in canonical form: addresses strictly rising and no byte listed that an unlisted address reads as. -/
def Memory.wf (m : SMap Byte) : Bool := mwf 0 m

/-! ### Issue of a bundle (R135, R138, R148, R173) -/

/-- The core and the bundle of a command that is a bundle operation: the bundle whose only operation it is (R140, R142). -/
def opBundle (i : Instr) : Option (CoreId × Bundle) :=
  match i with
  | .nop c => some (c, scalarBundle nopScalar)
  | .add c sd sa sb => some (c, scalarBundle ⟨0x02, sd, sa, sb ++ (0 : BitVec 20)⟩)
  | .sub c sd sa sb => some (c, scalarBundle ⟨0x03, sd, sa, sb ++ (0 : BitVec 20)⟩)
  | .and c sd sa sb => some (c, scalarBundle ⟨0x04, sd, sa, sb ++ (0 : BitVec 20)⟩)
  | .or c sd sa sb => some (c, scalarBundle ⟨0x05, sd, sa, sb ++ (0 : BitVec 20)⟩)
  | .xor c sd sa sb => some (c, scalarBundle ⟨0x06, sd, sa, sb ++ (0 : BitVec 20)⟩)
  | .mul c sd sa sb => some (c, scalarBundle ⟨0x0B, sd, sa, sb ++ (0 : BitVec 20)⟩)
  | .cmplt c sd sa sb => some (c, scalarBundle ⟨0x0E, sd, sa, sb ++ (0 : BitVec 20)⟩)
  | .cmpeq c sd sa sb => some (c, scalarBundle ⟨0x0F, sd, sa, sb ++ (0 : BitVec 20)⟩)
  | .addi c sd sa imm => some (c, scalarBundle ⟨0x01, sd, sa, imm⟩)
  | .shli c sd sa imm => some (c, scalarBundle ⟨0x07, sd, sa, imm⟩)
  | .shri c sd sa imm => some (c, scalarBundle ⟨0x08, sd, sa, imm⟩)
  | .shlor c sd sa imm => some (c, scalarBundle ⟨0x0A, sd, sa, imm⟩)
  | .sld c sd sa imm => some (c, scalarBundle ⟨0x0C, sd, sa, imm⟩)
  | .sst c sd sa imm => some (c, scalarBundle ⟨0x0D, sd, sa, imm⟩)
  | .movi c sd imm => some (c, scalarBundle ⟨0x09, sd, 0, imm⟩)
  | .jmp c imm => some (c, scalarBundle ⟨0x10, 0, 0, imm⟩)
  | .bz c sa imm => some (c, scalarBundle ⟨0x11, 0, sa, imm⟩)
  | .bnz c sa imm => some (c, scalarBundle ⟨0x12, 0, sa, imm⟩)
  | .loop c sd imm => some (c, scalarBundle ⟨0x13, sd, 0, imm⟩)
  | .stepset c sa => some (c, scalarBundle ⟨0x14, 0, sa, 0⟩)
  | .stepinc c => some (c, scalarBundle ⟨0x15, 0, 0, 0⟩)
  | .phase c imm => some (c, scalarBundle ⟨0x16, 0, 0, imm⟩)
  | .testwin c => some (c, scalarBundle ⟨0x17, 0, 0, 0⟩)
  | .trap c imm => some (c, scalarBundle ⟨0x18, 0, 0, imm⟩)
  | .endProgram c => some (c, scalarBundle ⟨0x19, 0, 0, 0⟩)
  | .pass c m => some (c, matrixBundle { m with op := 1 })
  | .iadd c f => some (c, vectorBundle (f.slot 0x01))
  | .isub c f => some (c, vectorBundle (f.slot 0x02))
  | .icmp c f => some (c, vectorBundle (f.slot 0x03))
  | .imin c f => some (c, vectorBundle (f.slot 0x04))
  | .imax c f => some (c, vectorBundle (f.slot 0x05))
  | .vecAnd c f => some (c, vectorBundle (f.slot 0x06))
  | .vecOr c f => some (c, vectorBundle (f.slot 0x07))
  | .vecXor c f => some (c, vectorBundle (f.slot 0x08))
  | .shl c f => some (c, vectorBundle (f.slot 0x09))
  | .shr c f => some (c, vectorBundle (f.slot 0x0A))
  | .sel c f => some (c, vectorBundle (f.slot 0x0B))
  | .fadd c f => some (c, vectorBundle (f.slot 0x10))
  | .fsub c f => some (c, vectorBundle (f.slot 0x11))
  | .fmul c f => some (c, vectorBundle (f.slot 0x12))
  | .fma c f => some (c, vectorBundle (f.slot 0x13))
  | .fmin c f => some (c, vectorBundle (f.slot 0x14))
  | .fmax c f => some (c, vectorBundle (f.slot 0x15))
  | .fcmp c f => some (c, vectorBundle (f.slot 0x16))
  | .fabs c f => some (c, vectorBundle (f.slot 0x17))
  | .fneg c f => some (c, vectorBundle (f.slot 0x18))
  | .frcp c f => some (c, vectorBundle (f.slot 0x1C))
  | .frsq c f => some (c, vectorBundle (f.slot 0x1D))
  | .fsqrt c f => some (c, vectorBundle (f.slot 0x1E))
  | .fexp2 c f => some (c, vectorBundle (f.slot 0x1F))
  | .flog2 c f => some (c, vectorBundle (f.slot 0x20))
  | .cvt c f => some (c, vectorBundle (f.slot 0x24))
  | .vld c f => some (c, vectorBundle (f.slot 0x28))
  | .vst c f => some (c, vectorBundle (f.slot 0x29))
  | .pack c f => some (c, vectorBundle (f.slot 0x2C))
  | .packx c f => some (c, vectorBundle (f.slot 0x2D))
  | .unpack c f => some (c, vectorBundle (f.slot 0x2E))
  | .rsum c f => some (c, vectorBundle (f.slot 0x30))
  | .rssq c f => some (c, vectorBundle (f.slot 0x31))
  | .rmax c f => some (c, vectorBundle (f.slot 0x32))
  | .rmin c f => some (c, vectorBundle (f.slot 0x33))
  | .bcast c f => some (c, vectorBundle (f.slot 0x34))
  | .rot c f => some (c, vectorBundle (f.slot 0x35))
  | .ilv c f => some (c, vectorBundle (f.slot 0x36))
  | .dilv c f => some (c, vectorBundle (f.slot 0x37))
  | .ard c f => some (c, vectorBundle (f.slot 0x38))
  | .awr c f => some (c, vectorBundle (f.slot 0x39))
  | .adrn c f => some (c, vectorBundle (f.slot 0x3A))
  | .sard c f => some (c, vectorBundle (f.slot 0x3C))
  | .copy c f => some (c, moveBundle (f.slot 1))
  | .scopy c f => some (c, moveBundle (f.slot 2))
  | .wait c tok consume src imm =>
    some (c, syncBundle ⟨1, tok ++ BitVec.ofBool consume ++ BitVec.ofBool src ++ imm⟩)
  | .signal c tok dst inc => some (c, syncBundle ⟨2, tok ++ dst ++ (0 : BitVec 1) ++ inc⟩)
  | .bar c grp => some (c, syncBundle ⟨3, grp ++ (0 : BitVec 24)⟩)
  | .tset c tok val => some (c, syncBundle ⟨4, tok ++ (0 : BitVec 2) ++ val⟩)
  | .claim c ctr sd => some (c, syncBundle ⟨5, ctr ++ sd ++ (0 : BitVec 19)⟩)
  | .wset c ctr sa => some (c, syncBundle ⟨6, ctr ++ sa ++ (0 : BitVec 19)⟩)
  | _ => none

/-- Bundle b issues on core c at once: the core looks at it, no cause of R174 holds, nothing of R135 holds it, and no error stands in an
SRAM word that it reads (R197). -/
def IssuesNow (s : State) (c : Nat) (b : Bundle) : Prop :=
  canLook s c = true ∧ lowestCause (bundleCauses s c b false) = none ∧ orderWaits c (s.core c) b = false ∧
    (bundleHolds s c (s.core c) b).any = false ∧ bundleFetch c b s = s

/-- A bundle operation issues at once. -/
def Issues (s : State) (i : Instr) : Prop :=
  match opBundle i with
  | some (c, b) => IssuesNow s c b
  | none => False

/-- Core c looks at a bundle now, no taken branch delays it, and the scalar registers named have received their values. -/
def Ready (s : State) (c : Nat) (rs : List (BitVec 5)) : Prop :=
  canLook s c = true ∧ (s.core c).earliest ≤ s.cycle ∧ ∀ r ∈ rs, mget 0 (s.core c).sReady r.toNat ≤ s.cycle

/-- What every issue in cycle `now` does to its core: the next bundle, the next issue number, a running core without hold, timer and
breakpoint skip, that issues no more in this cycle. -/
def Core.retire (k : Core) (now : Nat) : Core :=
  { k with
    pc := k.pc + 1, seqNo := k.seqNo + 1, st := .running, issuedAt := some now, heldAt := none, waitStart := none, brkSkip := false,
    fetched := k.fetched.drop 1 }

/-! ### Frames -/

/-- What a command that concerns core c alone leaves: memory, marks, accumulator entries, work counters, barriers, the job and every other
core. -/
def CoreFrame (c : CoreId) (s t : State) : Prop :=
  t.mem = s.mem ∧ t.marks = s.marks ∧ t.acc = s.acc ∧ t.workCtrs = s.workCtrs ∧ t.barriers = s.barriers ∧ t.job = s.job ∧
    ∀ d : CoreId, d ≠ c → t.core d = s.core d

/-- What a vector operation leaves of its own core: scalar registers, tokens, the step and phase, its queues and descriptors; and it goes
to the next bundle. -/
def VectorKeeps (k k' : Core) : Prop :=
  k'.sregs = k.sregs ∧ k'.tokens = k.tokens ∧ k'.step = k.step ∧ k'.phase = k.phase ∧ k'.queues = k.queues ∧ k'.descs = k.descs ∧
    k'.arrays = k.arrays ∧ k'.pc = k.pc + 1

/-- A vector operation that issues at once writes vector register A alone: lane n is `new n` where the mask bit is set and keeps its value
elsewhere (R119); memory, entries, masks, other registers and other cores stay. -/
def WritesLanes (s : State) (c : CoreId) (i : Instr) (f : VFields) (new : Nat → Lane) : Prop :=
  Issues s i →
    ∃ t, exec i s = .next t ∧ CoreFrame c s t ∧ VectorKeeps (s.core c) (t.core c) ∧ (t.core c).masks = (s.core c).masks ∧
      (∀ n < 256, laneAt ((t.core c).vreg f.a) n =
        if ((s.core c).mreg f.mask.toNat).getLsbD n then new n else laneAt ((s.core c).vreg f.a) n) ∧
      ∀ r, r ≠ f.a → (t.core c).vreg r = (s.core c).vreg r

/-- A comparison that issues at once writes mask register A[2:0] alone, m0 excepted: bit n is `new n` where the mask bit is set and stays
elsewhere (R117, R119, R153). -/
def WritesMask (s : State) (c : CoreId) (i : Instr) (f : VFields) (new : Nat → Bool) : Prop :=
  Issues s i →
    ∃ t, exec i s = .next t ∧ CoreFrame c s t ∧ VectorKeeps (s.core c) (t.core c) ∧ (t.core c).vregs = (s.core c).vregs ∧
      (f.a.toNat % 8 ≠ 0 → ∀ n < 256, ((t.core c).mreg (f.a.toNat % 8)).getLsbD n =
        if ((s.core c).mreg f.mask.toNat).getLsbD n then new n else ((s.core c).mreg (f.a.toNat % 8)).getLsbD n) ∧
      ∀ r, r ≠ f.a.toNat % 8 ∨ r = 0 → (t.core c).mreg r = (s.core c).mreg r

/-- A vector operation that issues at once stores bytes at offsets of its core's tile store (R107): where no pass reads the ranges and no
earlier write waits on them (R101), and the ranges are apart, they hold the bytes; every other byte, the entries, the vector and mask
registers and every other core stay. -/
def WritesTile (s : State) (c : CoreId) (i : Instr) (ws : List (Nat × List Byte)) : Prop :=
  Issues s i →
    (∀ w ∈ ws, (s.core c).writeWaits c (s.core c).seqNo (tileAddr c w.1) w.2.length = false ∧
      (s.core c).heldMeets (s.core c).seqNo (tileAddr c w.1) w.2.length = false) →
    ws.Pairwise (fun x y => x.1 + x.2.length ≤ y.1 ∨ y.1 + y.2.length ≤ x.1) →
    ∃ t, exec i s = .next t ∧ VectorKeeps (s.core c) (t.core c) ∧ (t.core c).vregs = (s.core c).vregs ∧
      (t.core c).masks = (s.core c).masks ∧ t.acc = s.acc ∧ (∀ d : CoreId, d ≠ c → t.core d = s.core d) ∧
      (∀ w ∈ ws, ∀ n, ∀ h : n < w.2.length, t.byte (tileAddr c w.1 + n) = w.2[n]) ∧
      ∀ a, (∀ w ∈ ws, a < tileAddr c w.1 ∨ tileAddr c w.1 + w.2.length ≤ a) → t.byte a = s.byte a

/-- The bytes `data` stand at address a; every other byte is as before where no error stands in the DRAM, whose reads the write of part of a
granule makes (R193). -/
def Stores (s t : State) (a : Nat) (data : List Byte) : Prop :=
  (∀ i, ∀ h : i < data.length, t.byte (a + i) = data[i]) ∧
    (s.errs = [] → ∀ x, x < a ∨ a + data.length ≤ x → t.byte x = s.byte x)

/-- No error stands in the DRAM, its metadata or an on-die store, and no injection is armed (R193, R197, R218). -/
def ErrorFree (s : State) : Prop :=
  s.errs = [] ∧ s.metaErrs = [] ∧ s.sramErrs = [] ∧ ∀ v : VaultId, (s.vault v).inj.arm = false

/-- No lookup waits for a place, no payload for a record or a fence, no message for a reservation tag (R230, R240, R332). -/
def NothingWaits (s : State) : Prop := s.lookupQueue = [] ∧ s.waitingPayloads = [] ∧ s.tagWait = []

/-! ### Platform caches (R490) -/

/-- The byte that the platform cluster sees at an address of the DRAM: its cached line's, else the memory's (R490). -/
def seenByte (s : State) (a : Nat) : Byte :=
  match s.line (a / 64) with
  | some l => nth l.bytes (a % 64) 0
  | none => s.byte a

/-! ### Fabric (R313, R317 to R320) -/

/-- A frame of type `typ` arrives at port p and is taken: the port is UP, CRC and SEQ are right, the frame is well formed and its route ends at
this device. -/
def Arrives (s : State) (p typ : Nat) (f : Frame) : Prop :=
  (s.port p).st = .up ∧ f.crcOk = true ∧ f.head.seq = (s.port p).rxSeq ∧ f.head.typ.toNat = typ ∧ f.malformed = false ∧
    routed s p f.head = true ∧ landsHere s f.head = true

/-- The state once the link has taken a frame: the next SEQ is expected, ACK and the credits have gone back (R320, R331). -/
def received (s : State) (p : Nat) (f : Frame) : State := returnCredits (linkAccept s p f).1 p f

/-! ### Host link (R400, R401) -/

/-- A message of type `ty` is served (R400, R401): its port passes messages, it is right, its VER is the session's, its session is attached there, its SEQ is the next, and
version and level suffice. -/
def Serves (s : State) (h : ShlHead) (ty version level : Nat) : Prop :=
  let x := s.session h.sid
  s.live = true ∧ portOpen s h.port.val = true ∧ h.ok ty = true ∧ h.ver.toNat = x.version ∧ x.st = .attached ∧ x.port = h.port.val ∧ h.seq = x.rxSeq ∧
    version ≤ x.version ∧ level ≤ x.level

end Sys2Proof.Machine
end

