-- ==== Sys2Proof/Certificates/Slice0/Obligations.lean ====
section
/-!
DEFINITION. The statements for the provers. Each says what its commands do by the rules it names; "issues at once" (Issues) is the
condition of R135, R148 and R173 on the state and the operands: the core looks at the bundle, no exception and no hold.
-/

open Sys2Proof Sys2Proof.Machine

/-! ### The block as a whole -/

/-- A step takes the command at the front of the queue and runs it on the state with the rest of the queue (the block's form). -/
def Obligations.StepRunsFrontCommand : Prop :=
  ∀ (s : State) (i : Instr) (rest : List Instr),
    step { s with pending := i :: rest } = exec i { s with pending := rest }

/-- With no command waiting a step is one array cycle of 1.25 ns (R570; that an empty queue lets a cycle pass is the model's choice):
nothing but the cycle count changes, and five nanoseconds pass in four cycles. -/
def Obligations.IdleStepPassesOneCycle : Prop :=
  ∀ s : State, s.pending = [] →
    ∃ t, step s = .next t ∧ t.cycle = s.cycle + 1 ∧ t = { s with cycle := t.cycle } ∧
      (s.cycle % 4 = 0 → (tick (tick (tick (tick s)))).nowNs = s.nowNs + 5)

/-! ### Scalar and control slot (R145 to R148) -/

/-- The scalar arithmetic of R146: the destination takes the result modulo 2^64, s0 staying zero (R145), the core goes to its next bundle,
and nothing else changes. STEPSET, STEPINC, PHASE, NOP and END (R137, R142, R146, R148): the step register, the phase marker, nothing, and
an idle core; nothing else changes but the core's own progress. When the scalar arithmetic issues at once: the core looks at its bundle, the
operands have arrived and no branch delays it (R135, R148); a shift needs a distance below 64, for a larger immediate is a reserved encoding
(R146). -/
def Obligations.ScalarOperations : Prop :=
  ((∀ (s : State) (c : CoreId) (sd sa sb : BitVec 5) (imm : BitVec 25),
      let gives := fun (i : Instr) (v : Core → Word) =>
        Issues s i → exec i s = .next (s.modCore c fun k => (k.setSreg sd (v k)).retire s.cycle)
      gives (.addi c sd sa imm) (fun k => k.sreg sa + imm.signExtend 64) ∧
      gives (.add c sd sa sb) (fun k => k.sreg sa + k.sreg sb) ∧
      gives (.sub c sd sa sb) (fun k => k.sreg sa - k.sreg sb) ∧
      gives (.and c sd sa sb) (fun k => k.sreg sa &&& k.sreg sb) ∧
      gives (.or c sd sa sb) (fun k => k.sreg sa ||| k.sreg sb) ∧
      gives (.xor c sd sa sb) (fun k => k.sreg sa ^^^ k.sreg sb) ∧
      gives (.shli c sd sa imm) (fun k => k.sreg sa <<< imm.toNat) ∧
      gives (.shri c sd sa imm) (fun k => k.sreg sa >>> imm.toNat) ∧
      gives (.movi c sd imm) (fun _ => imm.zeroExtend 64) ∧
      gives (.shlor c sd sa imm) (fun k => (k.sreg sa <<< 25) ||| imm.zeroExtend 64) ∧
      gives (.mul c sd sa sb) (fun k => k.sreg sa * k.sreg sb) ∧
      gives (.cmplt c sd sa sb) (fun k => if (k.sreg sa).toInt < (k.sreg sb).toInt then 1 else 0) ∧
      gives (.cmpeq c sd sa sb) (fun k => if k.sreg sa = k.sreg sb then 1 else 0)) ∧
   (∀ (s : State) (c : CoreId) (sa : BitVec 5) (imm : BitVec 25),
      let gives := fun (i : Instr) (f : Core → Core) => Issues s i → exec i s = .next (s.modCore c fun k => f (k.retire s.cycle))
      gives (.stepset c sa) (fun k => { k with step := (k.sreg sa).truncate 32 }) ∧
      gives (.stepinc c) (fun k => { k with step := k.step + 1 }) ∧
      gives (.phase c imm) (fun k => { k with phase := imm.truncate 8 }) ∧
      gives (.nop c) id ∧
      gives (.endProgram c) (fun k => { k with st := .idle }))) ∧
  (∀ (s : State) (c : CoreId) (sd sa sb : BitVec 5) (imm : BitVec 25),
     Ready s c [sa, sb] →
       Issues s (.add c sd sa sb) ∧ Issues s (.sub c sd sa sb) ∧ Issues s (.and c sd sa sb) ∧ Issues s (.or c sd sa sb) ∧
         Issues s (.xor c sd sa sb) ∧ Issues s (.mul c sd sa sb) ∧ Issues s (.cmplt c sd sa sb) ∧ Issues s (.cmpeq c sd sa sb) ∧
         Issues s (.addi c sd sa imm) ∧ Issues s (.shlor c sd sa imm) ∧ Issues s (.movi c sd imm) ∧
         (imm.toNat < 64 → Issues s (.shli c sd sa imm) ∧ Issues s (.shri c sd sa imm)))

/-- Branches (R146, R147): JMP always, BZ on zero, BNZ on non-zero, LOOP while the decremented counter is not zero; the next bundle is the
target, or the following one. Memory, marks and every register but LOOP's counter stay. -/
def Obligations.Branches : Prop :=
  ∀ (s : State) (c : CoreId) (sa : BitVec 5) (imm : BitVec 25),
    let k := s.core c
    let goes := fun (i : Instr) (taken : Bool) (cnt : Core → Core) =>
      Issues s i → ∃ t, exec i s = .next t ∧ (t.core c).pc = (if taken then imm.zeroExtend 32 else k.pc + 1) ∧
        (t.core c).sregs = (cnt k).sregs ∧ (t.core c).tokens = k.tokens ∧ (t.core c).step = k.step ∧ t.mem = s.mem ∧
        t.marks = s.marks ∧ t.acc = s.acc ∧ t.errRing = s.errRing ∧ ∀ d : CoreId, d ≠ c → t.core d = s.core d
    goes (.jmp c imm) true id ∧
    goes (.bz c sa imm) (decide (k.sreg sa = 0)) id ∧
    goes (.bnz c sa imm) (decide (k.sreg sa ≠ 0)) id ∧
    goes (.loop c sa imm) (decide (k.sreg sa - 1 ≠ 0)) (fun k => k.setSreg sa (k.sreg sa - 1))

/-- SLD reads eight bytes of the core's tile store at SA plus the signed immediate (R146, R148); the value is there eight cycles later. SST
writes the eight bytes of SD to the core's tile store, least significant first (R14, R146); with no pass that reads them and no earlier
write waiting (R101) they are written at once, every other byte and every register stays. -/
def Obligations.ScalarLoadAndStore : Prop :=
  (∀ (s : State) (c : CoreId) (sd sa : BitVec 5) (imm : BitVec 25),
     Issues s (.sld c sd sa imm) →
       let a := tileAddr c ((s.core c).sreg sa + imm.signExtend 64).toNat
       let v := BitVec.ofNat 64 (readN s a 8)
       ∃ t, exec (.sld c sd sa imm) s = .next t ∧
         (∀ r, (t.core c).sreg r = ((s.core c).setSreg sd v).sreg r) ∧ (t.core c).pc = (s.core c).pc + 1 ∧
         (sd ≠ 0 → mget 0 (t.core c).sReady sd.toNat = s.cycle + 8) ∧ t.mem = s.mem ∧ t.marks = s.marks ∧ t.acc = s.acc ∧
         (poisonedIn s a 8 = false → t.errRing = s.errRing) ∧
         (poisonedIn s a 8 = true → ∃ r, t.errRing = s.errRing ++ [r] ∧ r.code = 0x13 ∧ r.addr = BitVec.ofNat 48 a)) ∧
  (∀ (s : State) (c : CoreId) (sd sa : BitVec 5) (imm : BitVec 25),
     let k := s.core c
     let off := (k.sreg sa + imm.signExtend 64).toNat
     Issues s (.sst c sd sa imm) → k.writeWaits c k.seqNo (tileAddr c off) 8 = false → k.heldMeets k.seqNo (tileAddr c off) 8 = false →
       ∃ t, exec (.sst c sd sa imm) s = .next t ∧
         (∀ i < 8, t.byte (tileAddr c off + i) = (k.sreg sd).extractLsb' (8 * i) 8) ∧
         (∀ a, a < tileAddr c off ∨ tileAddr c off + 8 ≤ a → t.byte a = s.byte a) ∧
         t.core c = k.retire s.cycle ∧ (∀ d : CoreId, d ≠ c → t.core d = s.core d) ∧ t.acc = s.acc ∧ t.errRing = s.errRing)

/-! ### Vector slot (R117 to R128, R151 to R155) -/

/-- The integer group (R120, R153): sums and differences modulo the lane width, signed minimum and maximum, bit operations, shifts by a
constant (SHR arithmetic), SEL by a mask, ICMP into a mask; a poisoned operand poisons the lane (R127). -/
def Obligations.VectorInteger : Prop :=
  ∀ (s : State) (c : CoreId) (f : VFields),
    let k := s.core c
    let w := intWidth f.fmt.toNat
    let a := fun n => laneAt (k.vreg f.b) n
    let b := fun n => laneAt (k.vreg f.c) n
    let x := fun n => (a n).val.toNat
    let y := fun n => (b n).val.toNat
    let two := fun (v : Nat → Nat) n => (⟨BitVec.ofNat 64 (v n), (a n).psn || (b n).psn⟩ : Lane)
    let one := fun (v : Nat → Nat) n => (⟨BitVec.ofNat 64 (v n), (a n).psn⟩ : Lane)
    let d := f.imm.toNat % 64
    WritesLanes s c (.iadd c f) f (two fun n => (x n + y n) % 2 ^ w) ∧
    WritesLanes s c (.isub c f) f (two fun n => unsigned w ((x n : Int) - y n)) ∧
    WritesLanes s c (.imin c f) f (two fun n => unsigned w (min (signed w (x n)) (signed w (y n)))) ∧
    WritesLanes s c (.imax c f) f (two fun n => unsigned w (max (signed w (x n)) (signed w (y n)))) ∧
    WritesLanes s c (.vecAnd c f) f (two fun n => (x n &&& y n) % 2 ^ w) ∧
    WritesLanes s c (.vecOr c f) f (two fun n => (x n ||| y n) % 2 ^ w) ∧
    WritesLanes s c (.vecXor c f) f (two fun n => (x n ^^^ y n) % 2 ^ w) ∧
    WritesLanes s c (.shl c f) f (one fun n => x n * 2 ^ d % 2 ^ w) ∧
    WritesLanes s c (.shr c f) f (one fun n => unsigned w (signed w (x n) / (2 ^ d : Nat))) ∧
    WritesLanes s c (.sel c f) f (fun n =>
      let l := if (k.mreg (f.d.toNat % 8)).getLsbD n then a n else b n
      ⟨BitVec.ofNat 64 (l.val.toNat % 2 ^ w), l.psn⟩) ∧
    WritesMask s c (.icmp c f) f (fun n => intCond (f.imm.toNat % 8) (signed w (x n)) (signed w (y n)))

/-- The floating group (R121, R153): the exact result rounded once to the lane format under RND, a poisoned operand poisoning the lane; FCMP
into a mask. The functions of FP32 and CVT (R121, R153): FRCP, FRSQ, FSQRT, FEXP2 and FLOG2 of the FP32 lane rounded by RNE, and the
conversion between lane formats under RND, X_t scaling the end that is L64. -/
def Obligations.VectorFloat : Prop :=
  (∀ (s : State) (c : CoreId) (f : VFields),
     let k := s.core c
     let fmt := f.fmt.toNat
     let la := fun n => laneAt (k.vreg f.b) n
     let lb := fun n => laneAt (k.vreg f.c) n
     let ld := fun n => laneAt (k.vreg f.d) n
     let a := fun n => laneNum fmt (la n)
     let b := fun n => laneNum fmt (lb n)
     let round := fun v => BitVec.ofNat 64 (encodeElem fmt 0 (rndOf f.rnd.toNat) 0 v).bits
     let two := fun (v : Nat → XNum) n => (⟨round (v n), (la n).psn || (lb n).psn⟩ : Lane)
     let one := fun (v : Nat → XNum) n => (⟨round (v n), (la n).psn⟩ : Lane)
     WritesLanes s c (.fadd c f) f (two fun n => (a n).add (b n)) ∧
     WritesLanes s c (.fsub c f) f (two fun n => (a n).sub (b n)) ∧
     WritesLanes s c (.fmul c f) f (two fun n => (a n).mul (b n)) ∧
     WritesLanes s c (.fma c f) f (fun n =>
       ⟨round (((a n).mul (b n)).add (laneNum fmt (ld n))), (la n).psn || (lb n).psn || (ld n).psn⟩) ∧
     WritesLanes s c (.fmin c f) f (two fun n => XNum.min (a n) (b n)) ∧
     WritesLanes s c (.fmax c f) f (two fun n => XNum.max (a n) (b n)) ∧
     WritesLanes s c (.fabs c f) f (one fun n => (a n).abs) ∧
     WritesLanes s c (.fneg c f) f (one fun n => (a n).neg) ∧
     WritesMask s c (.fcmp c f) f (fun n => numCond (f.imm.toNat % 8) (a n) (b n))) ∧
  (∀ (s : State) (c : CoreId) (f : VFields),
     let k := s.core c
     let la := fun n => laneAt (k.vreg f.b) n
     let a := fun n => laneNum 0 (la n)
     let fp32 := fun (v : Nat → XNum) n => (⟨BitVec.ofNat 64 (encodeElem 0 0 .rne 0 (v n)).bits, (la n).psn⟩ : Lane)
     let x := signed 16 (f.imm.toNat / 2 ^ 5)
     WritesLanes s c (.frcp c f) f
       (fp32 fun n => if (a n).isZero then .inf (a n).sign else XNum.div (fun s => fFP32.big s) (XNum.ofInt 1 0) (a n)) ∧
     WritesLanes s c (.frsq c f) f (fp32 fun n => (a n).rsqrt) ∧
     WritesLanes s c (.fsqrt c f) f (fp32 fun n => (a n).sqrt) ∧
     WritesLanes s c (.fexp2 c f) f (fp32 fun n => (a n).exp2) ∧
     WritesLanes s c (.flog2 c f) f (fp32 fun n => (a n).log2) ∧
     WritesLanes s c (.cvt c f) f (fun n =>
       ⟨BitVec.ofNat 64 (encodeElem (f.imm.toNat % 32) x (rndOf f.rnd.toNat) 0
           (decodeElem f.fmt.toNat x (la n).val.toNat)).bits, (la n).psn⟩))

/-- The permutations (R153): BCAST copies one lane, ROT rotates, ILV interleaves the low halves, DILV takes the even or odd lanes of the two
operands; lanes move with all 64 bits and their poison. -/
def Obligations.VectorPermutations : Prop :=
  ∀ (s : State) (c : CoreId) (f : VFields),
    let k := s.core c
    let b := fun n => laneAt (k.vreg f.b) n
    let d := fun n => laneAt (k.vreg f.c) n
    let imm := f.imm.toNat
    WritesLanes s c (.bcast c f) f (fun _ => b (imm % 256)) ∧
    WritesLanes s c (.rot c f) f (fun n => b ((n + imm) % 256)) ∧
    WritesLanes s c (.ilv c f) f (fun n => if n % 2 = 0 then b (n / 2) else d (n / 2)) ∧
    WritesLanes s c (.dilv c f) f (fun n => if n < 128 then b (2 * n + imm % 2) else d (2 * (n - 128) + imm % 2))

/-- Loads into vector lanes (R122, R123, R128, R153): VLD widens 256 elements, UNPACK eight blocks, ARD 256 accumulator entries; a lane is
poisoned when a byte or entry it comes from is. -/
def Obligations.VectorLoads : Prop :=
  ∀ (s : State) (c : CoreId) (f : VFields),
    let k := s.core c
    let fmt := f.fmt.toNat
    let imm := f.imm.toNat
    let sb := k.sreg f.b
    let eb := elemBytes fmt
    let w := blockWidth fmt
    let a := tileAddr c (fld sb 0 23 + 8 * (imm % 2 ^ 16))
    let sig := tileAddr c (fld sb 0 23)
    let ex := tileAddr c (fld sb 23 23)
    let lane := if f.imm.getLsbD 15 then 7 else 0
    WritesLanes s c (.vld c f) f (fun n =>
      ⟨BitVec.ofNat 64 (encodeElem (imm / 2 ^ 16) 0 (rndOf f.rnd.toNat) 0 (decodeElem fmt 0 (readN s (a + n * eb) eb))).bits,
       poisonedIn s (a + n * eb) eb⟩) ∧
    WritesLanes s c (.unpack c f) f (fun n =>
      let bits := packedElem (readB s (sig + 4 * w * (n / 32)) (4 * w)) w (n % 32)
      let at0 := sig + 4 * w * (n / 32)
      ⟨BitVec.ofNat 64 (encodeElem lane 0 .rne 0 (blockElem fmt (readN s (ex + n / 32) 1) bits)).bits,
       poisonedIn s (at0 + w * (n % 32) / 8) 1 || poisonedIn s (at0 + (w * (n % 32) + w - 1) / 8) 1 ||
         poisonedIn s (ex + n / 32) 1⟩) ∧
    ∀ ph, s.physArray c (fld (k.sreg f.c) 16 2) = some ph →
      WritesLanes s c (.ard c f) f (fun n => entryLane (s.entry ph (fld (k.sreg f.c) 0 16 + n)))

/-- Stores from vector lanes (R122, R123, R126, R154): VST narrows 256 lanes, ADRN 256 accumulator entries, PACK and PACKX eight blocks into
their two planes (PACKX with the exponents taken from a register), SARD the record of a side accumulator. AWR writes 256 consecutive
accumulator entries modulo 65,536 from the lanes that the mask selects (R82, R128); memory, vector and mask registers, other entries and
other cores stay. -/
def Obligations.VectorStores : Prop :=
  (∀ (s : State) (c : CoreId) (f : VFields),
     let k := s.core c
     let fmt := f.fmt.toNat
     let imm := f.imm.toNat
     let sb := k.sreg f.b
     let off := fld sb 0 23 + 8 * (imm % 2 ^ 16)
     let w := blockWidth fmt
     let mode := if f.cls = 2 then Rnd.sr else rndOf f.rnd.toNat
     let id : DrawId := ⟨s.seed, if f.cls = 2 then 1 else 4, k.step.toNat, fld (k.sreg f.c) 32 32, 0⟩
     let draw := fun n => if mode = .sr then drawElem id ((k.sreg f.d).toNat + n) else 0
     let la := laneAt (k.vreg f.a)
     let elems := fun (v : Nat → XNum) =>
       (List.range 256).flatMap fun n => toBytes (elemBytes fmt) (encodeElem fmt 0 mode (draw n) (v n)).bits
     let lane := if f.imm.getLsbD 15 then 7 else 0
     let block := fun (taken : Nat → Option Nat) (b : Nat) =>
       toBlock fmt (taken b) mode (fun i => draw (32 * b + i)) ((List.range 32).map fun i => laneNum lane (la (32 * b + i)))
     let planes := fun (taken : Nat → Option Nat) =>
       [(fld sb 0 23, (List.range 8).flatMap fun b => toBytes (4 * w) (packElems w (block taken b).elems)),
        (fld sb 23 23, (List.range 8).flatMap fun b => [BitVec.ofNat 8 (block taken b).x])]
     let xr := laneAt (k.vreg (BitVec.ofNat 5 (imm / 2 ^ 16)))
     WritesTile s c (.vst c f) [(off, elems fun n => laneNum (imm / 2 ^ 16) (la n))] ∧
     WritesTile s c (.pack c f) (planes fun _ => none) ∧
     WritesTile s c (.packx c f) (planes fun b => some (fld (xr (32 * b)).val 0 8)) ∧
     WritesTile s c (.sard c f) [(off, saRecord (mget {} k.side (f.a.toNat % 16)))] ∧
     ∀ ph, s.physArray c (fld (k.sreg f.c) 16 2) = some ph →
       WritesTile s c (.adrn c f) [(off, elems fun n => laneNum 7 (entryLane (s.entry ph (fld (k.sreg f.c) 0 16 + n))))]) ∧
  (∀ (s : State) (c : CoreId) (f : VFields) (ph : Nat),
     let k := s.core c
     let e := fld (k.sreg f.c) 0 16
     let m := k.mreg f.mask.toNat
     Issues s (.awr c f) → s.physArray c (fld (k.sreg f.c) 16 2) = some ph →
       ∃ t, exec (.awr c f) s = .next t ∧ VectorKeeps k (t.core c) ∧ (t.core c).vregs = k.vregs ∧ (t.core c).masks = k.masks ∧
         t.mem = s.mem ∧ t.marks = s.marks ∧ (∀ d : CoreId, d ≠ c → t.core d = s.core d) ∧
         (∀ n < 256, t.entry ph (e + n) =
           if m.getLsbD n then mkEntry (laneAt (k.vreg f.a) n).val.toNat (laneAt (k.vreg f.a) n).psn else s.entry ph (e + n)) ∧
         ∀ q n, n < 65536 → (q ≠ ph ∨ ∀ j < 256, (e + j) % 65536 ≠ n) → t.entry q n = s.entry q n)

/-- The reductions (R124): a group is 2^m lanes; its result stands in its first lane and every other lane is zero. RSUM and RSSQ fold the
lanes that the mask selects, or zero, pairwise in Z56; RMAX and RMIN take the largest and smallest of the selected lanes. -/
def Obligations.VectorReductions : Prop :=
  ∀ (s : State) (c : CoreId) (f : VFields),
    let k := s.core c
    let m := f.imm.toNat % 16
    let mask := k.mreg f.mask.toNat
    let la := laneAt (k.vreg f.b)
    let num := fun n => laneNum 7 (la n)
    let group := fun j => (List.range (2 ^ m)).map (2 ^ m * j + ·)
    let fold := fun (v : Nat → XNum) j => (treeReduce addZ56 m ((group j).map fun n => if mask.getLsbD n then v n else .zero)).headD .zero
    let pickOf := fun (g : XNum → XNum → XNum) j =>
      ((group j).foldl (fun acc n => if mask.getLsbD n then pick g acc (some (num n)) else acc) none).getD .zero
    let gives := fun (i : Instr) (v : Nat → XNum) =>
      Issues s i → ∃ t, exec i s = .next t ∧ CoreFrame c s t ∧ VectorKeeps k (t.core c) ∧ (t.core c).masks = k.masks ∧
        (∀ n < 256, laneAt ((t.core c).vreg f.a) n =
          if n % 2 ^ m = 0 then
            ⟨BitVec.ofNat 64 (toZ56 (v (n / 2 ^ m))), (group (n / 2 ^ m)).any fun i => mask.getLsbD i && (la i).psn⟩
          else {}) ∧
        ∀ r, r ≠ f.a → (t.core c).vreg r = k.vreg r
    gives (.rsum c f) (fold num) ∧ gives (.rssq c f) (fold fun n => rZ56 ((num n).mul (num n))) ∧
    gives (.rmax c f) (pickOf XNum.max) ∧ gives (.rmin c f) (pickOf XNum.min)

/-! ### Matrix slot and arrays (R87 to R106, R149, R442, R443) -/

/-- A PASS that issues at once enters the queue of its target with the register values of its bundle (R96, R143, R149, R150): a single pass
or a chain's end closes the chain, a start or middle leaves it open (R100). WEIGHT_BROADCAST (R74, R75, R87, R88): row `row` of the tile
that the next pass to load has named goes into the shadow registers, each cell with the residues of its significand, and while the mode has
so many, exponent row `row` into the pending set of that pass, when the bytes may be read and the tile is not whole. -/
def Obligations.PassesAndWeights : Prop :=
  (∀ (s : State) (c : CoreId) (m : MatrixSlot),
     let p := fun (k : Core) => passParams k { m with op := 1 }
     Issues s (.pass c m) →
       exec (.pass c m) s = .next (s.modCore c fun k =>
         (k.modArray m.arr.toNat fun u => u.modHalf m.tgt.toNat fun h =>
           { h with
             passes := h.passes ++ [{ seq := k.seqNo, bundle := k.pc, par := p k }]
             chainOpen := (p k).chain == 1 || (p k).chain == 2
             chainLen := if (p k).chain = 0 ∨ (p k).chain = 3 then 0 else if (p k).chain = 1 then 1 else h.chainLen + 1
           }).retire s.cycle)) ∧
  (∀ (s : State) (c : CoreId) (a : Fin 4) (h : HalfId) (row : Fin 128) (p : Pass),
     let arr := (s.core c).array a
     let u := s.half c a h
     let q := p.par
     let rd := fetchRange (fetchRange s (tileAddr c (q.wSig + 128 * row)) 128) (tileAddr c (q.wExp + 128 * row)) 128
     s.live = true → nextLoad u = some p → (oldest u = some p ∨ ∃ o, oldest u = some o ∧ o.started = true) →
       tileReady u q.wmode = false → u.failed = false → passReadsReady s c p (arr.sources h) = true → tokenAhead arr h p = false →
       exec (.weightBroadcast c a h row) s = .next (rd.modHalf c a h fun x =>
         { x with
           shadow := mset [] x.shadow row (cellRow q.wmode (sigRow rd c q.wSig q.wmode row))
           pend := x.pend.take (nextSet x) ++ [(nth x.pend (nextSet x) {}).enter rd c q.wSig q.wExp q.wmode row] }))

/-- PASS_COMPLETE (R77 to R79, R83, R101, R105): the oldest pass of a target, its tile loaded, its operands readable and its span free,
writes every entry: the folded column rounded to Z56, added to what the entry held for a middle or an end of a chain, poisoned when an
activation block of its vector or a weight block of its column is, or the entry was; every other entry stays and no mismatch is recorded. A
fault that the residues or the parity catch (R102, R104) fails the chain instead, with record 0x10. -/
def Obligations.PassResults : Prop :=
  ∀ (s : State) (c : CoreId) (a : Fin 4) (h : HalfId) (p : Pass) (ph : Nat) (f : ArrayFault),
    let arr := (s.core c).array a
    let u := s.half c a h
    let q := p.par
    let s1 := if p.started then s else launch s c a h p
    let s2 := if q.keep then s1 else s1.modCore c fun k => k.modArray a fun x => swapStages x h
    let w := ((s2.core c).array a).weights
    let rd := fetchRange (fetchRange s2 (tileAddr c q.aSig) q.sigSpan) (tileAddr c q.aExp) q.expSpan
    let adds := q.chain = 2 ∨ q.chain = 3
    let old := fun g col => entryLane ((readEntry rd ph (q.entryOf g col)).entry ph (q.entryOf g col))
    let part := fun g col => foldColumn rd c q w none g col (w.terms q col)
    let blocks := fun g col => ((List.range (q.segs * w.blockSlots q)).any fun n => actPoison rd c q g n) ||
      (List.range q.segs).any fun seg => (List.range (w.slots q col)).any fun j =>
        weightPoison w (placeOf q col seg).2 j (placeOf q col seg).1
    s.live = true → oldest u = some p → s.physArray c a = some ph → u.failed = false →
      (p.started = true ∨ (q.keep = true ∨ tileReady u q.wmode = true) ∧ configReady arr p = true) →
      passReadsReady s c p (if p.started then p.met else arr.sources h) = true → spanBlocked s c a h p = false →
      (q.cols ≤ q.accStride → q.span ≤ 65536 →
        ∃ t, exec (.passComplete c a h none) s = .next t ∧ (t.half c a h).lastStatus ≠ .residue ∧
          (∀ g < q.v, ∀ col < q.cols, t.entry ph (q.accBase + g * q.accStride + col) =
            if adds then mkEntry (toZ56 (rZ56 ((ofZ56 (old g col).val.toNat).add (part g col)))) (blocks g col || (old g col).psn)
            else mkEntry (toZ56 (part g col)) (blocks g col)) ∧
          ∀ r n, n < 65536 → (r ≠ ph ∨ ∀ g < q.v, ∀ col < q.cols, q.entryOf g col ≠ n) → t.entry r n = s.entry r n) ∧
      (caught rd c q w f = true →
        ∃ t, exec (.passComplete c a h (some f)) s = .next t ∧ (t.half c a h).failed = true ∧ (t.half c a h).recurred = false ∧
          (t.half c a h).fault = some f ∧ ∃ r ∈ t.errRing.drop s.errRing.length, r.code = 0x10)

/-- CHAIN_REPLAY and ARRAY_ARBITRATION (R101, R104, R442, R443): the failed chain of a target runs again from its start with the tiles it
had met; without a mismatch its entries stand and the hold is lifted; one that recurs waits for arbitration where another array of the core
can compare, and else ends in outcome 5. Arbitration names the checker (0x21) when the observe and compare runs agree and the other array is
clean, else the datapath (0x22), which leaves every entry of the chain poisoned; in both the array accepts no further pass. -/
def Obligations.ReplayAndArbitration : Prop :=
  ∀ (s : State) (c : CoreId) (a : Fin 4) (h : HalfId) (fault : Option ArrayFault) (f : ArrayFault) (agree other : Bool) (ph : Nat),
    let u := s.half c a h
    let chain := chainOf u.passes
    let run := runChain s c ph h fault chain u.chainTile
    let poisons := fun (t : State) => ∀ p ∈ chain, ∀ g < p.par.v, ∀ col < p.par.cols, (t.entry ph (p.par.entryOf g col)).getLsbD 61 = true
    s.live = true → s.physArray c a = some ph → u.failed = true →
      (u.recurred = false →
        (fault = none ∨ PassStatus.residue ∉ run.2.1 →
          ∃ t, exec (.chainReplay c a h fault) s = .next t ∧ (t.half c a h).failed = false ∧ t.acc = run.1.acc ∧
            ((t.core c).array a).refuse = ((s.core c).array a).refuse) ∧
        (fault = some f → PassStatus.residue ∈ run.2.1 →
          ∃ t, exec (.chainReplay c a h fault) s = .next t ∧
            if (compareArray s c a).isSome then (t.half c a h).failed = true ∧ (t.half c a h).recurred = true
            else (t.half c a h).failed = false ∧ ((t.core c).array a).refuse = true ∧ poisons t ∧
              ∃ r ∈ t.errRing.drop s.errRing.length, r.code = 0x22)) ∧
      (u.recurred = true → (compareArray s c a).isSome = true →
        ∃ t, exec (.arrayArbitration c a h agree other) s = .next t ∧ ((t.core c).array a).refuse = true ∧
          (t.half c a h).failed = false ∧ (agree = false ∨ other = true → poisons t) ∧
          ∃ r ∈ t.errRing.drop s.errRing.length, r.code = if agree && !other then 0x21 else 0x22)

/-! ### Move slot and transfers (R129 to R133, R156, R356 to R360) -/

/-- COPY and SCOPY that issue at once put their transfer at the back of queue Q with the register values of the bundle (R131, R143, R156).
TRANSFER_COMPLETE (R130 to R132, R360): the front transfer of a queue, with nothing that holds it back and no versioned head in its way,
leaves the queue and adds its token; a copy has moved its bytes, every other byte stays. The bytes are stated for destinations that are apart
and ranges outside the accumulator banks, with no error standing in the DRAM and no write of the core held. A transfer of a group leaves the
queue once it has run. -/
def Obligations.Copies : Prop :=
  (∀ (s : State) (c : CoreId) (f : MFields),
     let q := f.q.toNat
     let enters := fun (i : Instr) (x : Core → Transfer) =>
       Issues s i → exec i s = .next (s.modCore c fun k => (k.setQueue q (k.queue q ++ [x k])).retire s.cycle)
     enters (.copy c f) (fun k =>
       { kind := .copy, src := fld (k.sreg f.sa) 0 48, dst := fld (k.sreg f.sb) 0 48, rows := 1, rowLen := fld (k.sreg f.sc) 0 32,
         srcPitch := 0, dstPitch := 0, desc := descOf [], te := f.te == 1, tok := f.tok, seq := k.seqNo, bundle := k.pc,
         ran := false }) ∧
     enters (.scopy c f) (fun k =>
       { kind := .scopy, src := fld (k.sreg f.sa) 0 48, dst := fld (k.sreg f.sb) 0 48, rows := fld (k.sreg f.sc) 0 16,
         rowLen := fld (k.sreg f.sc) 16 32, srcPitch := fld (k.sreg f.sd) 0 32, dstPitch := fld (k.sreg f.sd) 32 32,
         desc := descOf [], te := f.te == 1, tok := f.tok, seq := k.seqNo, bundle := k.pc, ran := false })) ∧
  (∀ (s : State) (c : CoreId) (q : Fin 4) (t : Transfer) (rest : List Transfer),
     let copies := t.kind = .copy ∨ t.kind = .scopy
     let s1 := fetchHeads s t
     let rd := t.segs.foldl (fun s (a, _, n) => transferFetch s c a n) s1
     let outside := fun (a : Nat) => a < Config.accBase ∨ Config.accEnd ≤ a
     s.live = true → s.stopped = false → (s.core c).queue q = t :: rest →
       (copies → transferBlocked s c t = false ∧ (t.segs.all fun (_, d, n) => slotCheck s1 d n) = true) → (¬ copies → t.ran = true) →
       ∃ t', exec (.transferComplete c q) s = .next t' ∧ (t'.core c).queue q = rest ∧
         (t.te = true → ((s.core c).token t.tok.toNat).toNat + 1 < 2 ^ 32 →
           ((t'.core c).token t.tok.toNat).toNat = ((s.core c).token t.tok.toNat).toNat + 1) ∧
         (¬ copies → t'.mem = s.mem ∧ t'.acc = s.acc) ∧
         (copies → s.errs = [] → (∀ v : VaultId, (s.vault v).inj.arm = false) → (s.core c).heldWrites = [] →
           (∀ x ∈ t.segs, outside x.1 ∧ outside x.2.1) →
           t.segs.Pairwise (fun x y => x.2.1 + x.2.2 ≤ y.2.1 ∨ y.2.1 + y.2.2 ≤ x.2.1) →
           t'.acc = s.acc ∧ (∀ x ∈ t.segs, ∀ i < x.2.2, t'.byte (x.2.1 + i) = rd.byte (x.1 + i)) ∧
             ∀ a, (∀ x ∈ t.segs, a < x.2.1 ∨ x.2.1 + x.2.2 ≤ a) → t'.byte a = rd.byte a))

/-- GATHER, OPEN and PUBLISH (R357, R359): with the front transfer of its kind, OPEN turns the head of an empty slot, or of the version
that the slot held NS before, into {v, writing}, PUBLISH turns {v, writing} of its group into {v, live}, and GATHER, every shard's head being
right, copies the bytes of the shards without their heads; the transfer then waits for its completion. A head that is wrong or poisoned ends
the transfer with the record of its code. Bytes are those that the vault's reads deliver (R193). -/
def Obligations.VersionedGather : Prop :=
  ∀ (s : State) (c : CoreId) (q : Fin 4) (t : Transfer) (rest : List Transfer) (e : Desc),
    let g := fld t.desc.w0 4 10
    let v := fld t.desc.w0 32 32
    let a := slotAddr e v
    let rd := fetchRange s a 64
    let h := readN rd a 8
    let psn := poisonedIn rd a 8
    let sz := fld e.w2 0 40
    let stage := fld t.desc.w1 0 48
    let at' := fun i => gatherByte stage sz (fld t.desc.w2 0 40 + i)
    let heads := (List.range (gatherShards s e)).foldl (fun s i => fetchRange s (stage + i * sz) 64) s
    let all := (List.range t.rowLen).foldl (fun s i => fetchRange s (at' i) 1) heads
    let done := fun (t' : State) => (t'.core c).queue q = { t with ran := true } :: rest
    let fails := fun (i : Instr) (code : BitVec 8) => ∃ t', exec i s = .next t' ∧ (t'.core c).queue q = rest ∧
      (∀ x, t'.byte x = rd.byte x) ∧ ∃ r ∈ t'.errRing.drop s.errRing.length, r.code = code
    s.live = true → s.stopped = false → (s.core c).queue q = t :: rest → t.ran = false → groupEntry s g = some e →
      (t.kind = .openV →
        (psn = false → headState h = 0 ∨ headVer h + groupSlots e = v →
          ∃ t', exec (.openVersion c q) s = .next t' ∧ readN t' a 8 = headWord v g 1 ∧ done t') ∧
        (psn = false → headState h ≠ 0 → headVer h + groupSlots e ≠ v → fails (.openVersion c q) 0x62) ∧
        (psn = true → fails (.openVersion c q) 0x65)) ∧
      (t.kind = .publish →
        (psn = false → headState h = 1 → headVer h = v → headGroup h = g →
          ∃ t', exec (.publish c q) s = .next t' ∧ readN t' a 8 = headWord v g 2 ∧ done t') ∧
        (psn = true → fails (.publish c q) 0x65)) ∧
      (t.kind = .gather → transferBlocked s c t = false → (∀ i < gatherShards s e, headFault heads (stage + i * sz) g v = none) →
        ∃ t', exec (.gather c q) s = .next t' ∧ done t' ∧
          ((s.core c).heldWrites = [] → ∀ i < t.rowLen, t'.byte (t.dst + i) = all.byte (at' i)))

/-! ### Sync slot (R158 to R166) -/

/-- WAIT, SIGNAL, TSET, CLAIM and WSET that issue at once (R159 to R161, R165): WAIT consumes its threshold when CONSUME is set, SIGNAL
leaves its increment with the core, TSET writes a counter, CLAIM reads a work counter and counts it up below 0xFFFF_FFFF, WSET writes one. A
WAIT issues only when its counter has reached the threshold (R160): below it the bundle holds and its timer runs. TSET adds the increments
that came in its cycle. -/
def Obligations.SyncOperations : Prop :=
  (∀ (s : State) (c : CoreId) (tok : BitVec 6) (dst sr : BitVec 5) (inc : BitVec 16) (val : BitVec 20) (ctr : BitVec 4)
     (consume src : Bool),
     let th := fun (k : Core) => if src then (k.sreg (val.truncate 5)).toNat else val.toNat
     let v : BitVec 32 := mget 0 s.workCtrs ctr.toNat
     (Issues s (.wait c tok consume src val) →
       exec (.wait c tok consume src val) s = .next (s.modCore c fun k =>
         (if consume then k.setToken tok.toNat (BitVec.ofNat 32 ((k.token tok.toNat).toNat - th k)) else k).retire s.cycle)) ∧
     (Issues s (.signal c tok dst inc) →
       exec (.signal c tok dst inc) s = .next (s.modCore c fun k =>
         ({ k with signals := k.signals ++ [⟨k.seqNo, dst.toNat, tok, inc⟩] } : Core).retire s.cycle)) ∧
     (Issues s (.tset c tok val) →
       exec (.tset c tok val) s = .next (s.modCore c fun k => 
         (k.setToken tok.toNat (BitVec.ofNat 32 (val.toNat + k.incsNow s.cycle tok.toNat))).retire s.cycle)) ∧
     (Issues s (.claim c ctr sr) →
       ∃ t, exec (.claim c ctr sr) s = .next t ∧ t.core c = ((s.core c).setSreg sr (v.zeroExtend 64)).retire s.cycle ∧
         mget 0 t.workCtrs ctr.toNat = (if v = 0xFFFFFFFF then v else v + 1) ∧ t.mem = s.mem ∧
         (∀ d : CoreId, d ≠ c → t.core d = s.core d) ∧ ∀ n, n ≠ ctr.toNat → mget 0 t.workCtrs n = mget 0 s.workCtrs n) ∧
     (Issues s (.wset c ctr sr) →
       ∃ t, exec (.wset c ctr sr) s = .next t ∧ t.core c = (s.core c).retire s.cycle ∧
         mget 0 t.workCtrs ctr.toNat = ((s.core c).sreg sr).truncate 32 ∧ t.mem = s.mem ∧
         (∀ d : CoreId, d ≠ c → t.core d = s.core d) ∧ ∀ n, n ≠ ctr.toNat → mget 0 t.workCtrs n = mget 0 s.workCtrs n)) ∧
  (∀ (s : State) (c : CoreId) (tok : BitVec 6) (consume : Bool) (val : BitVec 20),
     Ready s c [] → ((s.core c).token tok.toNat).toNat < val.toNat →
       ∃ t, exec (.wait c tok consume false val) s = .next t ∧ (t.core c).st = .holding ∧ (t.holds c).sync = true ∧
         (t.core c).pc = (s.core c).pc ∧ (t.core c).tokens = (s.core c).tokens ∧
         (t.core c).waitStart = some ((s.core c).waitStart.getD s.cycle) ∧ CoreFrame c s t)

/-- TOKEN_INCREMENT (R158, R160 to R162): the oldest signal of a core, its earlier writes done, leaves it and adds its increment to the
target's counter; a completion notice adds one; a sum beyond 0xFFFF_FFFF leaves the counter and halts the core with a token-overflow
exception. Every other counter and the memory stay. -/
def Obligations.TokenIncrements : Prop :=
  ∀ (s : State) (src dst : CoreId) (tok : BitVec 6) (g : Signal) (rest : List Signal),
    let adds := fun (t : State) (d n inc : Nat) =>
      ((t.core d).token n).toNat = ((s.core d).token n).toNat + inc ∧ t.mem = s.mem ∧ t.acc = s.acc ∧
        ∀ d' n', d' ≠ d ∨ n' ≠ n → (t.core d').token n' = (s.core d').token n'
    s.live = true →
      (((s.core dst).token tok.toNat).toNat + 1 < 2 ^ 32 →
        ∃ t, exec (.tokenIncrement (.notice dst tok)) s = .next t ∧ adds t dst tok.toNat 1) ∧
      (((s.core dst).token tok.toNat).toNat + 1 = 2 ^ 32 → (s.core dst).st = .running →
        ∃ t, exec (.tokenIncrement (.notice dst tok)) s = .next t ∧ (t.core dst).tokens = (s.core dst).tokens ∧
          (t.core dst).st = .halted ∧ (t.core dst).exc.cause = 0x0A) ∧
      ((s.core src).signals = g :: rest → writesDone (s.core src) g.seq = true →
        ((s.core g.dst).token g.tok.toNat).toNat + g.inc.toNat < 2 ^ 32 →
        ∃ t, exec (.tokenIncrement (.signal src)) s = .next t ∧ (t.core src).signals = rest ∧ adds t g.dst g.tok.toNat g.inc.toNat)

/-- BAR and the packets of a barrier whose root this device is (R163, R346): the first look of a BAR is the core's arrival, and when every
member core has arrived and every other device is in, the generation counts up; an arrival packet of a further device is noted or completes
it; a release packet of the current generation releases the members of a device that is not the root. A BAR whose generation has ended goes
on to the next bundle. -/
def Obligations.Barriers : Prop :=
  ∀ (s : State) (c : CoreId) (grp : BitVec 4) (p : PortId) (f : Frame),
    let g := grp.toNat
    let rank := f.head.src.toNat
    let b := s.barrier g
    (Ready s c [] → (s.core c).barWait = none → writesDone (s.core c) (s.core c).seqNo = true →
      (localMembers s g).contains c.val = true →
      ((localMembers s g).all fun m => m == c.val || b.arrived.contains m) = false → b.arrived.contains c.val = false →
      ∃ t, exec (.bar c grp) s = .next t ∧ (t.barrier g).arrived = b.arrived ++ [c.val] ∧ (t.barrier g).gen = b.gen ∧
        (t.core c).st = .holding ∧ (t.core c).barWait = some (grp, b.gen)) ∧
    (s.live = true → Arrives s p 6 f → barRoot s g = s.rank → (barRanks s g).contains rank = true → b.ranks.contains rank = false →
      ∃ t, exec (.barrierArrivalPacket ⟨p, f⟩ grp b.gen) s = .next t ∧
        if ((barRanks s g).all fun r => r == rank || b.ranks.contains r) then (t.barrier g).gen = b.gen + 1 ∧ (t.barrier g).ranks = []
        else (t.barrier g).gen = b.gen ∧ (t.barrier g).ranks = b.ranks ++ [rank]) ∧
    (s.live = true → Arrives s p 7 f → (barRanks s g).contains s.rank = true → barRoot s g ≠ s.rank →
      ∃ t, exec (.barrierReleasePacket ⟨p, f⟩ ⟨grp, b.gen⟩) s = .next t ∧ (t.barrier g).gen = b.gen + 1 ∧ (t.barrier g).arrived = []) ∧
    (Issues s (.bar c grp) →
      ∃ t, exec (.bar c grp) s = .next t ∧ (t.core c).pc = (s.core c).pc + 1 ∧ (t.core c).barWait = none)

/-! ### Fetch, exceptions and control of a core (R112, R134 to R136, R164, R170, R173 to R177) -/

/-- The instruction supply (R112, R134 to R136): a fill copies the next bundle of the image, as the vault delivers it, into the ring; a fetch
takes the next bundle below SEQ_FILL into the buffer of 16, one that was not corrected recorded and marked bad; and a bundle at the head of
the buffer that issues at once takes its effect, the next PC being its branch target or the following bundle, its core running, or halted
after TRAP, or idle after END. -/
def Obligations.InstructionSupply : Prop :=
  ∀ (s : State) (c : CoreId) (im : CoreImage) (f : Fetched) (rest : List Fetched) (u : Bool),
    let k := s.core c
    let n := k.pc.toNat + k.fetched.length
    let src := im.base + 32 * k.fill.toNat
    let rd := fetchRange s src 32
    let a := bundleAddr c k.fill
    let fa := bundleAddr c (BitVec.ofNat 32 n)
    let fr := fetchRange s fa 32
    let b := decodeBundle f.bits
    let s1 := if b.move.op = 3 then fetchRange s (tileAddr c (descOffset k b.move)) 64 else s
    (s.live = true → imageOf s c = some im → k.fill.toNat < im.bundles.length → k.fill.toNat < k.pc.toNat + Config.ringBundles →
      ∃ t, exec (.instructionStreamFill c) s = .next t ∧ (t.core c).fill = k.fill + 1 ∧
        (∀ i < 32, t.byte (a + i) = rd.byte (src + i)) ∧ ∀ x, x < a ∨ a + 32 ≤ x → t.byte x = rd.byte x) ∧
    (s.live = true → k.fetched.length < 16 → n < k.fill.toNat → k.ringLo.toNat ≤ n →
      ∃ t, exec (.instructionFetch c u) s = .next t ∧
        (t.core c).fetched = k.fetched ++ [⟨n, BitVec.ofNat 256 (readN fr fa 32), u || poisonedIn fr fa 32⟩] ∧
        (t.core c).pc = k.pc ∧ (u = true → ∃ r ∈ t.errRing.drop s.errRing.length, r.code = 0x15)) ∧
    (k.fetched = f :: rest → f.bad = false → IssuesNow s1 c b → b.scalar.op ≠ 0x17 →
      ∃ t, exec (.bundleIssue c .none) s = .next t ∧ (t.core c).pc = (branchTarget k b.scalar).getD (k.pc + 1) ∧
        (t.core c).st = if b.scalar.op = 0x18 then .halted else if b.scalar.op = 0x19 then .idle else .running)

/-- A bundle with an exception has no effect (R173, R174): its core halts at it with SEQ_EXC and an exception record of the lowest code and,
among equals, the lowest slot; memory, entries and registers stay. TRAP halts its core after its bundle, with the next bundle in PC and
IMM[7:0] as DETAIL (R146, R173). -/
def Obligations.ExceptionsHaltTheirCore : Prop :=
  (∀ (s : State) (i : Instr) (c : CoreId) (b : Bundle) (x : Nat × Nat × Nat),
     let k := s.core c
     opBundle i = some (c, b) → canLook s c = true → lowestCause (bundleCauses s c b false) = some x →
       ∃ t r, exec i s = .next t ∧ (t.core c).st = .halted ∧ (t.core c).pc = k.pc ∧
         (t.core c).exc = ⟨k.pc, BitVec.ofNat 3 x.2.1, BitVec.ofNat 8 x.2.2, BitVec.ofNat 8 x.1⟩ ∧
         (t.core c).sregs = k.sregs ∧ (t.core c).vregs = k.vregs ∧ (t.core c).tokens = k.tokens ∧ (t.core c).queues = k.queues ∧
         t.errRing = s.errRing ++ [r] ∧ r.code = BitVec.ofNat 8 x.1 ∧ r.uclass = 1 ∧ r.uinst = BitVec.ofNat 12 c.val ∧
         CoreFrame c s t) ∧
  (∀ (s : State) (c : CoreId) (imm : BitVec 25), Issues s (.trap c imm) →
     ∃ t r, exec (.trap c imm) s = .next t ∧ (t.core c).st = .halted ∧ (t.core c).pc = (s.core c).pc + 1 ∧
       (t.core c).exc = ⟨(s.core c).pc, 2, imm.truncate 8, 0x0E⟩ ∧ t.errRing = s.errRing ++ [r] ∧ r.code = 0x0E ∧ CoreFrame c s t)

/-- TESTWIN (R170): a core whose work is done waits at it for its partner; when the partner is there with the same count both pass, and with
a due pair both begin their window; unequal counts halt both with a rendezvous-mismatch exception. -/
def Obligations.TestwinRendezvous : Prop :=
  ∀ (s : State) (c : CoreId),
    let k := s.core c
    let q := s.core (partner c)
    let due := (s.pair (c.val % 16)).due
    Ready s c [] → allDone s c = true →
      ∃ t, exec (.testwin c) s = .next t ∧
        if q.twHere = false then (t.core c).st = .holding ∧ (t.core c).twHere = true ∧ (t.core c).pc = k.pc
        else if q.twCount = k.twCount then
          (t.core c).pc = k.pc + 1 ∧ (t.core c).twCount = k.twCount + 1 ∧ (t.core (partner c)).twCount = k.twCount + 1 ∧
            ((t.core c).st = if due then SeqState.window else .running) ∧ (t.pair (c.val % 16)).due = false
        else q.st ≠ .halted → q.st ≠ .window → (t.core c).st = .halted ∧ (t.core c).exc.cause = 0x0D ∧
          (t.core (partner c)).st = .halted ∧ (t.core (partner c)).exc.cause = 0x0D

/-- The timeouts of WAIT, BAR and TESTWIN (R164, R170, R174): when the timer of the held condition has run WAIT_TMO microseconds, the core
halts at the bundle with the wait-timeout or barrier-timeout cause; before that nothing happens. SEQ_CTRL (R175, R176): RESUME sets a core
halted by a wait timeout, TRAP or breakpoint running with its exception cleared, or halts it by a token overflow that came meanwhile (R162);
START sets an idle core running, VREFUSE sets its bit. -/
def Obligations.TimeoutsAndControl : Prop :=
  (∀ (s : State) (c : CoreId) (b : Bundle) (start : Nat),
     let k := s.core c
     s.live = true → s.stopped = false → k.st = .holding → k.waitStart = some start → k.waitTmo ≠ 0 →
       let out := start + 800 * k.waitTmo.toNat ≤ s.cycle
       let halts := fun (i : Instr) (cause : BitVec 8) =>
         ∃ t, exec i s = .next t ∧
           if out then (t.core c).st = .halted ∧ (t.core c).exc.cause = cause ∧ (t.core c).pc = k.pc ∧ CoreFrame c s t else t = s
       (k.heldAt = some b →
         (b.sync.op = 1 → waitHolds k b.sync = false → halts (.waitTimeout c) 0x0B) ∧
         (b.sync.op = 3 → barHolds s c (syncGrp b.sync) = false → halts (.barrierTimeout c) 0x0C)) ∧
       (k.twHere = true → halts (.rendezvousTimeout c) 0x0B)) ∧
  (∀ (s : State) (c : CoreId),
     let k := s.core c
     s.live = true →
       (k.st = .halted → k.exc.cause = 0x0B ∨ k.exc.cause = 0x0E ∨ k.exc.cause = 0x0F →
         ∃ t, exec (.seqCtrlResume c) s = .next t ∧ (t.core c).pc = k.pc ∧ (t.core c).sregs = k.sregs ∧ CoreFrame c s t ∧
           match k.overflow with
           | none => (t.core c).st = .running ∧ (t.core c).exc = {}
           | some _ => (t.core c).st = .halted ∧ (t.core c).exc.cause = 0x0A) ∧
       (k.st = .idle → exec (.seqCtrlStart c) s = .next (s.modCore c fun k => { k with st := .running })) ∧
       exec (.vrefuseSet c) s = .next (s.modCore c fun k => { k with vrefuse := true }))

/-! ### Campion (R170 to R172, R437 to R441) -/

/-- Campion's pairs (R171, R172, R437 to R439): 250 ms after its last window's start a pair is due, or with both cores idle begins its window
at once; a forced window starts after 150 ms due on a core whose work has completed, with record 0x20; a pair 100 ms due is recorded overdue
for both cores; a window of 200 µs ends and is counted, and with equal signatures of the pair is a new passing step, with different ones waits
for the reference; a unit that fails its test is recorded with 0x1E. REFERENCE_RECOMPUTE (R440, R448): of a pair whose signatures differed, a
core that differs from the reference gets a mismatch record, and one whose rerun reproduces it is classified permanent; when neither differs
the reference engine itself is named. -/
def Obligations.CampionWindows : Prop :=
  (∀ (s : State) (p : PairId) (c : CoreId) (u : TestUnit) (forced : Option CoreId) (eq : Bool) (parity : Option CoreId),
     let x := s.pair p
     let y := s.pair (c.val % 16)
     let cores := match forced with
       | some d => if d.val % 16 = p.val then [d.val] else []
       | none => pairCores p
     s.live = true → s.stopped = false →
       (x.due = false → pairBusy s p = false → x.start + 200000000 ≤ s.cycle →
         ∃ t, exec (.pairDue p) s = .next t ∧
           if (pairCores p).all fun d => (s.core d).st == .idle then
             (∀ d ∈ pairCores p, (t.core d).st = .window ∧ (t.core d).winStart = some s.cycle) ∧ (t.pair p).due = false ∧
               (t.pair p).start = s.cycle
           else t = s.modPair p fun x => { x with due := true, dueAt := s.cycle, overdueSent := false }) ∧
       (x.due = true → x.overdueSent = false → x.dueAt + 80000000 ≤ s.cycle →
         ∃ t r q, exec (.testOverdue p) s = .next t ∧ t.errRing = s.errRing ++ [r, q] ∧ r.code = 0x1F ∧ q.code = 0x1F ∧
           r.uinst = BitVec.ofNat 12 p.val ∧ q.uinst = BitVec.ofNat 12 (p.val + 16) ∧ (t.pair p).overdueSent = true) ∧
       (y.due = true → y.dueAt + 120000000 ≤ s.cycle → s.integ.lab = false → (s.core c).winStart = none → (s.core c).winForced = false →
         windowReady (s.core c) s.cycle = true →
         ∃ t r, exec (.forcedTestWindow c) s = .next t ∧ t.errRing = s.errRing ++ [r] ∧ r.code = 0x20 ∧
           (t.core c).st = .window ∧ (t.core c).winStart = some s.cycle) ∧
       (cores ≠ [] → (∀ d ∈ cores, ∃ w, (s.core d).winStart = some w ∧ w + 160000 ≤ s.cycle) →
         ∃ t, exec (.testWindowEnd p forced eq parity) s = .next t ∧ (∀ d ∈ cores, (t.core d).winStart = none) ∧
           t.integ.windows = satAdd 32 s.integ.windows cores.length ∧
           (forced = none → parity = none → s.waitingReset.cores = 0 →
             if eq then ∀ d ∈ pairCores p, (t.core d).lastPass = (s.core d).winStep else (t.pair p).mismatch = true)) ∧
       (s.integ.lab = false → exec (.campionUnitTest u true) s = .next s ∧
         ∃ t r, exec (.campionUnitTest u false) s = .next t ∧ t.errRing = s.errRing ++ [r] ∧ r.code = 0x1E)) ∧
  (∀ (s : State) (p : PairId) (unit : Fin 5) (sub : BitVec 4) (ok1 ok2 r1 r2 : Bool),
     let differs := fun (t : State) (d : Nat) (rerunOk : Bool) =>
       (∃ r ∈ t.errRing.drop s.errRing.length, r.code = 0x1E ∧ r.uclass = BitVec.ofNat 4 (testedUnit unit sub.toNat d).1 ∧
         r.uinst = BitVec.ofNat 12 (testedUnit unit sub.toNat d).2) ∧
       (rerunOk = false → ∃ r ∈ t.errRing.drop s.errRing.length, r.code = 0x23 ∧ r.detail = 0x1E)
     s.live = true → (s.pair p).mismatch = true →
       ∃ t, exec (.referenceRecompute p unit sub ok1 ok2 r1 r2) s = .next t ∧ (t.pair p).mismatch = false ∧
         (ok1 = false → differs t p r1) ∧ (ok2 = false → differs t (p.val + 16) r2) ∧
         (ok1 = true → ok2 = true → ∃ r, t.errRing = s.errRing ++ [r] ∧ r.code = 0x1E ∧ r.uclass = 0xC))

/-! ### Vaults (R186 to R218) -/

/-- VAULT_READ (R190 to R193): a read delivers the granule as it stands afterwards and changes no other byte; of a clean granule its bytes
and mark; one symbol error of the read is corrected, counted once in VLT_ECC.CE, and the stored bytes stay right; three symbol errors in both
reads, found uncorrectable, are delivered poisoned, written back marked, counted in VLT_ECC.UE and recorded with 0x14 (stated with room in the
window of R199). VAULT_WRITE (R186, R194, R200): the bytes are in memory, the page is DIRTY (R369), a write of a whole granule sets or clears
its mark where no injection is armed, and with no error standing every other byte stays. -/
def Obligations.VaultReadsAndWrites : Prop :=
  (∀ (s : State) (a pos : Nat) (e : BitVec 16) (d d2 : Disturb),
     let g := a / 64
     let v := vaultOf a
     let clean := mget [] s.errs g = [] ∧ mget 0 s.metaErrs g = 0
     s.live = true → s.stopped = false → a < Config.dramEnd →
       (d.cmdFail = false → d2.cmdFail = false →
         ∃ t, exec (.vaultRead a d d2) s = .next t ∧ (t.vault v).lastRead = some (readP t (64 * g) 64) ∧
           ∀ x, x < 64 * g ∨ 64 * g + 64 ≤ x → t.byte x = s.byte x) ∧
       (clean → ∃ t, exec (.vaultRead a quiet quiet) s = .next t ∧ (t.vault v).lastRead = some (readP s (64 * g) 64) ∧ t.mem = s.mem ∧
         t.marks = s.marks) ∧
       (clean → pos < 36 → e ≠ 0 → rsOfPattern (patternXor [] [(pos, e.toNat)]) = .corrected [(pos, e.toNat)] →
         ∃ t, exec (.vaultRead a ⟨[(pos, e)], 0, false⟩ quiet) s = .next t ∧
           (t.vault v).ce = satAdd 32 (s.vault v).ce 1 ∧ (t.vault v).ue = (s.vault v).ue ∧ t.errRing = s.errRing) ∧
       (clean → d.cmdFail = false → rsOfPattern (patternXor [] (patternOf d.syms)) = .uncorrectable →
         (s.vault v).detWindow = s.nowNs / 1000000 → (s.vault v).detCount < 64 →
         ∃ t r, exec (.vaultRead a d d) s = .next t ∧ t.mark g = true ∧ (t.vault v).ue = satAdd 16 (s.vault v).ue 1 ∧
           (∃ l, (t.vault v).lastRead = some l ∧ l.all (·.2) = true) ∧ t.errRing = s.errRing ++ [r] ∧ r.code = 0x14)) ∧
  (∀ (s : State) (a : Nat) (data : List Byte) (psn pathBad : Bool) (merge : Disturb),
     s.live = true → s.stopped = false → data ≠ [] → a + data.length ≤ Config.dramEnd →
       ∃ t, exec (.vaultWrite a data psn pathBad merge) s = .next t ∧ (∀ i, ∀ h : i < data.length, t.byte (a + i) = data[i]) ∧
         (∀ i < data.length, mget false t.mirror.dirty ((a + i) / 4096) = true) ∧
         ((∀ v : VaultId, (s.vault v).inj.arm = false) → ∀ g, a ≤ 64 * g → 64 * g + 64 ≤ a + data.length →
           t.mark g = (psn || pathBad || merge.cmdFail)) ∧
         (s.errs = [] → merge = quiet → (∀ x, x < a ∨ a + data.length ≤ x → t.byte x = s.byte x) ∧ t.errRing = s.errRing))

/-- The other events of a vault (R195, R199, R204, R207 to R212, R218): a command path that fails is recorded 0x18 and withdraws the part; a
window of replaced detections ends in one summary record; a refresh covers four pages of its bank; a self-test sets ST_DONE, substitutes a
spare for every failing user page while it has one, and with checkers that fail sets ST_FAIL; an arming write of VLT_INJ takes the fields of
the word; a scrub read moves on to the next granule, the first sets the pass going and the last counts it. -/
def Obligations.VaultEvents : Prop :=
  ∀ (s : State) (v : VaultId) (die : Fin 8) (bank : Fin 32) (val : Word) (ok : Bool) (failing : List (Fin 8 × Fin 32 × Nat))
    (d1 d2 : Disturb),
    let u := s.vault v
    let pos := if u.scrubAct then u.scrubPos else 0
    s.live = true →
      (∃ t, exec (.commandPathTimeout v die) s = .next t ∧ t.integ.withdrawn = true ∧
        ∃ r ∈ t.errRing.drop s.errRing.length, r.code = 0x18 ∧ r.uinst = BitVec.ofNat 12 (v.val * 8 + die.val)) ∧
      (u.detWindow < s.nowNs / 1000000 →
        ∃ t, exec (.detectionSummary v) s = .next t ∧ (t.vault v).detCount = 0 ∧ (t.vault v).detFirst = none ∧
          match u.detFirst with
          | some (_, a) => ∃ r, t.errRing = s.errRing ++ [r] ∧ r.code = 0x16 ∧ r.addr = a ∧ r.count = BitVec.ofNat 32 u.detSkipped
          | none => t.errRing = s.errRing) ∧
      (u.otstop = false → ∃ t, exec (.refresh v die bank) s = .next t ∧
        mget 0 (t.vault v).refreshPtr (die.val * 32 + bank.val) = (mget 0 u.refreshPtr (die.val * 32 + bank.val) + 4) % 6144) ∧
      (u.stDone = false → ∃ t, exec (.selfTestComplete v ok failing) s = .next t ∧ (t.vault v).stDone = true ∧ t.mem = s.mem ∧
        (t.vault v).stFail = (u.stFail || !(ok && checkersPass)) ∧ (failing = [] → (t.vault v).remap = u.remap) ∧
        ∀ x ∈ failing, x.2.2 < 6144 → (t.vault v).redirects x.1 x.2.1 x.2.2 = true ∨ (t.vault v).remapFull = true) ∧
      (u.inj.arm = false → exec (.vltInjArm v val) s = .next (s.modVault v fun u => { u with inj :=
        ⟨val.getLsbD 63, val.extractLsb' 60 3, val.extractLsb' 54 6, val.extractLsb' 48 6, val.extractLsb' 42 6,
          val.extractLsb' 6 32⟩ })) ∧
      (s.stopped = false → u.scrubEn = true →
        ∃ t, exec (.dramScrubRead v d1 d2) s = .next t ∧
          if pos + 1 < 50335744 then (t.vault v).scrubPos = pos + 1 ∧ (t.vault v).scrubAct = true ∧ (t.vault v).passes = u.passes
          else (t.vault v).scrubPos = 0 ∧ (t.vault v).scrubAct = false ∧ (t.vault v).passes = satAdd 32 u.passes 1)

/-- SRAM_SCRUB_READ (R82, R196 to R198, R210): with the burst's flips standing, a word that decodes is put right without a record; one that
does not is recorded 0x15, and its place carries it: a tile store granule its mark, an accumulator entry its PSN, a pair of directory entries
is invalidated. DRAM_TEMP_SAMPLE (R212, R213, R215): the vault shows its hottest reading and die and the row of that reading; a row reached
from below with twice the refresh is recorded 0x1B, and at 100 °C the device stops, with record 0x1C for the first such reading. -/
def Obligations.SramScrubAndDramTemperature : Prop :=
  (∀ (s : State) (w : SramWord) (b : SramBurst) (left : BitVec 72),
     let key := sramKey w
     let e := mget 0 (burstFlips s key b).sramErrs key
     let acc := ∃ ph n, w = .acc ph n
     s.live = true → s.stopped = false →
       (secded e = .uncorrectable →
         ∃ t, exec (.sramScrubRead w b) s = .next t ∧ (∃ r ∈ t.errRing.drop s.errRing.length, r.code = 0x15) ∧
           match w with
           | .tile _ _ => t.mark (key / 8) = true
           | .acc ph n => (t.entry ph n).getLsbD 61 = true
           | .dir v n => ∀ i < 2, ((t.vault v).entry ((2 * (n % 4096) + i) / 8) ((2 * (n % 4096) + i) % 8)).valid = false
           | _ => True) ∧
       (secded e = .corrected left →
         ∃ t, exec (.sramScrubRead w b) s = .next t ∧ mget 0 t.sramErrs key = left ∧ (¬ acc → t.errRing = s.errRing)) ∧
       (secded e = .clean → ¬ acc → ∃ t, exec (.sramScrubRead w b) s = .next t ∧ t.mem = (burstFlips s key b).mem ∧ t.errRing = s.errRing)) ∧
  (∀ (s : State) (v : VaultId) (l : List (BitVec 11)),
     let u := s.vault v
     let hot := hottestOf (l.map (·.toNat))
     let kept := (u.temps.filter fun e => decide (s.cycle ≤ e.1 + cyclesOfUs 100000)) ++ [(s.cycle, hot.1)]
     let row := nextRow hot.1 ((kept.map (·.2)).foldl max 0)
     let records := fun (t : State) (code : BitVec 8) => ∃ r ∈ t.errRing.drop s.errRing.length, r.code = code
     s.live = true →
       ∃ t, exec (.dramTempSample v l) s = .next t ∧ (t.vault v).temp = BitVec.ofNat 11 hot.1 ∧ (t.vault v).hotdie = BitVec.ofNat 3 hot.2 ∧
         (t.vault v).row = row ∧ (t.vault v).rmode = BitVec.ofNat 2 (min row 3) ∧ (u.row < 2 → 2 ≤ row → records t 0x1B) ∧
         (800 ≤ hot.1 → t.stopped = true ∧ ((nth u.temps (u.temps.length - 1) (0, 0)).2 < 800 → records t 0x1C)) ∧
         (hot.1 < 800 → t.tns = s.tns))

/-! ### Records, unit history and classification (R444 to R458) -/

/-- ERROR_RING_DELIVERY (R457, R529): the oldest record leaves the ring and stands in its unit's page, whose status shows its KIND when
enabled; the first of its instant enters the unit history's waiting entries. The unit history (R444, R446, R447): a write moves the oldest
waiting entry to the flash, a failed one keeps it and starts the retry timer; a retry after 1 s writes it, or after 60 s of failures is
recorded 0x2A with UHFAIL. A second event at one place within 72 h, or a sixteenth in one unit, makes its classification permanent with record
0x23 (R448). -/
def Obligations.RecordsAndHistory : Prop :=
  (∀ (s : State) (r : Rec) (rest : List Rec),
     let n := pageOfUnit r.uclass.toNat r.uinst.toNat
     s.live = true → s.errRing = r :: rest →
       ∃ t, exec .errorRingDelivery s = .next t ∧ t.errRing = rest ∧ (t.page n).errRec = recWords r ∧ (t.page n).lastKind = r.kind ∧
         ((s.page n).errEn.getLsbD r.kind.toNat = true → (t.page n).errStat.getLsbD r.kind.toNat = true) ∧
         (s.integ.noted.1 ≠ r.time → t.integ.histPending ≠ []) ∧ t.mem = s.mem) ∧
  (∀ (s : State) (e : HistEntry) (rest : List HistEntry) (since : Nat),
     let taken := fun (i : Instr) => ∃ t, exec i s = .next t ∧ t.integ.history.getLast? = some e ∧ t.integ.histPending = rest ∧
       t.integ.failingSince = none ∧ (s.integ.history.length < historyRoom → t.integ.history = s.integ.history ++ [e])
     s.live = true → s.integ.histPending = e :: rest →
       (s.integ.failingSince = none →
         taken (.unitHistoryWrite true) ∧
         ∃ t, exec (.unitHistoryWrite false) s = .next t ∧ t.integ.history = s.integ.history ∧ t.integ.histPending = e :: rest ∧
           t.integ.failingSince = some s.cycle) ∧
       (s.integ.failingSince = some since →
         (since + 800000000 ≤ s.cycle → taken (.unitHistoryRetry true)) ∧
         (since + 48000000000 ≤ s.cycle → s.integ.uhfail = false →
           ∃ t r, exec (.unitHistoryRetry false) s = .next t ∧ t.errRing = s.errRing ++ [r] ∧ r.code = 0x2A ∧ t.integ.uhfail = true))) ∧
  (∀ (s : State) (uc : BitVec 4) (ui : BitVec 12) (loc : BitVec 48) (code : BitVec 8),
     let unit := unitId uc.toNat ui.toNat
     let es := s.entriesFor unit loc
     s.live = true → (∃ e ∈ es, e.ekind = 1 ∧ unitKey e.unit = unitKey unit ∧ e.ecode = code) →
       (2 ≤ eventsOf s es unit (fun e => e.unit == unit && e.loc == loc) ∨ 16 ≤ eventsOf s es unit fun _ => true) →
       classified s uc.toNat unit loc = false →
       ∃ t, exec (.permanentClassification uc ui loc code) s = .next t ∧ t.integ.perm = satAdd 16 s.integ.perm 1 ∧
         ∃ r ∈ t.errRing.drop s.errRing.length, r.code = 0x23 ∧ r.uclass = uc ∧ r.uinst = ui ∧ r.detail = code.zeroExtend 32)

/-! ### Power, voltage and stops (R464 to R484) -/

/-- The cap registers (R464, R467, R486): a value of 400 W to 1,200 W from an agent that may write the field takes effect, and ECAP is the
least cap in force; another value leaves the fields with record 0x80. CAP_ALERT_N low is recorded 0x83, and outside a stop it drops every
budget allowance to 8 and makes the alert cap count (R484: during a stop it waits for the resume); high ends the assertion. -/
def Obligations.PowerCaps : Prop :=
  ∀ (s : State) (w : BitVec 11) (a : Agent),
    let ok := 400 ≤ w.toNat ∧ w.toNat ≤ 1200
    let takes := fun (i : Instr) (field : Tansy → BitVec 11) =>
      (ok → ∃ t, exec i s = .next t ∧ field t.tns = w ∧ t.tns.ecap = BitVec.ofNat 11 (effectiveCap t.tns)) ∧
        (¬ ok → ∃ t r, exec i s = .next t ∧ t.tns = s.tns ∧ t.errRing = s.errRing ++ [r] ∧ r.code = 0x80)
    s.live = true →
      takes (.mgCapWrite .management w) (fun t => t.mgCap) ∧ takes (.alertCapWrite .management w) (fun t => t.alertCap) ∧
      (a ≠ .management → mayWrite s a 2 = true → takes (.rtCapWrite a w) (fun t => t.rtCap)) ∧
      (∃ t r, exec .capAlertAssert s = .next t ∧ t.pins.capAlertN = false ∧ t.errRing = s.errRing ++ [r] ∧ r.code = 0x83 ∧
        if s.stopped then t.tns = s.tns
        else t.tns.alertHeld = true ∧ (∀ c : CoreId, budget t c = 8) ∧ t.tns.ecap = BitVec.ofNat 11 (effectiveCap t.tns)) ∧
      exec .capAlertDeassert s = .next { s with pins := { s.pins with capAlertN := true } }

/-- TANSY_PERIOD and CAP_UNATTAINABLE (R465, R466, R469): the headroom is the effective cap less the package power outside the arrays,
bounded by the thermal limit while one is in force; without headroom every allowance is 1, with demands that fit it every allowance is 64, and
every allowance is from 1 to 64. Allowance 1 for 10 ms with the 1 ms average above the cap is recorded 0x81, once in a second of the device's
time (R570). -/
def Obligations.TansyDividesTheHeadroom : Prop :=
  ∀ (s : State) (m : TansySample) (since : Nat),
    let cap : Nat := effectiveCap { s.tns with alertHeld := !s.pins.capAlertN && (s.tns.alertHeld || !s.stopped) } * 1024
    let cores : Nat := ((List.range 32).map fun c => nth m.core c 0).sum
    let h : Int := (cap : Int) - ((m.pkg : Int) - (cores : Int))
    let limited : Int := match s.tns.thermal with | some x => min h x | none => h
    let demands : Nat := ((List.range 32).map (demand (s.modTns fun t => { t with est := updateEstimates s m }))).sum
    s.live = true →
      (∃ t, exec (.tansyPeriod m) s = .next t ∧ t.tns.lastH = h ∧ (∀ c : CoreId, 1 ≤ budget t c ∧ budget t c ≤ 64) ∧
        (limited ≤ 0 → ∀ c : CoreId, budget t c = 1) ∧ (0 < limited → demands ≤ limited → ∀ c : CoreId, budget t c = 64)) ∧
      (s.tns.allOneSince = some since → since + 8000000 ≤ s.cycle → s.tns.lastUnattainable ≠ some (s.cycle * 5 / 4 / 1000000000) →
        effectiveCap s.tns * 100 * 1024 < s.tns.pwrLast →
        ∃ t r, exec .capUnattainable s = .next t ∧ t.errRing = s.errRing ++ [r] ∧ r.code = 0x81 ∧
          t.tns.lastUnattainable = some (s.cycle * 5 / 4 / 1000000000))

/-- Droop, voltage and margin (R470, R473 to R475, R570): a cut stops the core's arrays and counts, its end restarts them, a second with cuts
ends in record 0x82; VAPPLIED takes a permitted write, a lag is recorded 0x89 once in a minute of the device's time; a measured slack below
target raises ADDER by 5 mV with record 0x8A while VREQ is below 850 mV, and at 850 mV is recorded 0x8B with INT_STAT.SVC; every measurement
enters the margin history. -/
def Obligations.DroopAndVoltage : Prop :=
  ∀ (s : State) (c : CoreId) (a : Agent) (mv : BitVec 16) (slack : Nat) (arr : Nat),
    let second := s.cycle * 5 / 4 / 1000000000
    let base := s.flash.base
    s.live = true →
      ((s.core c).droopCut = false →
        ∃ t, exec (.droopCut c) s = .next t ∧ allowance t c arr = 0 ∧ t.tns.droop = satAdd 16 s.tns.droop 1 ∧
          t.tns.droopSecond = second ∧
          t.tns.droopCuts = (if s.tns.droopSecond = second then s.tns.droopCuts + 1 else 1) ∧
          (s.tns.droopSecond ≠ second → s.tns.droopCuts ≠ 0 →
            ∃ r, t.errRing = s.errRing ++ [r] ∧ r.code = 0x82 ∧ r.count = BitVec.ofNat 32 s.tns.droopCuts)) ∧
      ((s.core c).droopCut = true → ∃ t, exec (.droopCutEnd c) s = .next t ∧ (t.core c).droopCut = false ∧
        ∀ r : Fin 4, ((t.core c).array r).rampStart = some (s.cycle + 1 + (4 * c.val + r.val))) ∧
      (s.tns.droopSecond < second → s.tns.droopCuts ≠ 0 →
        ∃ t r, exec .droopRecord s = .next t ∧ t.errRing = s.errRing ++ [r] ∧ r.code = 0x82 ∧
          r.count = BitVec.ofNat 32 s.tns.droopCuts ∧ t.tns.droopCuts = 0) ∧
      (mayWrite s a 2 = true → exec (.vappliedWrite a mv) s = .next { s with tns := { s.tns with vapplied := mv } }) ∧
      (s.tns.vapplied.toNat < s.tns.vreq.toNat → s.tns.lastNotApplied ≠ some (second / 60) →
        ∃ t r, exec .voltageNotApplied s = .next t ∧ t.errRing = s.errRing ++ [r] ∧ r.code = 0x89 ∧
          t.tns.lastNotApplied = some (second / 60)) ∧
      (s.stopped = false → ∃ t e, exec (.marginMeasurement slack) s = .next t ∧ t.flash.margins = s.flash.margins ++ [e] ∧
        e.slack = BitVec.ofNat 16 slack ∧ t.tns.vreq = BitVec.ofNat 16 (vreqOf base.vpart t.tns.adder.toNat) ∧
        if slack < base.slack then
          if vreqOf base.vpart s.tns.adder.toNat < 850 then
            t.tns.adder = satAdd 8 s.tns.adder 5 ∧ ∃ r ∈ t.errRing.drop s.errRing.length, r.code = 0x8A
          else t.tns.adder = s.tns.adder ∧ t.integ.svc = true ∧ ∃ r ∈ t.errRing.drop s.errRing.length, r.code = 0x8B
        else t.tns.adder = s.tns.adder ∧ t.errRing = s.errRing)

/-- Temperatures and stops (R477 to R482): TJMAX shows the hottest logic reading, and one of 105 °C or more stops the device with record
0x86; two low samples of COOL_OK stop it with 0x85; a stop cause during a stop is added to its causes and leaves the first (R484); THERMTRIP_N
goes low at the trip; 60 s of stop become a halt with 0x88; RESUME within 60 s from a stop whose conditions are met clears it with record
0x87 (stated where no transfer waits for it), and the cap alert that came during the stop applies. -/
def Obligations.Stops : Prop :=
  ∀ (s : State) (temps : List (BitVec 11)),
    let hottest := (temps.map (·.toNat)).foldl max 0
    let stops := fun (t : State) (src : StopSrc) =>
      src ∈ t.tns.causes ∧ t.stopped = true ∧
        if s.stopped then t.tns.stopSrc = s.tns.stopSrc ∧ t.tns.stopAt = s.tns.stopAt
        else t.tns.stop = true ∧ t.tns.stopSrc = src ∧ t.tns.stopAt = s.cycle
    s.live = true →
      (∃ t, exec (.logicTempSample temps) s = .next t ∧ t.tns.tjmax.toNat = hottest ∧
        if 840 ≤ hottest then
          stops t .logic ∧ (s.stopped = false → ∃ r ∈ t.errRing.drop s.errRing.length, r.code = 0x86)
        else t.stopped = s.stopped) ∧
      (s.plt.romStarted = true →
        ∃ t, exec .coolantLossStop s = .next t ∧ stops t .coolant ∧ t.pins.coolOk = false ∧ t.tns.coolLowAt = some s.cycle ∧
          (s.pins.coolOk = true → ∃ r ∈ t.errRing.drop s.errRing.length, r.code = 0x85)) ∧
      (s.pins.powered = true → exec .thermalTrip s = .next { s with pins := { s.pins with thermtripN := false } }) ∧
      (s.tns.stop = true → s.tns.halt = false → s.tns.stopAt + 48000000000 ≤ s.cycle →
        ∃ t, exec .stopExpired s = .next t ∧ t.tns.halt = true ∧ (∃ r ∈ t.errRing.drop s.errRing.length, r.code = 0x88) ∧
          ∀ j, s.job = some j → ∃ j', t.job = some j' ∧ j'.halted = true) ∧
      (s.tns.stop = true → s.tns.halt = false → resumable s = true → s.waitingReset.warm = false → s.waitingReset.job = false →
        s.cycle ≤ s.tns.stopAt + 48000000000 → (∀ e ∈ s.sessions, ∀ x ∈ e.2.xfers, x.started = true ∨ x.inDoubt = true) →
        ∃ t, exec .resume s = .next t ∧ t.stopped = false ∧ (∀ v : VaultId, (t.vault v).otstop = false) ∧
          (∃ r ∈ t.errRing.drop s.errRing.length, r.code = 0x87) ∧
          (s.pins.capAlertN = false → s.tns.alertHeld = false → t.tns.alertHeld = true ∧ ∀ c : CoreId, budget t c = 8))

/-! ### Embedding lookups (R220 to R269) -/

/-- LOOKUP (R239 to R243, R266): a descriptor of the core's next place leaves it. Without poison, reserved encoding or fault it opens a lookup
that waits for every owner with unique rows of its part, or waits for a place of its unit; a poisoned one bites, a reserved encoding and a
fault leave no lookup and are recorded by the unit. COUNT_MESSAGE, LOOKUP_PAYLOAD and LOOKUP_RESPONSE (R243 to R250, R332): the owner keeps a
count and reserves landing space when a payload will come, or waits for a tag; a payload whose fence is met and whose records are present is
read and pooled, and its records join the device's own lookup or leave for the requester; an owner's response joins the lookup that waits for
it, and one that reports a failure ends it with that code. Stated where nothing else waits. -/
def Obligations.Lookups : Prop :=
  (∀ (s : State) (c : CoreId) (d : Desc) (psn : Bool),
     let unit := if lookupReserved d then c.val / 8 else lFeature d % 4
     let code := if lookupReserved d then 0x02 else lookupFault s d
     let freed := fun (t : State) => (t.core c).descs = (s.core c).descs.eraseP fun x => x.eng == none && x.desc == d
     s.live = true → s.stopped = false → NothingWaits s → arrives s c none d psn = true →
       (psn = true → ∃ t r, exec (.lookup c d psn) s = .next t ∧ freed t ∧ t.lookups = s.lookups ∧ t.errRing = s.errRing ++ [r] ∧
         r.code = 0x13 ∧ r.uclass = 8 ∧ r.uinst = BitVec.ofNat 12 (c / 8)) ∧
       (psn = false → code ≠ 0 → (lookupReserved d = false → openLookups s unit < 64) →
         ∃ t r, exec (.lookup c d psn) s = .next t ∧ freed t ∧ t.lookups = s.lookups ∧ t.errRing = s.errRing ++ [r] ∧
           r.code = BitVec.ofNat 8 code ∧ r.uclass = 8 ∧ r.uinst = BitVec.ofNat 12 unit ∧
           (lookupReserved d = false → (t.teasel unit).descFlt = satAdd 16 (s.teasel unit).descFlt 1)) ∧
       (psn = false → code = 0 → ∀ tab, tableOf s (dTable d) = some tab → openLookups s unit < 64 →
         ∃ t l, exec (.lookup c d psn) s = .next t ∧ freed t ∧ t.mem = s.mem ∧ t.lookups = s.lookups ++ [l] ∧ l.descId = dId d ∧
           l.batch = lBatch d ∧ l.desc = d ∧ l.core = c.val ∧ l.unit = unit ∧ l.closed = false ∧ l.granted = [] ∧ l.resps = [] ∧
           l.waiting = (ownersOf s tab).filter fun o => uniqueRows s tab (partOf s d) o != []) ∧
       (psn = false → lookupReserved d = false → 64 ≤ openLookups s unit →
         ∃ t w, exec (.lookup c d psn) s = .next t ∧ freed t ∧ t.lookups = s.lookups ∧ t.lookupQueue = [w] ∧ w.core = c.val ∧ w.desc = d)) ∧
  (∀ (s : State) (m : CountMsg) (r : RespMsg) (p : PayloadMsg) (l : Lookup) (tab : TableDesc) (e : EngineId) (cnt : CountMsg),
     let use := LandingUse.lookupPayload m.requester m.batch m.descId
     let got := if p.requester = s.rank then
         payloadFor s tab (partOf s l.desc) l.descId l.batch s.rank (lPool l.desc == 2) else p
     let found := absentOf s tab got.rows
     let records := (poolPayload tab l.desc got (readRows found.1 tab got.rows).2 false).1
     s.live = true → s.stopped = false →
       (m.owner = s.rank → (tableOf s m.table).isSome = true →
         (s.counts.any fun x => x.requester == m.requester && x.descId == m.descId && x.batch == m.batch) = false →
         ∃ t, exec (.countMessage m) s = .next t ∧ t.mem = s.mem ∧
           if m.u = 0 then t.counts = s.counts ++ [m] ∧ t.landings = s.landings
           else match freeTag s with
             | some tag => t.counts = s.counts ++ [m] ∧
               mget none t.landings tag = some ⟨m.requester, 64 + 8 * m.u + 12 * m.p, use, false, false⟩
             | none => t = { s with tagWait := s.tagWait ++ [.count m] }) ∧
       (NothingWaits s → lookupOf s p.batch p.descId = some l → tableOf s (dTable l.desc) = some tab → tableOf s cnt.table = some tab →
         (p.requester = s.rank → l.closed = false ∧ l.waiting.contains s.rank = true) →
         s.counts.find? (fun c => c.requester == got.requester && c.descId == got.descId && c.batch == got.batch) = some cnt →
         (s.payloads.any fun x => x.requester == got.requester && x.descId == got.descId && x.batch == got.batch) = false →
         payloadOk tab got cnt = true → fenceState s l.desc = 0 → found.2 = [] →
         ∃ t, exec (.lookupPayload p e .none) s = .next t ∧ t.payloads = s.payloads ++ [got] ∧
           if p.requester = s.rank then
             lookupOf t l.batch l.descId = some { l with
               waiting := l.waiting.erase s.rank, resps := l.resps ++ [(s.rank, records)] }
           else t.lookups = s.lookups ∧ ∃ u, u.fabOut = s.fabOut ∧
             t = ship u (.response p.requester ⟨p.descId, p.batch, s.rank, none, lFp32 l.desc && lPool l.desc != 3, records⟩)) ∧
       (NothingWaits s → lookupOf s r.batch r.descId = some l → l.closed = false → l.granted.contains r.owner = true →
         l.waiting.contains r.owner = true →
         ∃ t, exec (.lookupResponse r) s = .next t ∧
           match r.fail with
           | none => t.mem = s.mem ∧ lookupOf t r.batch r.descId = some { l with
               waiting := l.waiting.erase r.owner, resps := l.resps ++ [(r.owner, r.records)] }
           | some code => lookupOf t r.batch r.descId = some { l with closed := true } ∧
               ∃ x ∈ t.errRing.drop s.errRing.length, x.code = code ∧ x.uclass = 8 ∧ x.opid = opidDesc l.descId l.batch))

/-- LOOKUP_COMPLETE (R242, R250, R253): when no owner is waited for and no output has to wait for a pass, every output holds the combined
bytes, the lookup is closed and its token is added. Stated for outputs that do not meet, with every row of a raw lookup delivered, in a state
without standing errors in which nothing else waits. -/
def Obligations.LookupOutputs : Prop :=
  ∀ (s : State) (l : Lookup) (tab : TableDesc),
    let x := partOf s l.desc
    let place := fun g => lDst l.desc + g * lPitch l.desc
    s.live = true → s.stopped = false → NothingWaits s → ErrorFree s → lookupOf s l.batch l.descId = some l →
      tableOf s (dTable l.desc) = some tab → l.closed = false → l.waiting = [] → lVector tab l.desc ≤ lPitch l.desc →
      (∀ g < lOutputs l.desc x, (outputBytes s tab l x g).length = lVector tab l.desc ∧
        landsNow s (place g) (lVector tab l.desc) = true) →
      ∃ t, exec (.lookupComplete l.batch l.descId) s = .next t ∧
        (∀ g < lOutputs l.desc x, ∀ i, ∀ h : i < (outputBytes s tab l x g).length, t.byte (place g + i) = (outputBytes s tab l x g)[i]) ∧
        lookupOf t l.batch l.descId = some { l with outDone := true, closed := true } ∧
        (((s.core (lCore l.desc)).token (lTok l.desc)).toNat + 1 < 2 ^ 32 →
          (t.core (lCore l.desc)).token (lTok l.desc) = (s.core (lCore l.desc)).token (lTok l.desc) + 1)

/-- Tier fetches (R229 to R232): a background fetch takes the first absent record not being fetched and asks the host region that the program
names for it; a fetch that completes writes the record's image and sets its presence bit, an image of no fetch is counted late; a fetch that
has taken TIER_TMO microseconds is given up with record 0x36, and the row jobs that wait on it fail. Stated where nothing else waits.
PREFETCH_MESSAGE (R239, R257): a present row of one chunk stands in its hot-row slice afterwards when the slice is on and its set has an
invalid way or already holds it, and the DRAM stays as it is; an absent one starts a fetch that installs it; for a table without prefetch the
message is counted as dropped. -/
def Obligations.RowsComeOnChip : Prop :=
  (∀ (s : State) (tab l q : Nat) (d : TableDesc) (image : List Byte),
     let a := recordAddr d l
     s.live = true → s.stopped = false → tableOf s tab = some d →
       (s.jobRuns = true → tTier d = true → ((List.range (tLrows d)).find? fun x => !present s d x && !fetching s tab x) = some l →
         ∃ t, exec (.backgroundTierFetch tab) s = .next t ∧ t.fetches = s.fetches ++ [⟨tab, l, s.cycle, none, s.fetchSeq⟩] ∧
           t.hostOut = s.hostOut ++
             match s.tierSources.find? fun x => x.table == tab && decide (x.first ≤ l) && decide (l ≤ x.last) with
             | some x => [.tierRead x.sid x.buf (x.hoff + (l - x.first) * x.stride) (tRec d) tab l s.fetchSeq]
             | none => []) ∧
       (image.length = tRec d →
         match s.fetches.find? fun f => f.table == tab && f.lidx == l && f.seq == q with
         | none => exec (.tierFetchComplete tab l ⟨q, image⟩) s = .next { s with late := satAdd 32 s.late 1 }
         | some f => NothingWaits s → s.rowJobs = [] → ErrorFree s → a + tRec d ≤ Config.dramEnd → tPbase d + l / 8 < Config.dramEnd →
           (tPbase d + l / 8 < a ∨ a + tRec d ≤ tPbase d + l / 8) →
           ∃ t, exec (.tierFetchComplete tab l ⟨q, image⟩) s = .next t ∧ present t d l = true ∧ t.fetches = s.fetches.erase f ∧
             ∀ i, ∀ h : i < image.length, t.byte (a + i) = image[i]) ∧
       (NothingWaits s → ∀ f, (s.fetches.find? fun f => f.table == tab && f.lidx == l) = some f → s.tierTmo ≠ 0 →
         f.start + 800 * s.tierTmo.toNat ≤ s.cycle →
         ∃ t, exec (.tierFetchTimeout tab l) s = .next t ∧ t.fetches = s.fetches.erase f ∧ t.mem = s.mem ∧
           t.rowJobs = s.rowJobs.filter (fun j => !waitsOn s d l j) ∧
           ∃ r ∈ t.errRing.drop s.errRing.length, r.code = 0x36 ∧ r.addr = BitVec.ofNat 48 a)) ∧
  (∀ (s : State) (m : PrefetchMsg) (d : TableDesc) (l : Nat),
     let a := recordAddr d l
     let v := s.vault (vaultOf a)
     s.live = true → s.stopped = false → tableOf s m.table = some d →
       (tPrefetch d = false → exec (.prefetchMessage m) s = .next (countDrop s 0)) ∧
       (tPrefetch d = true → m.rows = [l] → l < tLrows d → ErrorFree s →
         ((absentOf s d [l]).2 = [] → tW d ≤ 128 → 0 < tW d → v.sliceOff = false →
           ((hotWay s a).isSome = true ∨ ∃ w < 8, (v.entry (hotSet (chunkUnit a)) w).valid = false) →
           ∃ t, exec (.prefetchMessage m) s = .next t ∧ (hotWay t a).isSome = true ∧ ∀ x < Config.dramEnd, t.byte x = s.byte x) ∧
         ((absentOf s d [l]).2 = [l] → fetching s (tId d) l = false →
           ∃ t, exec (.prefetchMessage m) s = .next t ∧
             t.fetches = s.fetches ++ [⟨tId d, l, s.cycle, some m.batch, s.fetchSeq⟩])))

/-- PIN, IMPORT, EXPORT (R260 to R266): a descriptor of the core's next place leaves it. A poisoned one bites; a reserved encoding and a fault
are recorded by the core's Teasel unit; any other is accepted, and runs at once when its records are present, its fence is met and nothing
holds its writes. Stated for one row in a state without standing errors: a PIN of a one-chunk row leaves its slot pinned, an IMPORT puts the
record of its source in the row's place, an EXPORT puts the row's weights in its destination. A job that has run completes with its token
(R265). -/
def Obligations.RowDescriptors : Prop :=
  (∀ (s : State) (c : CoreId) (d : Desc) (psn : Bool) (kind : Fin 3) (i : Instr),
     let k := kind.val + 2
     let freed := fun (t : State) => (t.core c).descs = (s.core c).descs.eraseP fun x => x.eng == none && x.desc == d
     let recorded := fun (t : State) (n code : Nat) => ∃ r, t.errRing = s.errRing ++ [r] ∧ r.code = BitVec.ofNat 8 code ∧ r.uclass = 8 ∧
       r.uinst = BitVec.ofNat 12 n
     i = (match kind with | 0 => .pin c d psn | 1 => .importRows c d psn | 2 => .exportRows c d psn) →
     s.live = true → s.stopped = false → arrives s c none d psn = true →
       (psn = true → ∃ t, exec i s = .next t ∧ freed t ∧ t.rowJobs = s.rowJobs ∧ recorded t (c / 8) 0x13) ∧
       (psn = false → rowReserved k d = true → ∃ t, exec i s = .next t ∧ freed t ∧ t.rowJobs = s.rowJobs ∧ recorded t (c / 8) 0x02) ∧
       (∀ tab, psn = false → rowReserved k d = false → tableOf s (dTable d) = some tab →
         let s1 := fetchList (freePlace s c none d) tab d
         let j : RowJob := ⟨dId d, rTok d, rCore d, dTable d, d, c / 8, (descPlace s c none d).step, false⟩
         (rowFault s1 k tab d ≠ 0 → ∃ t r, exec i s = .next t ∧ freed t ∧ t.rowJobs = s.rowJobs ∧ t.errRing = s1.errRing ++ [r] ∧
           r.code = BitVec.ofNat 8 (rowFault s1 k tab d)) ∧
         (rowFault s1 k tab d = 0 → ∃ t, exec i s = .next t ∧ freed t ∧ ∃ x ∈ t.rowJobs, { x with ran := false } = j) ∧
         (rowFault s1 k tab d = 0 → ErrorFree s → (absentOf s tab (jobRows s tab j)).2 = [] →
           (k = 4 → (d.w0.getLsbD 45 = true → applyDone s (dTable d) (d.w4.extractLsb' 0 32) = true) ∧
             landsNow s (exportRange s tab d).1 (exportRange s tab d).2 = true) →
           ((importedRows s tab j).any fun l => fetching s (dTable d) l) = false →
           ∃ t, exec i s = .next t ∧ freed t ∧ { j with ran := true } ∈ t.rowJobs ∧ t.errRing = s.errRing ∧
             (k = 2 → ∀ l, jobRows s tab j = [l] → fld d.w0 44 2 = 0 → 0 < tW tab → tW tab ≤ 128 →
               let a := recordAddr tab l
               let set := hotSet (chunkUnit a)
               let v := s.vault (vaultOf a)
               v.sliceOff = false → pinnedIn v set < 6 → ((hotWay s a).isSome = true ∨ ∃ w < 8, (v.entry set w).valid = false) →
               ∃ w, hotWay t a = some w ∧ ((t.vault (vaultOf a)).entry set w).pin = true) ∧
             (k = 3 → fld d.w2 0 40 = 1 →
               let l := (ownerOf s tab (readN s (fld d.w1 0 48) 8 % 2 ^ 40)).2
               recordAddr tab l + tRec tab ≤ Config.dramEnd → tPbase tab + l / 8 < Config.dramEnd →
               (tPbase tab + l / 8 < recordAddr tab l ∨ recordAddr tab l + tRec tab ≤ tPbase tab + l / 8) →
               present t tab l = true ∧ ∀ n < tRec tab, t.byte (recordAddr tab l + n) = s.byte (fld d.w1 0 48 + 128 + n)) ∧
             (k = 4 → ∀ r, exportRows s tab d = [r] →
               ∀ n < tW tab, t.byte (fld d.w1 0 48 + 16 + n) = s.byte (recordAddr tab (ownerOf s tab r).2 + n))))) ∧
  (∀ (s : State) (j : RowJob) (tok : BitVec 6) (dc : CoreId) (id : BitVec 16),
     s.live = true → s.stopped = false → (s.rowJobs.find? fun j => j.descId == id && j.tok == tok && j.core == dc.val) = some j → j.ran = true →
       ∃ t, exec (.pinImportExportComplete id tok dc) s = .next t ∧ t.rowJobs = s.rowJobs.erase j ∧
         (((s.core dc).token tok.toNat).toNat + 1 < 2 ^ 32 →
           ((t.core dc).token tok.toNat).toNat = ((s.core dc).token tok.toNat).toNat + 1))

/-! ### The ledger (R270 to R304) -/

/-- GRAD, SEAL, contributions, markers and a bank's life (R282, R286 to R288, R297, R303): BANK_OPEN opens a clear bank for its step at the
known scale; a GRAD of an open bank frees its place and adds its token, one of a bank that is not open waits, one that bites or has a fault is
recorded; a SEAL of an open bank with no earlier GRAD left notes its token, another waits; an end marker and the messages of a source are
counted, a first fold takes the next slot, and what comes after the seal is late; BANK_CLEAR frees the slots after the commit. -/
def Obligations.LedgerBanks : Prop :=
  ∀ (s : State) (c : CoreId) (d : Desc) (t : TableDesc) (step : BitVec 32) (x : Int) (m : EndMarker) (g : ContribMsg) (r : ContribRec)
    (psn : Bool),
    let tid := tId t
    let b := s.bank tid step
    let sent := (descPlace s c none d).cycle
    let freed := fun (t : State) => (t.core c).descs = (s.core c).descs.eraseP fun y => y.eng == none && y.desc == d
    let recorded := fun (i : Instr) (code : Nat) => ∃ t r, exec i s = .next t ∧ freed t ∧ t.errRing = s.errRing ++ [r] ∧
      r.code = BitVec.ofNat 8 code ∧ r.uclass = 8
    let late := fun (i : Instr) => ∃ t r, exec i s = .next t ∧ t.errRing = s.errRing ++ [r] ∧ r.code = 0x46 ∧
      (b.step = step → (t.bank tid step).late = true)
    let second := sealGone s tid step ||
      s.waitingGrads.any fun w => fld w.desc.w0 0 4 == 6 && dTable w.desc == tid && dStep w.desc == step
    s.live = true → s.stopped = false → tableOf s tid = some t → (paramsOf s t).opt ≠ 0 →
      (mget none s.scales tid = some ⟨step, x⟩ → b.state = 0 → s.jobRuns = true → (∀ w ∈ s.waitingFolds, w.table ≠ tid) →
        (∀ w ∈ s.waitingMarkers, w.table ≠ tid) → (∀ w ∈ s.waitingGrads, dTable w.desc ≠ tid) →
        ∃ t', exec (.bankOpen tid step) s = .next t' ∧ (t'.bank tid step).step = step ∧ (t'.bank tid step).state = 1 ∧
          (t'.bank tid step).xs = x) ∧
      (arrives s c none d psn = true → dTable d = tid → (∀ w ∈ s.waitingGrads, dTable w.desc ≠ tid) →
        (psn = true → recorded (.grad c d psn) 0x13) ∧
        (psn = false → ledgerReserved 5 d = true → recorded (.grad c d psn) 0x02) ∧
        (psn = false → ledgerReserved 5 d = false → gradFault s d sent ≠ 0 → recorded (.grad c d psn) (gradFault s d sent)) ∧
        (psn = false → ledgerReserved 5 d = false → gradFault s d sent = 0 →
          if bankIsOpen s tid (gBatch d) then
            ∃ t', exec (.grad c d psn) s = .next t' ∧ freed t' ∧ (((s.core (rCore d)).token (rTok d).toNat).toNat + 1 < 2 ^ 32 →
              ((t'.core (rCore d)).token (rTok d).toNat).toNat = ((s.core (rCore d)).token (rTok d).toNat).toNat + 1)
          else exec (.grad c d psn) s = .next { s with waitingGrads := s.waitingGrads ++ [⟨c, d, sent⟩] })) ∧
      (arrives s c none d psn = true → dTable d = tid → dStep d = step →
        (psn = true → recorded (.sealBank c d psn) 0x13) ∧
        (psn = false → ledgerReserved 6 d = true → recorded (.sealBank c d psn) 0x02) ∧
        (psn = false → ledgerReserved 6 d = false → (tFrozen s t || second) = true → recorded (.sealBank c d psn) 0x44) ∧
        (psn = false → ledgerReserved 6 d = false → (tFrozen s t || second) = false →
          ∃ t', exec (.sealBank c d psn) s = .next t' ∧ freed t' ∧
            if bankIsOpen s tid step && !gradsPending s tid step sent then
              (t'.bank tid step).sealIssued = true ∧ (t'.bank tid step).sealTok = some (ledgerTok c d)
            else t'.waitingGrads = s.waitingGrads ++ [⟨c, d, sent⟩])) ∧
      (m.table = tid → m.step = step → ownsRange s t = true →
        (bankPast s tid step = true → late (.endMarker m)) ∧
        (bankPast s tid step = false → bankIsOpen s tid step = false →
          exec (.endMarker m) s = .next { s with waitingMarkers := s.waitingMarkers ++ [m] }) ∧
        (bankPast s tid step = false → bankIsOpen s tid step = true → (b.markers.any fun y => y.1 == m.source) = false →
          mget 0 b.got m.source ≤ m.count →
          ∃ t', exec (.endMarker m) s = .next t' ∧ (t'.bank tid step).markers = b.markers ++ [(m.source, m.count)] ∧
            (b.sealIssued = false → t'.mem = s.mem ∧ (t'.bank tid step).state = 1))) ∧
      (g.table = tid → g.batch = step → ownsRange s t = true →
        (bankPast s tid step = true → late (.contributionMessage g)) ∧
        (bankPast s tid step = false → bankIsOpen s tid step = false →
          exec (.contributionMessage g) s = .next { s with waitingFolds := s.waitingFolds ++ [g] }) ∧
        (bankPast s tid step = false → bankIsOpen s tid step = true →
          (b.markers.any fun y => y.1 == g.source && decide (y.2 ≤ mget 0 b.got g.source)) = false →
          g.bag = false → g.records = [r] → (mget 0 b.used r.key ≠ 0 ∨ usedIn t b (rowVault t r.key) < lCap s t) →
          ∃ t', exec (.contributionMessage g) s = .next t' ∧ mget 0 (t'.bank tid step).got g.source = mget 0 b.got g.source + 1 ∧
            mget 0 (t'.bank tid step).used r.key =
              if mget 0 b.used r.key ≠ 0 then mget 0 b.used r.key else usedIn t b (rowVault t r.key) + 1)) ∧
      (b.step = step → b.committed = true → b.state ≠ 0 →
        ∃ t', exec (.bankClear tid step) s = .next t' ∧ (t'.bank tid step).state = 0 ∧ (t'.bank tid step).used = [] ∧
          (t'.bank tid step).markers = [] ∧ (t'.bank tid step).step = step)

/-- SEAL_DECISION (R274, R288, R289): the exact totals of every device decide; apply and skip add the SEAL's token and give the next step its
scale, halt holds the bank with record 0x47; a fault of the bank is recorded and decides nothing. APPLY, its completion and COMMIT (R290,
R292, R302): a descriptor of the core's next place leaves it; one that bites, is reserved or has a fault is recorded. An APPLY that nothing
holds makes a skipped bank applied, or runs the slots of the bank once; its completion makes the bank applied. A COMMIT whose step is done
writes its record and becomes the last commit; one whose step is not done waits. The tokens are stated where no other COMMIT and no other
APPLY waits. -/
def Obligations.SealsAppliesCommits : Prop :=
  (∀ (s : State) (t : TableDesc) (step : BitVec 32) (x : SealTotals) (k : LedgerTok),
     let tid := tId t
     let b := s.bank tid step
     let s1 := fetchParams s t
     let p := paramsOf s1 t
     let tot := jobTotals s t step x
     let dec := decision p (normSquared b.xs tot.q) tot.nfRows
     s.live = true → s.stopped = false → tableOf s tid = some t → b.sealTok = some k → b.step = step → b.state = 2 → b.decided = false →
       (sealFault s1 t b ≠ 0 →
         ∃ t' r, exec (.sealDecision tid step x) s = .next t' ∧ t'.errRing = s1.errRing ++ [r] ∧ r.code = BitVec.ofNat 8 (sealFault s1 t b) ∧
           (t'.bank tid step).decided = false ∧ (t'.bank tid step).sealTok = none) ∧
       (sealFault s1 t b = 0 →
         ∃ t', exec (.sealDecision tid step x) s = .next t' ∧ (t'.bank tid step).decided = true ∧ (t'.bank tid step).decide = dec ∧
           (t'.bank tid step).trows = tot.rows ∧ (t'.bank tid step).k = clipFactor p (normSquared b.xs tot.q) dec ∧
           if dec = 3 then (t'.bank tid step).state = 5 ∧ ∃ r ∈ t'.errRing.drop s.errRing.length, r.code = 0x47
           else (t'.bank tid step).state = 2 ∧
             mget none t'.scales tid = some ⟨step + 1, match tot.emax with | some e => e - 14 | none => b.xs⟩ ∧
             (s.commitWait = [] → ((s.core k.core).token k.tok.toNat).toNat + 1 < 2 ^ 32 →
               ((t'.core k.core).token k.tok.toNat).toNat = ((s.core k.core).token k.tok.toNat).toNat + 1))) ∧
  (∀ (s : State) (c : CoreId) (d : Desc) (t : TableDesc) (k : LedgerTok) (psn : Bool),
     let tid := tId t
     let step := dStep d
     let b := s.bank tid step
     let mine := ledgerTok c d
     let s1 := (freePlace s c none d).modBank tid step fun b => { b with applies := b.applies ++ [mine] }
     let other := mget ({} : Bank) s.banks (2 * tid + (step.toNat + 1) % 2)
     let freed := fun (t : State) => (t.core c).descs = (s.core c).descs.eraseP fun y => y.eng == none && y.desc == d
     let recorded := fun (i : Instr) (code : Nat) => ∃ t r, exec i s = .next t ∧ freed t ∧ t.errRing = s.errRing ++ [r] ∧
       r.code = BitVec.ofNat 8 code ∧ r.uclass = 8
     let adds := fun (t' : State) (n : Nat) (tok : BitVec 6) => ((s.core n).token tok.toNat).toNat + 1 < 2 ^ 32 →
       ((t'.core n).token tok.toNat).toNat = ((s.core n).token tok.toNat).toNat + 1
     let crec := fld d.w1 0 48
     let w : CommitWait := ⟨step, crec, mine⟩
     s.live = true → s.stopped = false → tableOf s tid = some t → dTable d = tid → (arrives s c none d psn = true →
       (∀ i ∈ [Instr.applyBank c d psn, .commit c d psn], psn = true → recorded i 0x13) ∧
       (psn = false → ledgerReserved 7 d = true → recorded (.applyBank c d psn) 0x02) ∧
       (psn = false → ledgerReserved 7 d = false → applyFault s d ≠ 0 → recorded (.applyBank c d psn) (applyFault s d)) ∧
       (psn = false → ledgerReserved 7 d = false → applyFault s d = 0 → b.applies = [] → b.ran = false → earlierApply s tid step = false →
         (b.decide = 2 → ∃ t', exec (.applyBank c d psn) s = .next t' ∧ freed t' ∧ (t'.bank tid step).applied = true ∧
           (t'.bank tid step).applies = [] ∧ (s.commitWait = [] → adds t' (rCore d) (rTok d))) ∧
         (b.decide ≠ 2 → exportFirst s tid step = false → (absentOf s1 t (b.used.map (·.1))).2 = [] →
           ∃ t', exec (.applyBank c d psn) s = .next t' ∧ freed t' ∧ (t'.bank tid step).ran = true ∧ (t'.bank tid step).state = 3 ∧
             (t'.bank tid step).applies = [mine]) ∧
         (b.decide ≠ 2 → (exportFirst s tid step = true ∨ (absentOf s1 t (b.used.map (·.1))).2 ≠ []) →
           ∃ t', exec (.applyBank c d psn) s = .next t' ∧ freed t' ∧ (t'.bank tid step).ran = false ∧
             (t'.bank tid step).applies = [mine])) ∧
       (psn = false → ledgerReserved 8 d = true → recorded (.commit c d psn) 0x02) ∧
       (psn = false → ledgerReserved 8 d = false → mayOutput s crec (commitBytes s) = false → recorded (.commit c d psn) 0x07) ∧
       (psn = false → ledgerReserved 8 d = false → mayOutput s crec (commitBytes s) = true → s.commitWait.contains w = false →
         (s.mirror.mismatch = true → ∃ t', exec (.commit c d psn) s = .next t' ∧ freed t' ∧ (t'.job.map (·.lastCommit)) = s.job.map (·.lastCommit) ∧
           ∃ r ∈ t'.errRing.drop s.errRing.length, r.code = 0x66) ∧
         (s.mirror.mismatch = false → stepHalted s step = false →
           if ((trained s).all fun t => stepDone s step t) && landsNow s crec (commitBytes s) then
             ∃ t', exec (.commit c d psn) s = .next t' ∧ freed t' ∧ (t'.job.map (·.lastCommit)) = s.job.map (fun _ => some step) ∧
               adds t' (rCore d) (rTok d) ∧ (∀ l ∈ t'.batches, l.step ≠ step) ∧
               ∀ i, ∀ h : i < (commitRecord s step).length, t'.byte (crec + i) = (commitRecord s step)[i]
           else ∃ t', exec (.commit c d psn) s = .next t' ∧ freed t' ∧ t'.commitWait = s.commitWait ++ [w]))) ∧
       (b.step = step → b.applies = [k] → b.ran = true → NothingWaits s → s.rowJobs = [] → s.commitWait = [] → other.applies = [] →
         ∃ t', exec (.applyComplete tid step) s = .next t' ∧ (t'.bank tid step).state = 4 ∧ (t'.bank tid step).applied = true ∧
           (t'.bank tid step).applies = [] ∧ (t'.bank tid step).ran = false ∧ adds t' k.core k.tok))

/-! ### The fabric (R309 to R353) -/

/-- The exchange descriptors and their end (R242, R336, R337, R341 to R345): a PUT or collective that arrives in its order and has no fault is
open under its step and id, an operation of nothing adds its token at once, a reserved bit leaves no operation but record 0x02, another fault
record 0x5A, a poisoned descriptor a bite; completion once its outputs are written and its packets have left (log entry 118), and DONE for a
PUT, close the operation with its token, FAIL closes it with the code and without token; other operations stay open. -/
def Obligations.ExchangeOperations : Prop :=
  ∀ (s : State) (c : CoreId) (e : EngineId) (ad : Bool) (d : Desc) (o : XOp) (port : PortId) (f : Frame) (code : BitVec 8),
    let eng := some (e.val, ad)
    let step := (descPlace s c eng d).step
    let s0 := freePlace s c eng d
    let tok := fun (t : State) (x : Desc) => ((t.core (rCore x)).token (rTok x).toNat).toNat
    let closes := fun (i : Instr) (n : Nat) => ∃ t, exec i s = .next t ∧ xopOf t o.step o.descId = none ∧ tok t o.desc = tok s o.desc + n ∧
      ∀ st id, st ≠ o.step ∨ id ≠ o.descId → (xopOf t st id).isSome = (xopOf s st id).isSome
    let opens := fun (kind : Nat) (i : Bool → Instr) =>
      (arrives s c eng d false = true → xStray d = false →
        (xchgFault s0 kind ad d = false → xCount d ≠ 0 → xopOf s step (dId d) = none →
          ∃ t x, exec (i false) s = .next t ∧ xopOf t step (dId d) = some x ∧ x.kind = kind ∧ x.desc = d ∧ x.eng = e.val ∧
            x.core = c.val ∧ (t.core c).descs = (s0.core c).descs) ∧
        (xchgFault s0 kind ad d = false → xCount d = 0 → tok s d + 1 < 2 ^ 32 →
          ∃ t, exec (i false) s = .next t ∧ t.xops = s.xops ∧ tok t d = tok s d + 1) ∧
        (xchgFault s0 kind ad d = true →
          ∃ t r, exec (i false) s = .next t ∧ t.xops = s.xops ∧ t.errRing = s.errRing ++ [r] ∧ r.code = 0x5A ∧ r.uclass = 9 ∧
            r.uinst = BitVec.ofNat 12 e.val)) ∧
      (arrives s c eng d false = true → xStray d = true →
        ∃ t r, exec (i false) s = .next t ∧ t.xops = s.xops ∧ t.errRing = s.errRing ++ [r] ∧ r.code = 0x02) ∧
      (arrives s c eng d true = true →
        ∃ t r, exec (i true) s = .next t ∧ t.xops = s.xops ∧ t.errRing = s.errRing ++ [r] ∧ r.code = 0x13)
    s.live = true →
      (s.stopped = false → opens 1 (.put c e ad d) ∧ opens 2 (.reduceScatter c e ad d) ∧ opens 3 (.allGather c e ad d) ∧
        opens 4 (.allReduce c e ad d)) ∧
      (xopOf s o.step o.descId = some o → tok s o.desc + 1 < 2 ^ 32 →
        (s.stopped = false → o.written = true → o.outbox = [] → haveLanded s (outputRange s o).1 (outputRange s o).2 = true →
          closes (.exchangeComplete o.step o.descId) 1) ∧
        (Arrives s port 4 f → o.kind = 1 → closes (.donePacket ⟨port, f⟩ o.step o.descId) 1)) ∧
      (xopOf s o.step o.descId = some o → Arrives s port 5 f →
        closes (.failPacket ⟨port, f⟩ o.step o.descId code) 0 ∧
          ∃ t, exec (.failPacket ⟨port, f⟩ o.step o.descId code) s = .next t ∧
            ∃ r ∈ t.errRing.drop s.errRing.length, r.code = code ∧ r.uclass = 9)

/-- Packets on a port that is UP (R317, R320, R327, R330, R331, R333, R335): a packet that its window allows is written, acknowledged and its
credits go back; a frame for another device leaves by the next hop of its route or waits there; a grant is kept, one of a lookup answered;
RELEASE and CREDIT give space back; ACK frees the replay buffer up to its SEQ, NAK sends from its SEQ again. In the header of a mirror region
the device keeps the CRC itself (R371). -/
def Obligations.FabricPackets : Prop :=
  ∀ (s : State) (port : PortId) (k : Packet) (f : Frame) (h : Hop) (g : GrantBody) (l : Lookup) (t0 : TableDesc) (n : Nat) (vc : BitVec 3)
    (dl : Bool) (pre post : List ReplayEntry) (e : ReplayEntry) (seq : BitVec 12),
    let x := s.port port
    let a := windowAddr s k
    let r := received s port f
    let m : OutMsg := .transit h.exit { f with head := { f.head with dl := h.dl } }
    let key := subchannel m.vc h.dl
    let src := f.head.src.toNat
    let crcPlace := fun (y : Nat) => ∃ q, s.prog.bind (·.mirror) = some q ∧ q.base + offCrc ≤ y ∧ y < q.base + 4096
    s.live = true →
      (Arrives s port 1 k.frame → (∀ v, classVc s port k.tag = some v → v = k.frame.head.vc) → k.tag < 64 → windowOk s port k = true →
        ∃ t, exec (.dataPacket port k) s = .next t ∧ (t.port port).rxSeq = x.rxSeq + 1 ∧
          (∃ more, t.fabOut = s.fabOut ++
            [.ack port k.frame.head.seq, .credit port k.frame.head.vc k.frame.head.dl (k.frame.payload.length / 16 + 1)] ++ more) ∧
          (port.val ≠ twinPort → Stores s t a k.body) ∧
          (port.val = twinPort → s.errs = [] → s.sramErrs = [] → (∀ v : VaultId, (s.vault v).inj.arm = false) →
            (∀ i, ∀ hi : i < k.body.length, ¬ crcPlace (a + i) → t.byte (a + i) = k.body[i]) ∧
              ∀ y, y < a ∨ a + k.body.length ≤ y → ¬ crcPlace y → t.byte y = s.byte y)) ∧
      (x.st = .up → f.crcOk = true → f.head.seq = x.rxSeq → f.malformed = false → nextHop s port f.head = some h →
        ∃ t, exec (.packetTransit port f) s = .next t ∧ t.mem = s.mem ∧
          if mayLeave (r.port h.exit) key m then t.fabOut = r.fabOut ++ [m.stamp (r.port h.exit).txSeq]
          else (t.port h.exit).waiting = (r.port h.exit).waiting ++ [(key, m)]) ∧
      (Arrives s port 2 f →
        (g.lookup = false → ∃ t, exec (.grantPacket ⟨port, f⟩ g) s = .next t ∧ t.mem = s.mem ∧
          ∃ y ∈ t.grants, y.grant = ⟨src, f.head.tag.toNat, g.size, false, g.opStep, g.opDesc⟩) ∧
        (g.lookup = true → lookupOf s g.opStep g.opDesc = some l → tableOf s (dTable l.desc) = some t0 → l.closed = false →
          l.waiting.contains src = true → l.granted.contains src = false → (freeTag s).isSome = true →
          ∃ t, exec (.grantPacket ⟨port, f⟩ g) s = .next t ∧ t.mem = s.mem ∧
            lookupOf t g.opStep g.opDesc = some { l with granted := l.granted ++ [src] })) ∧
      (Arrives s port 3 f → ∃ t, exec (.releasePacket port f n) s = .next t ∧ t.mem = s.mem ∧ (t.port port).rxSeq = x.rxSeq + 1 ∧
        ((∀ w ∈ s.outWait, w.1 ≠ src) → mget 0 t.inbox src = mget 0 s.inbox src - n) ∧
        ∀ q, q ≠ src → mget 0 t.inbox q = mget 0 s.inbox q) ∧
      (x.st ≠ .quarantine → ∃ t, exec (.creditReturn port vc dl n) s = .next t ∧ t.mem = s.mem ∧
        (x.waiting = [] → t.fabOut = s.fabOut ∧
          mget 0 (t.port port).credits (subchannel vc.toNat dl) = mget 0 x.credits (subchannel vc.toNat dl) - n)) ∧
      (x.replay = pre ++ e :: post → (∀ y ∈ pre, y.covers seq = false) → e.covers seq = true →
        (∃ t more, exec (.linkAck port seq) s = .next t ∧ t.fabOut = s.fabOut ++ more.map (·.msg) ∧
          (t.port port).replay = (if seq = e.seq + BitVec.ofNat 12 (e.count - 1) then post else e :: post) ++ more) ∧
        (x.st = .up ∨ x.st = .foreign →
          ∃ t, exec (.linkNak port seq) s = .next t ∧ t.fabOut = s.fabOut ++ (e :: post).map (·.msg) ∧
            (t.port port).replayCnt = satAdd 16 x.replayCnt 1 ∧
            ((∀ y ∈ e :: post, y.times < 7) → (t.port port).st = x.st) ∧ ((∃ y ∈ e :: post, 7 ≤ y.times) → (t.port port).st = .train)))

/-- The states of a port (R312 to R316, R320, R349, R352): signal, lock, HELLO and AUTH take it from DOWN to UP, to FOREIGN for another job,
or to HELD with record 0x53 or 0x52; training without lock for 1 s, and a lost link, take it DOWN, the latter with record 0x51; a retrain goes
back to training; the credit timeout quarantines it with record 0x58; a cabled port absent for UP_TMO withdraws the start with record 0x50.
Memory and cores stay where no operation and no start waits on the port. -/
def Obligations.LinkStates : Prop :=
  ∀ (s : State) (p : PortId) (bad : BitVec 12) (w : BitVec 2) (lg : Nat) (f : Frame) (h : HelloPkt) (a : AuthPkt) (vc : BitVec 3) (dl : Bool)
    (j : Job) (t0 : Nat),
    let x := s.port p
    let failed := failedGroups p (bad ||| x.dropped)
    let width := max (max (widthOf p failed) w.toNat) (maxWidth p x)
    let start := mget 0 x.stalled (subchannel vc.toNat dl)
    let key := subchannel vc.toNat dl
    let idle := s.xops = [] ∧ s.lookups = [] ∧ s.mirror.ckpt = none ∧ s.mirror.waitingSnaps = [] ∧ (s.job.bind (·.startAt)) = none
    let goes := fun (i : Instr) (st : LinkState) => ∃ t, exec i s = .next t ∧ (t.port p).st = st ∧
      (idle → t.mem = s.mem ∧ ∀ c : CoreId, t.core c = s.core c)
    let records := fun (i : Instr) (st : LinkState) (code : BitVec 8) =>
      ∃ t, exec i s = .next t ∧ (t.port p).st = st ∧
        ∃ r ∈ t.errRing.drop s.errRing.length, r.code = code ∧ r.uclass = 9 ∧ r.uinst = BitVec.ofNat 12 p.val
    s.live = true →
      (x.st = .down → x.en = true → goes (.signalDetect p) .train) ∧
      (x.st = .train → width < 3 → ∃ t, exec (.trainLock p bad w lg) s = .next t ∧ (t.port p).st = .hello ∧
        (t.port p).width.toNat = width ∧ (t.port p).lanebad = failed ∧ t.fabOut = s.fabOut ++ [.hello p (helloOf s p)]) ∧
      (x.st = .train → 3 ≤ width → goes (.trainLock p bad w lg) .down) ∧
      (x.st = .train → x.since + 800000000 ≤ s.cycle → goes (.trainTimeout p) .down) ∧
      (x.st = .hello → f.crcOk = true → f.head.typ.toNat = 8 → f.malformed = false →
        if x.laneGen.toNat ≤ min (ownGen s p).toNat h.gen then goes (.helloPacket ⟨p, f⟩ h) .auth else goes (.helloPacket ⟨p, f⟩ h) .train) ∧
      (x.st = .auth → x.peerHello = some h → f.crcOk = true → f.head.typ.toNat = 9 → f.malformed = false →
        (a.verifies = false → records (.authPacket ⟨p, f⟩ a) .held 0x53) ∧
        (a.verifies = true → (∀ k, x.peerKey = some k → k = a.keyDigest ∧ a.sameKey = true) → x.discRetrain = false →
          (sameJob s h = true → placedPeer s p a.keyDigest = true → goes (.authPacket ⟨p, f⟩ a) .up) ∧
          (sameJob s h = true → placedPeer s p a.keyDigest = false → records (.authPacket ⟨p, f⟩ a) .held 0x52) ∧
          (sameJob s h = false → goes (.authPacket ⟨p, f⟩ a) .foreign))) ∧
      (x.st = .up ∨ x.st = .foreign →
        (∃ t, exec (.linkRetrain p bad) s = .next t ∧ (t.port p).st = .train ∧ (t.port p).retrain = satAdd 8 x.retrain 1) ∧
        ∃ t, exec (.fabRetrain p) s = .next t ∧ (t.port p).st = .train ∧ t.fabOut = s.fabOut ++ [.retrain p]) ∧
      (x.st = .held → goes (.fabRetrain p) .train) ∧
      (x.st ≠ .down → x.st ≠ .held → x.st ≠ .quarantine →
        goes (.linkDown p) .down ∧ (x.peerKey.isSome = true → records (.linkDown p) .down 0x51)) ∧
      (s.stopped = false → x.st = .up → start ≠ 0 → (x.waiting.any fun y => y.1 == key) = true →
        start - 1 + 800000 * x.credTmo.toNat ≤ s.cycle → records (.creditTimeout p vc dl) .quarantine 0x58) ∧
      (s.job = some j → j.startAt = some t0 → (cabledTo j.prog j.rank p).isSome = true → x.st ≠ .up → x.upTmo ≠ 0 →
        t0 + 800000000 * x.upTmo.toNat ≤ s.cycle →
        ∃ t r, exec (.linkAbsentTimeout p) s = .next t ∧ t.job = some { j with startAt := none } ∧ t.errRing = s.errRing ++ [r] ∧
          r.code = 0x50)

/-! ### Digests and checkpoints (R364 to R375) -/

/-- SNAP and the digests (R364 to R366, R371): a SNAP of the core's next place leaves it and adds its token, with DIG beginning a digest point
with every region page pending, with CKPT taking the dirty pages of the set in order, or failing with record 0x67 where its destination is not
there; a second checkpoint waits. A page's CRC is taken once; equal digests count a region, and the last one ends a point agreed; different
ones set MISMATCH and count every differing page. Checkpoints to the twin and to host storage (R370, R372, R373, R375, R420): each send takes
the next page of the checkpoint, the last one writes the header; its acknowledgement commits the step; a committed journal of one page is
copied to its place in the image; the stream to a session sends the page with its CRC, a poisoned page ends it with record 0x67. -/
def Obligations.SnapshotsAndCheckpoints : Prop :=
  (∀ (s : State) (c : CoreId) (d : Desc) (psn : Bool) (p : Program) (g : Digest) (i page r : Nat) (peers : List (BitVec 64))
     (diff : List (Nat × Nat × BitVec 8)),
     let m := s.mirror
     let pages := sortNats ((setPages p).filter fun q => mget false m.dirty q)
     let own := regionDigest s r (crcsOf s i g)
     let freed := fun (t : State) => (t.core c).descs = (s.core c).descs.eraseP fun y => y.eng == none && y.desc == d
     let tok := fun (t : State) => ((t.core (rCore d)).token (rTok d).toNat).toNat
     let counted := fun (t : State) => if g.left.erase r = [] then t.mirror.digests.map (·.step) = (m.digests.map (·.step)).eraseIdx i
       else (t.mirror.digests[i]?.map (·.left)) = some (g.left.erase r)
     s.live = true → s.stopped = false → s.prog = some p →
       (arrives s c none d psn = true →
         ((psn || snapReserved d) = true → ∃ t x, exec (.snap c d psn) s = .next t ∧ freed t ∧ t.errRing = s.errRing ++ [x] ∧
           x.code = (if psn then 0x13 else 0x02) ∧ x.uclass = 8) ∧
         (psn = false → snapReserved d = false → snCkpt d = true → (m.ckpt.isSome = true ∨ m.waitingSnaps ≠ []) →
           exec (.snap c d psn) s = .next { s with mirror := { m with
             waitingSnaps := m.waitingSnaps ++ [⟨c, d, (descPlace s c none d).cycle⟩] } }) ∧
         (psn = false → snapReserved d = false → (snCkpt d = true → m.ckpt = none ∧ m.waitingSnaps = []) →
           ∃ t, exec (.snap c d psn) s = .next t ∧ freed t ∧ (tok s + 1 < 2 ^ 32 → tok t = tok s + 1) ∧
             (snDig d = true → (∃ y ∈ t.mirror.digests, y.step = snStep d ∧ y.left = List.range (regionCount s)) ∧
               ∀ r < regionCount s, ∀ q ∈ regionPages s r, mget false t.mirror.digPend q = true) ∧
             (snCkpt d = true →
               if (if snHost d then s.ckptDest.isSome else p.mirror.isSome && (s.port twinPort).st == .up) then
                 t.mirror.dirty = [] ∧ (∀ q ∈ pages, mget false t.mirror.pend q = true) ∧
                   ∃ k, t.mirror.ckpt = some k ∧ k.step = snStep d ∧ k.form = formOf p d pages.length ∧ k.pages = pages ∧ k.sent = 0
               else t.mirror.ckpt = none ∧ t.mirror.state = 4 ∧ ∃ x ∈ t.errRing.drop s.errRing.length, x.code = 0x67))) ∧
       (m.digests ≠ [] → mget false m.digPend page = true →
         ∃ t, exec (.digestPageCrc page) s = .next t ∧ mget false t.mirror.digPend page = false ∧
           mget 0 t.mirror.pageCrc page = pageCrcOf (fetchRange s (4096 * page) 4096) page) ∧
       ((m.digests.zipIdx.find? fun (y, i) => y.left.contains r && regionReady s i r) = some (g, i) →
         ((∀ x ∈ peers, x = own) → ∃ t, exec (.digestCompare r peers diff) s = .next t ∧ counted t ∧ t.mirror.mismatch = m.mismatch ∧
           if g.left.erase r = [] ∧ g.differs = false then t.mirror.astep = g.step ∧ t.mirror.dagree = some (g.step, 1)
           else t.mirror.astep = m.astep ∧ t.mirror.dagree = m.dagree) ∧
         ((∃ x ∈ peers, x ≠ own) → ∃ t, exec (.digestCompare r peers diff) s = .next t ∧ counted t ∧ t.mirror.mismatch = true ∧
           t.mirror.astep = m.astep ∧ t.mirror.dagree = some (g.step, 2) ∧ t.mirror.diverge = satAdd 16 m.diverge diff.length))) ∧
  (∀ (s : State) (p : Program) (k : Ckpt) (g : Nat) (r : Range) (place : Nat) (sid : BitVec 32) (buf : BitVec 8) (off : Nat),
     let m := s.mirror
     let j := p.journalPages
     let x := takePage s g
     let fails := fun (t : State) => ∃ x ∈ t.errRing.drop s.errRing.length, x.code = 0x67
     s.live = true → s.stopped = false → s.prog = some p →
       (m.ckpt = some k → k.pages[k.sent]? = some g → k.form ≠ 3 → (s.port twinPort).st = .up →
         ∃ t k', exec .mirrorPageSend s = .next t ∧ t.mirror.ckpt = some k' ∧ k'.sent = k.sent + 1 ∧ k'.step = k.step ∧
           (∀ y ∈ t.mirror.copies, y.page ≠ g) ∧ ((m.copies.find? fun y => y.page == g) = none → mget false t.mirror.pend g = false) ∧
           k'.headerSent = (k.headerSent || k.sent + 1 == k.pages.length)) ∧
       (m.ckpt = some k → k.headerSent = true →
         ∃ t, exec .checkpointCommit s = .next t ∧ t.mirror.cstep = k.step ∧
           (m.waitingSnaps = [] → t.mirror.ckpt = none ∧ t.mirror.state = 0 ∧ t.mem = s.mem ∧
             ∀ c y, k.ctok = some (c, y) → ((s.core c).token y.toNat).toNat + 1 < 2 ^ 32 →
               ((t.core c).token y.toNat).toNat = ((s.core c).token y.toNat).toNat + 1)) ∧
       (p.mirror = some r → ErrorFree s →
         (readN s (r.base + offJstate) 8 ≠ 2 → exec .journalApply s = .next s) ∧
         (readN s (r.base + offJstate) 8 = 2 → readN s (r.base + offJcount) 8 = 1 → readN s (r.base + offIndex) 8 = place → 1 ≤ j →
           r.base + offImage j + 4096 * place + 4096 ≤ Config.dramEnd →
           ∃ t, exec .journalApply s = .next t ∧ readN t (r.base + offJstate) 8 = 0 ∧
             readN t (r.base + offCstep) 8 = readN s (r.base + offJstep) 8 ∧
             ∀ i < 4096, t.byte (r.base + offImage j + 4096 * place + i) = s.byte (r.base + offJournal j + i))) ∧
       (m.ckpt = some k → k.form = 3 → s.ckptDest = some (sid, buf, off) →
         (ckptRoom s sid buf off (k.pages.length * 4112 + 64) = false → ∃ t, exec .hostCheckpointStream s = .next t ∧ fails t) ∧
         (ckptRoom s sid buf off (k.pages.length * 4112 + 64) = true → k.pages[k.sent]? = some g →
           ∃ t, exec .hostCheckpointStream s = .next t ∧
             if x.2.any (·.2) then fails t
             else t.hostOut = s.hostOut ++ [.ckptPage sid (4096 * g) (crc64 (x.2.map (·.1))) x.2] ∧
               ∃ k', t.mirror.ckpt = some k' ∧ k'.sent = k.sent + 1) ∧
         (ckptRoom s sid buf off (k.pages.length * 4112 + 64) = true → k.pages[k.sent]? = none →
           ∃ t, exec .hostCheckpointStream s = .next t ∧ t.mirror.cstep = k.step ∧
             t.hostOut = s.hostOut ++ [.ckptTrailer sid (ckptTrailer s k)])))

/-! ### The host link (R397 to R431) -/

/-- Sessions and host links (R398, R402, R403, R423 to R425, R430, R431): HELLO opens a session and answers, or is refused; AUTH attaches it at
the level that version, request and certificate allow, signing the transcript, or a failed one ends it; ATTACH with the ticket takes a detached
session over; DETACH closes it; a queue-pair error closes a session of version 1 or of no grace and detaches others, which expire after GRACE;
the link and its pause and congestion frames. -/
def Obligations.Sessions : Prop :=
  ∀ (s : State) (h : ShlHead) (vers : BitVec 3) (nonce : BitVec 256) (level cert : Nat) (sid : BitVec 32) (ticket : BitVec 128)
    (verifies : Bool) (p : HostPortId) (quanta : BitVec 16),
    let v := commonVersion vers (s.hport h.port.val).vmask
    let o := s.session h.sid
    let x := s.session sid
    let y := s.hport p.val
    let l := grantedLevel o.version level cert
    let mine := Config.freeNonce s.fresh
    let d := authDigest o h
    let arrives := fun (ty : Nat) => portOpen s h.port.val = true ∧ h.ok ty = true ∧ o.st = .opening ∧ o.port = h.port.val ∧
      h.seq = o.rxSeq ∧ h.ver.toNat = o.version
    let refused := fun (t : State) (code : BitVec 8) => (∃ r ∈ t.errRing.drop s.errRing.length, r.code = code) ∧
      HostMsg.fail h.sid h.tag code ∈ t.hostOut.drop s.hostOut.length
    let closed := fun (t : State) (sid : BitVec 32) => (t.session sid).st = .closed
    let why : BitVec 8 := if h.sid ≠ 0 ∨ h.seq ≠ 0 ∨ h.ok 1 = false then 0x73
      else if 16 ≤ (s.sessions.filter fun z => z.2.port == h.port.val).length then 0x70 else if v = 0 then 0x71 else 0
    s.live = true →
      (portOpen s h.port.val = true → ∃ t, exec (.shlHello h vers nonce) s = .next t ∧
        if why ≠ 0 then refused t why
        else t.nextSid = s.nextSid + 1 ∧ t.hostOut = s.hostOut ++ [.helloReply s.nextSid v mine Config.certChain] ∧
          t.session s.nextSid = { port := h.port.val, version := v, st := .opening, rxSeq := 1, txSeq := 1,
                                  hello := h.image 1 h.crc.toNat ++ helloReplyImage h v mine }) ∧
      (arrives 2 → ∃ t, exec (.shlAuth h verifies level cert) s = .next t ∧
        if verifies && !s.flash.roots.isEmpty && !s.plt.noid then
          (t.session h.sid).st = .attached ∧ (t.session h.sid).level = l ∧ (t.session h.sid).ticket = Config.freeTicket s.fresh ∧
            t.hostOut = s.hostOut ++ [.authReply h.sid (Config.freeTicket s.fresh) l (Config.freeKey s.fresh) (Config.signEd d) (Config.signMl d)]
        else refused t 0x70 ∧ closed t h.sid) ∧
      (arrives 3 → 2 ≤ o.version →
        (x.st = .detached → x.ticket = ticket → x.version = o.version →
          ∃ t, exec (.attach h sid ticket) s = .next t ∧ (t.session sid).st = .attached ∧ (t.session sid).port = h.port.val ∧
            (t.session sid).rings = x.rings ∧ (t.session sid).ticket = Config.freeTicket s.fresh ∧ closed t h.sid) ∧
        ((x.st ≠ .detached ∨ x.ticket ≠ ticket) →
          ∃ t, exec (.attach h sid ticket) s = .next t ∧ refused t 0x70 ∧ closed t h.sid)) ∧
      (Serves s h 4 1 0 →
        ∃ t, exec (.detach h) s = .next t ∧ closed t h.sid ∧ t.hostOut = s.hostOut ++ [.ok h.sid h.tag]) ∧
      (x.st = .opening → ∃ t, exec (.qpError sid) s = .next t ∧ closed t sid) ∧
      (x.st = .attached →
        (x.version = 1 → ∃ t, exec (.qpError sid) s = .next t ∧ closed t sid) ∧
        (x.version ≠ 1 → (s.hport x.port).grace ≠ 0 → ∃ t, exec (.qpError sid) s = .next t ∧ (t.session sid).st = .detached ∧
          (t.session sid).detachedAt = s.cycle ∧ (t.session sid).rings = x.rings ∧ (t.session sid).xfers = x.xfers.map detachXfer) ∧
        (x.version ≠ 1 → (s.hport x.port).grace = 0 → ∃ t, exec (.qpError sid) s = .next t ∧ closed t sid ∧
          ∃ r ∈ t.errRing.drop s.errRing.length, r.code = 0x7A)) ∧
      (x.st = .detached → x.detachedAt + (s.hport x.port).grace.toNat * 800000000 ≤ s.cycle →
        ∃ t, exec (.sessionExpiry sid) s = .next t ∧ closed t sid ∧ (∃ r ∈ t.errRing.drop s.errRing.length, r.code = 0x7A) ∧
          (t.hport x.port).expired = satAdd 8 (s.hport x.port).expired 1) ∧
      (y.link = 2 → ∃ t, exec (.hostRetrain p) s = .next t ∧ (t.hport p.val).link = 1 ∧ t.sessions = s.sessions) ∧
      (y.en = true → y.link ≠ 2 → (s.page (0x1A + p.val)).disabled = false →
        ∃ t, exec (.hostLinkUp p) s = .next t ∧ (t.hport p.val).link = 2 ∧ (t.hport p.val).rmode = y.mode) ∧
      (∃ t, exec (.hostLinkDown p) s = .next t ∧ (t.hport p.val).link = 0 ∧ t.sessions = s.sessions) ∧
      (portOpen s p.val = true →
        (∃ t, exec (.congestionNotificationPacket p) s = .next t ∧ (t.hport p.val).cnps = y.cnps + 1 ∧ t.sessions = s.sessions) ∧
        (y.pfc = true → ∃ t, exec (.priorityFlowControlFrame p quanta) s = .next t ∧ (t.hport p.val).paused = quanta ∧
          t.sessions = s.sessions))

/-- Buffers, rings and the host's own accesses (R404, R406, R407, R409, R414, R426, R427): BUF_OPEN and BUF_CLOSE, RING_OPEN and RING_CLOSE,
EVT_OPEN, and what each refuses; a doorbell moves P, one for a ring that is not open or out of its range counts with record 0x75; consumed
events go; an RDMA write into a device-in buffer is in memory, one outside it ends the queue pair with record 0x7B, a read-back word is C. -/
def Obligations.BuffersAndRings : Prop :=
  ∀ (s : State) (h : ShlHead) (buf : BitVec 8) (r : Fin 64) (off n qp : Nat) (sid : BitVec 32) (g : Ring) (u : Buffer)
    (w : Word) (data : List Byte) (ev : EvtRing) (b : BufBody),
    let x := s.session h.sid
    let y := s.session sid
    let k := b.kind.toNat
    let new := w.extractLsb' 0 32
    let ok : HostMsg := .ok h.sid h.tag
    let replies := fun (i : Instr) (m : HostMsg) (q : Session → Prop) =>
      ∃ t, exec i s = .next t ∧ q (t.session h.sid) ∧ t.hostOut = s.hostOut ++ [m] ∧ t.mem = s.mem ∧ t.errRing = s.errRing
    let refuses := fun (i : Instr) (code : Nat) => ∃ t e, exec i s = .next t ∧ t.mem = s.mem ∧ t.errRing = s.errRing ++ [e] ∧
      e.code = BitVec.ofNat 8 code ∧ t.hostOut = s.hostOut ++ [.fail h.sid h.tag (BitVec.ofNat 8 code)]
    let sound := 1 ≤ k ∧ k ≤ 4 ∧ b.rsvdOk = true ∧ 1 ≤ b.size ∧ b.size ≤ 2 ^ 48 ∧ x.buffer b.buf.toNat = none ∧
      (k = 1 ∨ k = 2 → b.rkey = 0 ∧ hostRegion s b.addr.toNat b.size = true ∧ inDram b.addr.toNat b.size = true)
    let rf := bufferFault s h.sid buf.toNat 1 off (64 * n)
    let ef := bufferFault s h.sid buf.toNat 4 off (256 * n)
    (Serves s h 0x10 1 1 →
      (sound → replies (.bufOpen h b) (if k = 1 then .key h.sid h.tag (Config.freeKey s.fresh) else ok) fun z =>
        z.buffer b.buf.toNat = some ⟨k, b.addr.toNat, b.size, if k = 1 then Config.freeKey s.fresh else b.rkey⟩) ∧
      (¬ sound → refuses (.bufOpen h b) 0x77)) ∧
    (Serves s h 0x11 1 1 →
      ((x.buffer buf.toNat).isSome = true → replies (.bufClose h buf) ok fun z => z.buffer buf.toNat = none) ∧
      (x.buffer buf.toNat = none → refuses (.bufClose h buf) 0x77)) ∧
    (Serves s h 0x12 1 1 →
      ((powerBetween 8 4096 n = false ∨ off % 64 ≠ 0 ∨ 7 < qp) → refuses (.ringOpen h r buf off n qp) 0x02) ∧
      (powerBetween 8 4096 n = true → off % 64 = 0 → qp ≤ 7 →
        ((rf = 0x77 ∨ (x.ring r.val).isSome = true) → refuses (.ringOpen h r buf off n qp) 0x77) ∧
        (rf = 0x76 → x.ring r.val = none → refuses (.ringOpen h r buf off n qp) 0x76) ∧
        (rf = 0 → x.ring r.val = none → x.buffer buf.toNat = some u → replies (.ringOpen h r buf off n qp) ok fun z =>
          z.ring r.val = some { base := u.addr + off, n := n, qp := qp }))) ∧
    (Serves s h 0x13 1 1 →
      (x.ring r.val = none → refuses (.ringClose h r) 0x77) ∧
      (x.ring r.val = some g → replies (.ringClose h r) ok fun z => z.ring r.val =
        if g.image.isEmpty && !g.held then none
        else some { g with closing := true, prod := if g.held then g.cons + 1 else g.cons })) ∧
    (Serves s h 0x14 1 0 →
      (powerBetween 8 65536 n = false → refuses (.evtOpen h buf off n) 0x02) ∧
      (powerBetween 8 65536 n = true →
        (ef ≠ 0 → refuses (.evtOpen h buf off n) ef) ∧
        (ef = 0 → ∃ t e more, exec (.evtOpen h buf off n) s = .next t ∧ (t.session h.sid).evt = some e ∧ e.buf = buf ∧ e.off = off ∧
          e.n = n ∧ e.cons = 0 ∧ e.prod = min n x.events.length ∧ t.hostOut = s.hostOut ++ ok :: more ∧ more.length = e.prod))) ∧
    (s.live = true → y.st = .attached →
      (portOpen s y.port = true →
        (∀ g, y.ring r.val = some g → g.closing = false → fld w 32 32 = 0 → (new - g.cons).toNat ≤ g.n → (new - g.prod).toNat ≤ g.n →
          ∃ t, exec (.doorbell sid r w) s = .next t ∧ t.errRing = s.errRing ∧ (t.session sid).ring r.val =
            some (if g.stopped then { g with prod := new, stopped := false, rereads := 0, rereadAt := none } else { g with prod := new })) ∧
        ((∀ g, y.ring r.val = some g → g.closing = true ∨ fld w 32 32 ≠ 0 ∨ g.n < (new - g.cons).toNat ∨ g.n < (new - g.prod).toNat) →
          ∃ t e, exec (.doorbell sid r w) s = .next t ∧ t.sessions = s.sessions ∧ t.errRing = s.errRing ++ [e] ∧ e.code = 0x75 ∧
            (t.hport y.port).dbflt = satAdd 16 (s.hport y.port).dbflt 1)) ∧
      (y.evt = some ev → fld w 32 32 = 0 → ev.cons + (new - BitVec.ofNat 32 ev.cons).toNat ≤ ev.prod →
        ∃ t e, exec (.eventConsumerWrite sid w) s = .next t ∧ (t.session sid).evt = some e ∧
          e.cons = ev.cons + (new - BitVec.ofNat 32 ev.cons).toNat ∧ e.buf = ev.buf ∧ e.off = ev.off ∧ e.n = ev.n ∧
          (t.session sid).events = y.events.drop (new - BitVec.ofNat 32 ev.cons).toNat) ∧
      (portOpen s y.port = true → s.stopped = false →
        (bufferFault s sid buf.toNat 1 off data.length ≠ 0 →
          ∃ t, exec (.rdmaWrite sid buf off data) s = .next t ∧ (t.session sid).st ≠ .attached ∧
            ∃ e ∈ t.errRing.drop s.errRing.length, e.code = 0x7B) ∧
        (bufferFault s sid buf.toNat 1 off data.length = 0 → y.buffer buf.toNat = some u →
          if groupTableHit s (u.addr + off) data.length then
            ∃ t e, exec (.rdmaWrite sid buf off data) s = .next t ∧ t.mem = s.mem ∧ t.errRing = s.errRing ++ [e] ∧ e.code = 0x07
          else ∃ t, exec (.rdmaWrite sid buf off data) s = .next t ∧ Stores s t (u.addr + off) data)) ∧
      (portOpen s y.port = true → qp ≤ 7 →
        ∃ t, exec (.rdmaRead sid qp (2048 + 8 * r.val)) s = .next t ∧ t.mem = s.mem ∧ t.hostOut = s.hostOut ++
          [.readBack sid qp (match y.ring r.val with | some g => g.cons.zeroExtend 64 | none => 0)]))

/-- Bulk transfers, tier sources and checkpoint destinations (R229, R405, R417 to R420, R424): an IN transfer pulls its data a segment at a
time, and each segment that arrives is in memory; an OUT transfer sends the device bytes up to the first poisoned granule, which bites; either
ends with its event; RESOLVE starts a transfer in doubt again or ends it with record 0x79; TIER_SRC and CKPT_DEST take their source and place.
Transfers are stated for sessions in which no other transfer waits to start. -/
def Obligations.HostTransfers : Prop :=
  ∀ (s : State) (h : ShlHead) (b : XferBody) (u v : Buffer) (f : Xfer) (data : List Byte) (tab : TableDesc) (first last hoff stride : Nat)
    (buf : BitVec 8) (off : Nat),
    let x := s.session h.sid
    let ok : HostMsg := .ok h.sid h.tag
    let refuses := fun (i : Instr) (code : Nat) => ∃ t e, exec i s = .next t ∧ t.mem = s.mem ∧ t.errRing = s.errRing ++ [e] ∧
      e.code = BitVec.ofNat 8 code ∧ t.hostOut = s.hostOut ++ [.fail h.sid h.tag (BitVec.ofNat 8 code)]
    let idle := (x.xfers.all fun t => t.started || t.inDoubt) = true
    let dup := (x.xfers.any fun t => t.xid == b.xid) || decide (64 ≤ x.xfers.length)
    let ended := fun (t : State) => (t.session h.sid).xfers = x.xfers.filter (fun y => y.xid != f.xid) ∧ (t.session h.sid).eseq = x.eseq + 1
    let tin : Xfer := { xid := b.xid, out := false, qp := b.qp, dev := v.addr + b.dstOff, hbuf := b.src, hoff := b.srcOff, len := b.len,
                        started := false, moved := 0, poisonAt := none, inDoubt := false }
    let tout : Xfer := { tin with out := true, dev := u.addr + b.srcOff, hbuf := b.dst, hoff := b.dstOff }
    let s1 := fetchRange s tout.dev tout.len
    let bad := (poisonedGranules s1 tout.dev tout.len).head?
    let sends := match bad with | some g => 64 * g - tout.dev | none => tout.len
    let srcFault := bufferFault s h.sid b.src.toNat (if (x.buffer b.src.toNat).any (fun u => u.kind == 2) then 2 else 1) b.srcOff b.len
    let place := f.dev + f.moved
    let moved := f.moved + data.length
    (Serves s h 0x20 1 1 → (7 < b.qp → refuses (.xferIn h b) 0x02) ∧ (b.qp ≤ 7 → dup = true → refuses (.xferIn h b) 0x77) ∧
      (b.qp ≤ 7 → dup = false → idle → bufferFault s h.sid b.src.toNat 3 b.srcOff b.len = 0 →
        bufferFault s h.sid b.dst.toNat 1 b.dstOff b.len = 0 → x.buffer b.dst.toNat = some v →
        ∃ t, exec (.xferIn h b) s = .next t ∧ t.mem = s.mem ∧
          if mayProceed s h.sid then (t.session h.sid).xfers = x.xfers ++ [{ tin with started := true }] ∧
            t.hostOut = s.hostOut ++ [ok, .pull h.sid b.xid b.qp b.src b.srcOff (min (2 ^ 20) b.len)]
          else (t.session h.sid).xfers = x.xfers ++ [tin] ∧ t.hostOut = s.hostOut ++ [ok])) ∧
    (Serves s h 0x20 1 0 → b.qp ≤ 7 → dup = false → idle → srcFault = 0 → bufferFault s h.sid b.dst.toNat 4 b.dstOff b.len = 0 →
      x.buffer b.src.toNat = some u →
      ∃ t, exec (.xferOut h b) s = .next t ∧
        if mayProceed s h.sid then
          t.hostOut = s.hostOut ++ ok :: pushSegments h.sid tout (readB s1 tout.dev sends) ∧
            (∃ y ∈ (t.session h.sid).xfers, y.xid = b.xid ∧ y.started = true ∧ y.moved = sends ∧ y.poisonAt.isSome = bad.isSome) ∧
            (bad.isSome = true → ∃ e ∈ t.errRing.drop s.errRing.length, e.code = 0x13)
        else (t.session h.sid).xfers = x.xfers ++ [tout] ∧ t.hostOut = s.hostOut ++ [ok]) ∧
    (s.live = true → x.st = .attached → idle → (x.xfers.find? fun t => t.xid == f.xid) = some f → f.started = true → f.inDoubt = false →
      (f.out = true → ∃ t, exec (.xferComplete h.sid f.xid data) s = .next t ∧ ended t ∧ t.mem = s.mem) ∧
      (f.out = false → s.stopped = false → data.length = f.segment → ∃ t, exec (.xferComplete h.sid f.xid data) s = .next t ∧
        if groupTableHit s place data.length then ended t ∧ t.mem = s.mem ∧ ∃ e ∈ t.errRing.drop s.errRing.length, e.code = 0x07
        else Stores s t place data ∧
          if moved = f.len then ended t
          else (∃ y ∈ (t.session h.sid).xfers, y.xid = f.xid ∧ y.moved = moved) ∧
            t.hostOut = s.hostOut ++ [.pull h.sid f.xid f.qp f.hbuf (f.hoff + moved) (min (2 ^ 20) (f.len - moved))])) ∧
    (Serves s h 0x21 2 1 →
      ((x.xfers.find? fun t => t.xid == f.xid && t.inDoubt) = none → refuses (.resolveResend h f.xid) 0x77 ∧ refuses (.resolveAbort h f.xid) 0x77) ∧
      ((x.xfers.find? fun t => t.xid == f.xid && t.inDoubt) = some f →
        (∃ t, exec (.resolveResend h f.xid) s = .next t ∧ ∃ y ∈ (t.session h.sid).xfers, y.xid = f.xid ∧ y.inDoubt = false) ∧
        ∃ t, exec (.resolveAbort h f.xid) s = .next t ∧ ended t ∧ ∃ e ∈ t.errRing.drop s.errRing.length, e.code = 0x79)) ∧
    (Serves s h 0x22 3 1 → ∀ id, tableOf s id = some tab →
      let i := Instr.tierSrc h id first last buf hoff stride
      let fault := bufferFault s h.sid buf.toNat 3 hoff ((last - first) * stride + tRec tab)
      let bad := !tTier tab || decide (last < first) || decide (tLrows tab ≤ last) || s.tierSources.any (fun y => recordsOverlap y id first last)
      ((stride % 64 ≠ 0 ∨ stride < tRec tab) → refuses i 0x02) ∧
      (stride % 64 = 0 → tRec tab ≤ stride →
        (bad = true → refuses i 0x78) ∧ (bad = false → fault ≠ 0 → refuses i fault) ∧
        (bad = false → fault = 0 → ∃ t, exec i s = .next t ∧ t.hostOut = s.hostOut ++ [ok] ∧
          t.tierSources = s.tierSources ++ [⟨h.sid, id, first, last, buf, hoff, stride⟩]))) ∧
    (Serves s h 0x23 3 1 →
      if bufferFault s h.sid buf.toNat 4 off 0 ≠ 0 then refuses (.ckptDest h buf off) (bufferFault s h.sid buf.toNat 4 off 0)
      else ∃ t, exec (.ckptDest h buf off) s = .next t ∧ t.ckptDest = some (h.sid, buf, off) ∧ t.hostOut = s.hostOut ++ [ok])

/-- LOAD, JOB_CTRL and the register window (R100, R421, R427): a LOAD that every check passes makes the job, one that fails a check is refused
with its code; start runs the job once every cabled port is UP, and otherwise waits; stop asks for a stop at the step boundary; reset unloads
the job; REG_RD answers the registers' values, REG_WR of a register that the session may write takes effect. -/
def Obligations.JobsAndRegisters : Prop :=
  ∀ (s : State) (h : ShlHead) (b : LoadBody) (rank : Nat) (j : Job) (page off n : Nat) (val : Word) (vals : List Word),
    let s1 := s.modSession h.sid fun y => { y with rxSeq := y.rxSeq + 1 }
    let ok : HostMsg := .ok h.sid h.tag
    let a := Agent.session h.sid
    let refuses := fun (i : Instr) (code : Nat) => ∃ t e, exec i s = .next t ∧ t.job = s.job ∧ t.mem = s.mem ∧ t.pages = s.pages ∧
      t.errRing = s.errRing ++ [e] ∧ e.code = BitVec.ofNat 8 code ∧ t.hostOut = s.hostOut ++ [.fail h.sid h.tag (BitVec.ofNat 8 code)]
    let bin := bufferFault s h.sid b.buf.toNat 3 b.binOff b.binLen
    let place := bufferFault s h.sid b.buf.toNat 3 b.plOff b.plLen
    let startable := s.jobRuns = false ∧ j.halted = false ∧ j.startAt = none ∧ tiersCovered s j.prog = true
    s.stopped = false →
      (Serves s h 0x30 2 2 →
        (bin ≠ 0 → refuses (.load h b) bin) ∧ (bin = 0 → place ≠ 0 → refuses (.load h b) place) ∧
        (bin = 0 → place = 0 → (loadResult s1 b).1.1 ≠ 0 → refuses (.load h b) (loadResult s1 b).1.1) ∧
        (bin = 0 → place = 0 → deviceFault s = 0 → b.program.grade = s.grade → ownRanks s b.placement = [rank] →
          b.plLen = 48 * programSize b.program → b.placement.length = programSize b.program →
          (programFault (fetchBlocks (placeJob s1 b rank)) b.program rank (b.det || b.program.detReq)).1 = 0 →
          ∃ t, exec (.load h b) s = .next t ∧ t.job = some (jobOf b rank) ∧ ok ∈ t.hostOut.drop s.hostOut.length)) ∧
      (Serves s h 0x31 2 2 →
        (s.job = none → refuses (.jobStart h) 0x78) ∧
        (s.job = some j → ¬ startable → refuses (.jobStart h) 0x78) ∧
        (s.job = some j → startable → (j.started = true ∨ j.stopped = false) →
          (cabledUp s = true → ∃ t, exec (.jobStart h) s = .next t ∧ t.jobRuns = true ∧ t.rank = j.rank) ∧
          (cabledUp s = false → ∃ t, exec (.jobStart h) s = .next t ∧ t.job = some { j with startAt := some s.cycle } ∧
            t.cores = s.cores)) ∧
        (s.jobRuns = false → refuses (.jobStop h) 0x78) ∧
        (s.job = some j → s.jobRuns = true →
          ∃ t, exec (.jobStop h) s = .next t ∧ t.job = some { j with stopping := true } ∧ t.hostOut = s.hostOut ++ [ok]) ∧
        (∃ t, exec (.jobCtrlReset h) s = .next t ∧ t.job = none ∧ t.batches = [] ∧ t.lookups = [] ∧ t.xops = [])) ∧
      (Serves s h 0x38 1 0 →
        ((n < 1 ∨ 64 < n) → refuses (.regRd h page off n) 0x76) ∧
        (1 ≤ n → n ≤ 64 → (pagePresent page = false ∨ off % 8 ≠ 0 ∨ 2 ^ 16 < off + 8 * n) →
          ∃ t, exec (.regRd h page off n) s = .next t ∧ t.errRing = s.errRing ∧ t.hostOut = s.hostOut ++ [.fail h.sid h.tag 0x07]) ∧
        (1 ≤ n → n ≤ 64 → pagePresent page = true → off % 8 = 0 → off + 8 * n ≤ 2 ^ 16 →
          ∃ t l, exec (.regRd h page off n) s = .next t ∧ t.hostOut = s.hostOut ++ [.values h.sid h.tag l] ∧
            l = (readRegs s1 a page off n).2 ∧ l.length = n ∧ l.head? = some (regValue s1 a page off))) ∧
      (Serves s h 0x39 1 0 →
        ((vals.length < 1 ∨ 64 < vals.length) → refuses (.regWr h page off vals) 0x76) ∧
        (1 ≤ vals.length → vals.length ≤ 64 → regWrFault s1 a page off vals.length = 0x72 → refuses (.regWr h page off vals) 0x72) ∧
        (1 ≤ vals.length → vals.length ≤ 64 → regWrFault s1 a page off vals.length = 0x07 →
          ∃ t, exec (.regWr h page off vals) s = .next t ∧ t.pages = s.pages ∧ t.errRing = s.errRing ∧
            t.hostOut = s.hostOut ++ [.fail h.sid h.tag 0x07]) ∧
        (pagePresent page = true → mayWriteReg s a page 0x30 = true → ∃ t, exec (.regWr h page 0x30 [val]) s = .next t ∧
          (t.page page).errEn = val.truncate 7 ∧ t.hostOut = s.hostOut ++ [ok]))

/-- Ingest (R235 to R237, R406, R410 to R413): a ready entry without fault for a step within the ingest depth is passed to validation and
consumed, one of a later step is held, one with a fault is consumed with its record; an entry that is not ready is read again 1,600 cycles on,
after eight times its ring stops with record 0x74; an image without offence becomes the step's batch, one with an offence leaves none. -/
def Obligations.IngestRings : Prop :=
  ∀ (s : State) (sid : BitVec 32) (r : Fin 64) (g : Ring) (j : Job) (idx tag step : BitVec 32) (a len at0 : Nat)
    (rest : List (BitVec 32 × BitVec 32 × BitVec 32 × Nat × Nat)),
    let y := s.session sid
    let ea := g.base + 64 * (g.cons.toNat % g.n)
    let s1 := fetchRange s ea 64
    let e := readB s1 ea 64
    let ready := entryReady g e && !poisonedIn s1 ea 64
    let fault := entryFault s sid e
    let base := match y.buffer (entryField e 8 1) with | some u => u.addr | none => 0
    let found := checkImage (fetchRange s a len) j a len step
    let recorded := fun (t : State) (code : Nat) => ∃ x ∈ t.errRing.drop s.errRing.length, x.code = BitVec.ofNat 8 code
    let outcome := fun (t : State) (g : Ring) =>
      if ready = false then
        if g.rereads < 8 then (t.session sid).ring r.val = some { g with rereadAt := some (s.cycle + 1600) }
        else (t.session sid).ring r.val = some { g with rereadAt := none, stopped := true } ∧ recorded t 0x74 ∧
          (t.hport y.port).notrdy = satAdd 16 (s.hport y.port).notrdy 1
      else if fault ≠ 0 then recorded t fault ∧
        (g.closing = false → (t.session sid).ring r.val = some { g with cons := g.cons + 1, rereads := 0, rereadAt := none, held := false })
      else if beyondDepth s (entryField e 4 4) then (t.session sid).ring r.val = some { g with held := true, rereadAt := none }
      else (t.session sid).ring r.val = some { g with
        cons := g.cons + 1, rereads := 0, rereadAt := none, held := false
        image := g.image ++ [(g.cons, BitVec.ofNat 32 (entryField e 32 4), BitVec.ofNat 32 (entryField e 4 4),
          base + entryField e 16 8, entryField e 24 8)] }
    s.live = true → y.ring r.val = some g →
      (ringReads s sid g = true → g.rereadAt = none → ∃ t, exec (.ringEntryRead sid r) s = .next t ∧ outcome t g) ∧
      (ringReads s sid g = true → g.rereadAt = some at0 → at0 ≤ s.cycle →
        ∃ t, exec (.entryReread sid r) s = .next t ∧ outcome t { g with rereads := g.rereads + 1, rereadAt := none } ∧
          (t.hport y.port).reread = satAdd 16 (s.hport y.port).reread 1) ∧
      (s.stopped = false → s.job = some j → g.image = (idx, tag, step, a, len) :: rest →
        ∃ t, exec (.batchValidation sid r) s = .next t ∧
          (g.closing = false → (t.session sid).ring r.val = some { g with image := rest }) ∧
          if found.offences = [] then t.accepted = s.accepted ++ [step] ∧
            t.batches = s.batches ++ [⟨step, found.parts, microCounts (fetchRange s a len) a, sid⟩]
          else t.batches = s.batches ∧ t.accepted = s.accepted)

/-! ### Resets, boot and management (R499 to R518, R541 to R558) -/

/-- Core and job resets (R19, R482, R511 to R513, R516): a core outside a window returns to bundle 0, idle, with registers and exception at
their reset values, the other cores keep their registers; inside a window the reset waits for its end; a job reset leaves no job, batch,
lookup, exchange or program state; in a stop whose conditions do not let it end the job reset waits. -/
def Obligations.CoreAndJobResets : Prop :=
  ∀ (s : State) (c : CoreId) (a : Agent),
    let bit := BitVec.ofNat 32 (2 ^ c.val)
    s.live = true →
      ((s.core c).winStart = none →
        let resets := fun (i : Instr) => ∃ t, exec i s = .next t ∧ (t.core c).pc = 0 ∧ (t.core c).sregs = [] ∧
          (t.core c).st = .idle ∧ (t.core c).tokens = [] ∧ (t.core c).side = [] ∧ (t.core c).exc = {} ∧ (t.core c).fill = 0 ∧
          (t.core c).vregs = (s.core c).vregs ∧ ∀ d : CoreId, d ≠ c → (t.core d).sregs = (s.core d).sregs
        resets (.coreReset c) ∧ (mayWrite s a 1 = true → resets (.pltRstCores a bit))) ∧
      ((s.core c).winStart ≠ none →
        exec (.coreReset c) s = .next { s with waitingReset := { s.waitingReset with cores := s.waitingReset.cores ||| bit } }) ∧
      (resetWaits s = false →
        let unloads := fun (i : Instr) => ∃ t, exec i s = .next t ∧ t.job = none ∧ t.batches = [] ∧ t.lookups = [] ∧ t.xops = [] ∧
          t.barriers = [] ∧ t.workCtrs = [] ∧ (∀ d : CoreId, (t.core d).pc = 0 ∧ (t.core d).st = .idle ∧ (t.core d).step = 0) ∧
          t.flash.base = s.flash.base
        unloads .jobReset ∧ (mayWrite s a 1 = true → unloads (.pltRstJob a))) ∧
      (resetWaits s = true →
        exec .jobReset s = .next { s with waitingReset := { s.waitingReset with job := !s.waitingReset.warm } })

/-- Warm and cold resets, boot, and the supplies (R501 to R505, R511 to R513, R542, R546, R549): with a valid record and image a reset boots
to ready on the image of the selector; a warm reset keeps device time, a cold one clears time and memory; both end the job and its sessions;
a hanging boot counts a try and starts again; RST_N low, a lost clock or supply hold the device; a lost reference clock takes its ports
down. Stated with no action and no update waiting. -/
def Obligations.WarmAndColdResets : Prop :=
  ∀ (s : State) (f : BootFinds) (pos : BitVec 4) (a : Agent) (i : FwImage) (k : Fin 4) (t0 : Nat) (q : PortId),
    let sel := selector s.flash
    let boots := fun (g : BootFinds) => s.flash.image sel.slot = some i ∧ imageFault (some i) (slotIntact g sel.slot) s.flash.base.fwmin = 0
    let fresh := fun (t : State) => t.job = none ∧ t.sessions = [] ∧ t.cores = [] ∧ t.flash.base = s.flash.base
    let ready := fun (j : Instr) (cold : Bool) => ∃ t, exec j s = .next t ∧ fresh t ∧ t.plt.stage = .ready ∧ t.plt.fwver = i.version ∧
      t.plt.slot = sel.slot ∧ (cold = true → t.cycle = 0 ∧ t.mem = [] ∧ t.pins.rstN = true ∧ t.pins.pos = pos) ∧
      (cold = false → t.cycle = s.cycle)
    s.flash.base.valid = true → s.flash.nextBase = none → sel.tries.toNat < 2 → sel.sseq.toNat + 1 < 2 ^ 32 → s.integ.actions = [] →
      s.plt.update = none →
      (s.clocked = true → resetWaits s = false → boots f → slotHangs f sel.slot = false → ready (.warmReset f) false) ∧
      (s.clocked = true → resetWaits s = false → mayWrite s a 1 = true → boots s.plt.finds → slotHangs s.plt.finds sel.slot = false →
        ready (.pltRstWarm a) false) ∧
      (s.pins.powered = true → s.pins.coolOk = true → s.pins.thermtripN = true → boots f → slotHangs f sel.slot = false →
        (s.pins.coreclk = true → ready (.coldReset f pos) true) ∧
        (s.pins.coreclk = false → s.pins.rstN = true → ready (.coreclkReturn f pos) true)) ∧
      (s.clocked = true → s.plt.romStarted = false → boots s.plt.finds → slotHangs s.plt.finds sel.slot = false →
        ∃ t, exec .bootRomStart s = .next t ∧ t.plt.stage = .ready ∧ t.pins.coolOk = true ∧ t.cycle = s.cycle) ∧
      (s.clocked = true → s.stopped = false → s.plt.stage = .osStart → s.plt.bootStart = some t0 → t0 + 8000000000 ≤ s.cycle →
        boots s.plt.finds → slotHangs s.plt.finds sel.slot = true →
        ∃ t, exec .bootWatchdog s = .next t ∧ t.plt.stage = .osStart ∧ t.plt.bootStart = some s.cycle ∧
          (selector t.flash).tries.toNat = sel.tries.toNat + 1) ∧
      (s.pins.rstN = true → ∃ t, exec .rstNAssert s = .next t ∧ fresh t ∧ t.pins.rstN = false ∧ t.mem = [] ∧ t.live = false) ∧
      (s.pins.coreclk = true → s.pins.rstN = true →
        ∃ t, exec .coreclkLoss s = .next t ∧ fresh t ∧ t.pins.coreclk = false ∧ t.live = false) ∧
      (s.pins.powered = true →
        (∃ t, exec .powerLoss s = .next t ∧ fresh t ∧ t.pins.powered = false ∧ t.live = false) ∧
        (k.val ≠ 3 → q.val / 4 = k.val → (s.port q).st ≠ .quarantine → s.xops = [] → s.lookups = [] →
          ∃ t, exec (.sdrefLoss k) s = .next t ∧ (t.port q).st = .down ∧ t.pins.sdref.getLsbD k.val = false) ∧
        (∃ t, exec (.sdrefLoss 3) s = .next t ∧ (t.hport 0).link = 0 ∧ (t.hport 1).link = 0 ∧ t.ports = s.ports)) ∧
      (s.pins.powered = false → ∃ t, exec .powerOn s = .next t ∧ t.pins.powered = true ∧ t.pins.rstN = false ∧ t.flash = s.flash)

/-- Firmware, attestation and the flash's configuration (R493, R498, R506 to R510, R517, R518, R551): an update begins unless one is in
progress, ABORT ends it with the written slot invalid, a sound image ends in its slot, on trial, and a sound record waits for the next reset,
with record 0x97; an attestation report of 4,096 bytes answers a request, or is written to a session's buffer; network, roots and token are
written; monitoring answers the sensors. -/
def Obligations.FirmwareAndAttestation : Prop :=
  ∀ (s : State) (u : UpdateData) (len : Nat) (a : Agent) (val : Word) (i : FwImage) (up : Update) (nonce : BitVec 256) (p : HostPortId)
    (n : NetConfig) (roots : List (BitVec 384)) (tk : Option Token) (sid : BitVec 32) (b : Buffer) (rec : BaseRecord),
    let base := s.flash.base
    let at0 := b.addr + fld val 8 48
    s.live = true →
      (s.plt.update = none →
        (∃ t, exec (.pldmFirmwareUpdate u len) s = .next t ∧ t.plt.update = some ⟨u, len, none⟩ ∧ (t.page 1).op = 6 ∧
          (t.page 1).active = true ∧ t.flash = s.flash) ∧
        (mayWrite s (.session sid) 1 = true → bufferFault s sid (fld val 56 8) 3 s.plt.fwuSrc.toNat (fld val 16 32) = 0 →
          fld val 48 8 = 1 → ∃ t, exec (.fwuStart (.session sid) val (.image i)) s = .next t ∧
            t.plt.update = some ⟨.image i, fld val 16 32, some sid⟩ ∧ t.plt.fwuResult = 3)) ∧
      (s.plt.update = some up →
        (up.data = .image i →
          (mayWrite s a 1 = true → ∃ t, exec (.fwuAbort a) s = .next t ∧ t.plt.update = none ∧ t.flash.image (!s.plt.slot) = none ∧
            t.flash.image s.plt.slot = s.flash.image s.plt.slot) ∧
          (imageFault (some i) true base.fwmin = 0 → (selector s.flash).sseq.toNat + 1 < 2 ^ 32 →
            ∃ t r, exec .firmwareUpdateComplete s = .next t ∧ t.plt.update = none ∧ t.flash.image (!s.plt.slot) = some i ∧
              (selector t.flash).slot = (!s.plt.slot) ∧ (selector t.flash).trial = true ∧ t.plt.pending = true ∧
              t.errRing = s.errRing ++ [r] ∧ r.code = 0x97)) ∧
        (up.data = .record rec → rec.valid = true → rec.serial = base.serial → base.fwmin.toNat ≤ rec.fwmin.toNat →
          ∃ t r, exec .firmwareUpdateComplete s = .next t ∧ t.plt.update = none ∧ t.flash.nextBase = some rec ∧ t.flash.base = base ∧
            t.plt.pending = true ∧ t.errRing = s.errRing ++ [r] ∧ r.code = 0x97)) ∧
      (s.plt.noid = false →
        (∃ t l, exec (.attestationRequest nonce) s = .next t ∧ t.mgmtOut = s.mgmtOut ++ [.attestation l] ∧ l.length = 4096) ∧
        (mayWrite s (.session sid) 1 = true → (s.session sid).buffer (fld val 56 8) = some b →
          bufferFault s sid (fld val 56 8) 2 (fld val 8 48) 4096 = 0 → fld val 8 48 % 64 = 0 → groupTableHit s at0 4096 = false →
          ∃ t, exec (.attStart (.session sid) val) s = .next t ∧ t.plt.attResult = 1 ∧ Stores s t at0 (report s (attNonce s.plt)))) ∧
      (∃ t, exec (.networkConfigWrite p n) s = .next t ∧ (if p = 0 then t.flash.net0 else t.flash.net1) = some n ∧
        t.plt = s.plt) ∧
      (roots.length ≤ 8 → exec (.operatorRootWrite roots) s = .next { s with flash := { s.flash with roots := roots } }) ∧
      (exec (.tokenWrite tk) s = .next { s with flash := { s.flash with token := tk } }) ∧
      (∃ t dram, exec .pldmPlatformMonitoring s = .next t ∧ t.mgmtOut = s.mgmtOut ++ [.sensors s.tns.tjmax.toNat dram s.tns.pwr.toNat
        s.tns.ecap.toNat s.tns.vreq.toNat] ∧ ∀ v : VaultId, (s.vault v).temp.toNat ≤ dram)

/-- The TAP (R553): IDCODE reads 0x03100E6D; SAMPLE/PRELOAD and EXTEST are provided while RST_N is low and select BYPASS otherwise; DEBUG
needs the unlock, reads a register page and halts a platform processor, each use leaving record 0x98; TRST_N low resets the TAP. -/
def Obligations.TapInstructions : Prop :=
  ∀ (s : State) (pat : List Bool) (page off : Nat) (n : Fin 8),
    s.pins.powered = true →
      (∃ t, exec .jtagBypass s = .next t ∧ t.pins.tap = .bypass ∧ t.pins.drive = none) ∧
      (∃ t, exec .jtagIdcode s = .next t ∧ t.pins.tap = .idcode ∧ t.pins.tdo = 0x03100E6D) ∧
      (∃ t, exec (.jtagSamplePreload pat) s = .next t ∧
        if s.pins.rstN then t.pins.tap = .bypass ∧ t.pins.boundary = s.pins.boundary
        else t.pins.tap = .samplePreload ∧ t.pins.boundary = pat) ∧
      (∃ t, exec .jtagExtest s = .next t ∧
        if s.pins.rstN then t.pins.tap = .bypass ∧ t.pins.drive = none else t.pins.tap = .extest ∧ t.pins.drive = some s.pins.boundary) ∧
      (s.plt.jtagUnlock = true → s.clocked = true →
        (∃ t r, exec (.jtagDebug none (some (n, true))) s = .next t ∧ t.pins.tap = .debug ∧ t.plt.cpuHalted.getLsbD n.val = true ∧
          t.errRing = s.errRing ++ [r] ∧ r.code = 0x98) ∧
        (pagePresent page = true → off % 8 = 0 → off < 2 ^ 16 → ∃ t v, exec (.jtagDebug (some (page, off)) none) s = .next t ∧
          t.mgmtOut = s.mgmtOut ++ [.tapRead (some v)])) ∧
      (s.plt.jtagUnlock = false → ∃ t, exec (.jtagDebug none none) s = .next t ∧ t.pins.tap = .bypass ∧ t.errRing = s.errRing) ∧
      (∃ t, exec .tapReset s = .next t ∧ t.pins.tap = .idcode ∧ t.plt.jtagUnlock = s.plt.jtagUnlock)

/-! ### Register pages (R16 to R19, R519 to R537) -/

/-- Accesses of register pages (R16, R19, R521 to R523, R528 to R532): ERR_STAT clears the bits written as one, a bit set in the same cycle
staying set; ERR_FORCE with an allocated code enters a record in its page and in no other place; PCLR clears an idle page's progress; a read
of word 0 of ERR_REC latches words 1 to 7 for its agent, one of PROG the counts; a read clears RC fields; a permitted write of ERR_EN takes
effect, one of a read-only register changes nothing. -/
def Obligations.RegisterPages : Prop :=
  ∀ (s : State) (a : Agent) (page : Nat) (val : Word) (setSame : BitVec 9) (v : VaultId),
    let g := s.page page
    let code := fld val 0 8
    let answers := fun (t : State) (off : Nat) => t.mgmtOut = s.mgmtOut ++ [.regValue a page off (regValue s a page off)]
    s.clocked = true →
      (writeFault s a page 0x28 = 0 → ∃ t, exec (.errStatWrite a page val setSame) s = .next t ∧
        (∀ n < 7, (t.page page).errStat.getLsbD n = (setSame.getLsbD n || g.errStat.getLsbD n && !val.getLsbD n)) ∧
        t.errRing = s.errRing ∧ ∀ q, q ≠ page → t.page q = s.page q) ∧
      (writeFault s a page 0x38 = 0 → codeAllocated code = true → ∃ t, exec (.errForceGo a page val) s = .next t ∧
        (t.page page).errRec = recWords (forcedRecord s page code) ∧ t.errRing = s.errRing ∧ t.integ = s.integ ∧
        (g.errEn.getLsbD (kindOf code) = true → (t.page page).errStat.getLsbD (kindOf code) = true)) ∧
      (writeFault s a page 0x18 = 0 → g.active = false → ∃ t, exec (.ctrlPclr a page) s = .next t ∧ (t.page page).op = 0 ∧
        (t.page page).done = false ∧ (t.page page).pos = 0 ∧ (t.page page).tot = 0 ∧ (t.page page).errRec = g.errRec) ∧
      (mayRead s a = true → pagePresent page = true →
        (∃ t, exec (.errRecRead a page) s = .next t ∧ answers t 0x40 ∧ ∀ n < 7, regValue t a page (0x48 + 8 * n) = nth g.errRec (n + 1) 0) ∧
        (∃ t, exec (.progRead a page) s = .next t ∧ answers t 0x80 ∧ regValue t a page 0x88 = BitVec.ofNat 64 (g.asOf s.nowNs).pos ∧
          regValue t a page 0x90 = BitVec.ofNat 64 g.tot) ∧
        (page = 0x40 + v.val → ∃ t, exec (.readClear a page 0xC0) s = .next t ∧ answers t 0xC0 ∧ (t.vault v).ce = 0 ∧
          (t.vault v).ue = 0 ∧ (t.vault v).retry = 0 ∧ (t.vault v).hit = (s.vault v).hit)) ∧
      (writeFault s a page 0x30 = 0 → ∃ t, exec (.registerWrite a page 0x30 val) s = .next t ∧ (t.page page).errEn = val.truncate 7) ∧
      (writeFault s a page 0x20 = 0 → exec (.registerWrite a page 0x20 val) s = .next s)

/-- PLATFORM_ACCESS (R110, R201, R202, R490, R491, R520 to R522): an access that no window allows has no effect but its fault and record 0x9A.
Outside the caches a load delivers the bytes of the DRAM or a tile store, a store writes its bytes, poison bites in the load, and the group
table takes no store; in a cached window, with room and no error standing, loads and stores see the lines, which cleaning and flushing write
back and invalidating drops. A load of a register page delivers the register's value to its agent. -/
def Obligations.PlatformAccesses : Prop :=
  ∀ (s : State) (x : PlatAccess) (page off : Nat),
    let gs := granulesOf x.addr x.len
    let f := fetchRange s x.addr x.len
    let agent := if x.mode = 1 then Agent.platformS else Agent.platformM
    let runs := fun (q : State → Prop) => ∃ t, exec (.platformAccess x) s = .next t ∧ q t
    let delivers := fun (bs : List PByte) => runs fun t => t.plt.lastLoad = some (some bs)
    s.live = true → s.plt.cpus.getLsbD x.cpu.val = true → s.plt.cpuHalted.getLsbD x.cpu.val = false →
      (x.write = true → x.data.length = x.len) →
      (windowAllows s x = false → runs fun t => t.plt.lastLoad = some none ∧ t.mem = s.mem ∧ t.marks = s.marks ∧
        ∃ r, t.errRing = s.errRing ++ [r] ∧ r.code = 0x9A) ∧
      (windowAllows s x = true → cached s x = false → 0 < x.len →
        (x.op = .load → inDram x.addr x.len = true ∨ (tileCore x.addr x.len).isSome = true →
          (poisonedIn f x.addr x.len = false → delivers (readP f x.addr x.len)) ∧
          (poisonedIn f x.addr x.len = true → runs fun t => t.plt.lastLoad = some none ∧
            ∃ r, t.errRing = f.errRing ++ [r] ∧ r.code = 0x13 ∧ r.uclass = 0xB)) ∧
        (x.op = .store → inDram x.addr x.len = true →
          (groupTableHit s x.addr x.len = false → runs fun t => Stores s t x.addr x.data) ∧
          (groupTableHit s x.addr x.len = true → runs fun t => t.plt.lastLoad = some none ∧ t.mem = s.mem)) ∧
        (x.op ≠ .load → x.op ≠ .store → exec (.platformAccess x) s = .next s) ∧
        (x.op = .load → x.mode ≠ 0 → x.len = 8 → pagePresent page = true → off % 8 = 0 → off < 2 ^ 16 →
          x.addr = Config.pageBase + page * 2 ^ 16 + off → delivers (clean (toBytes 8 (regValue s agent page off).toNat)))) ∧
      (windowAllows s x = true → cached s x = true → ErrorFree s → s.plt.cache.length + gs.length ≤ sharedLines →
        (x.op = .load → (∀ g ∈ gs, match s.line g with | some l => l.psn = false | none => s.mark g = false) →
          delivers (clean ((List.range x.len).map fun i => seenByte s (x.addr + i)))) ∧
        (x.op = .store → runs fun t => ∀ a, seenByte t a =
          if x.addr ≤ a ∧ a < x.addr + x.len then nth x.data (a - x.addr) 0 else seenByte s a) ∧
        (x.op = .inval → runs fun t => t.mem = s.mem ∧ ∀ g ∈ gs, t.line g = none) ∧
        (∀ g ∈ gs, ∀ l, s.line g = some l → l.dirty = true → l.bytes.length = 64 →
          (x.op = .clean → runs fun t => readB t (64 * g) 64 = l.bytes ∧ t.line g = some { l with dirty := false }) ∧
          (x.op = .flush → runs fun t => readB t (64 * g) 64 = l.bytes ∧ t.line g = none)))

/-! ### Reset values, encodings and invariants -/

/-- What reset leaves in registers for which the field maps give a value (R138, R176, R217, R231, R352, R377, R430, R486, R527, R529): read
through their pages. -/
def Obligations.ResetRegisters : Prop :=
  let r := fun page off => regValue State.reset .management page off
  (∀ c : CoreId, r (0x20 + c.val) 0x100 = 0x000F4240 <<< 16 ∧ r (0x20 + c.val) 0x108 = 0 ∧ r (0x20 + c.val) 0x110 = 0 ∧
    r (0x20 + c.val) 0x118 = 0) ∧
    (∀ v : VaultId, r (0x40 + v.val) 0x108 = 0x0C01 ∧ r (0x40 + v.val) 0x110 = 0) ∧
    (∀ p : PortId, r (0x10 + p.val) 0x100 = (0x003C <<< 32 ||| 0x64 <<< 16 ||| 0xC1)) ∧
    (∀ p : HostPortId, r (0x1A + p.val) 0x100 = (0x0258 <<< 32 ||| 7 <<< 16 ||| 1)) ∧
    r 8 0x108 = 0x00989680 ∧ r 3 0x100 = (0x190 <<< 32 ||| 0x4B0 <<< 16 ||| 0x47E) ∧ r 4 0x100 = 0xFFFFFFFF <<< 32 ∧
    (∀ n < 128, pagePresent n = true → r n 0x28 = 0 ∧ r n 0x30 = 0x7F) ∧ State.reset.mem = [] ∧ State.reset.pending = [] ∧
    State.reset.cycle = 0 ∧ State.reset.job = none ∧ Memory.wf State.reset.mem = true

/-- The bundle encoding (R140, R141, R146, R149, R151, R156, R159): encoding and decoding are each other's inverse, so every bit of a bundle
has one place in its slots. -/
def Obligations.BundlesDecodeAsEncoded : Prop :=
  (∀ b : Bundle, decodeBundle (encodeBundle b) = b) ∧ ∀ w : BitVec 256, encodeBundle (decodeBundle w) = w

/-- A bundle operation is its bundle (R134, R135, R140): when the head of a core's fetch buffer holds the encoding of the bundle whose only
operation a command is, BUNDLE_ISSUE is that command. -/
def Obligations.FetchedOperationIsTheCommand : Prop :=
  ∀ (s : State) (i : Instr) (c : CoreId) (b : Bundle) (n : Nat) (rest : List Fetched),
    opBundle i = some (c, b) → (s.core c).fetched = ⟨n, encodeBundle b, false⟩ :: rest → exec (.bundleIssue c .none) s = exec i s

/-- The canonical form of the memory is an invariant of the bundle operations and of the commands of the vaults, the scrubs and the
transfers: a step on one of them keeps it. -/
def Obligations.MemoryKeepsItsForm : Prop :=
  ∀ (s t : State) (i : Instr) (rest : List Instr) (c : CoreId) (q : Fin 4) (a : Nat) (data : List Byte) (psn bad : Bool)
    (d e : Disturb) (v : VaultId) (w : SramWord) (b : SramBurst) (u : UnitFault),
    (opBundle i ≠ none ∨ i = .bundleIssue c u ∨ i = .transferComplete c q ∨ i = .gather c q ∨ i = .openVersion c q ∨
      i = .publish c q ∨ i = .vaultRead a d e ∨ i = .vaultWrite a data psn bad d ∨ i = .dramScrubRead v d e ∨ i = .sramScrubRead w b) →
      s.pending = i :: rest → Memory.wf s.mem = true → step s = .next t → Memory.wf t.mem = true

/-! ### Rules stated as they stand (R136, R145, R162) -/

/-- R145: s0 reads as zero and ignores writes, another scalar register reads what was last written; a core or job reset sets every scalar
register to zero; sums and products wrap modulo 2^64. The 32 registers of 64 bits are the types. -/
def Obligations.ScalarRegisters : Prop :=
  (∀ (k : Core) (r q : BitVec 5) (x : Word), (k.setSreg r x).sreg q = if q = 0 then 0 else if q = r then x else k.sreg q) ∧
    ∀ (s : State) (c : CoreId) (sd sa sb : BitVec 5),
      let a := ((s.core c).sreg sa).toNat
      let b := ((s.core c).sreg sb).toNat
      let wraps := fun (i : Instr) (n : Nat) => Issues s i → sd ≠ 0 →
        ∃ t, exec i s = .next t ∧ ((t.core c).sreg sd).toNat = n % 2 ^ 64
      (s.live = true → (s.core c).winStart = none → ∃ t, exec (.coreReset c) s = .next t ∧ ∀ r, (t.core c).sreg r = 0) ∧
        (s.live = true → resetWaits s = false → ∃ t, exec .jobReset s = .next t ∧ ∀ (d : CoreId) (r : BitVec 5), (t.core d).sreg r = 0) ∧
        wraps (.add c sd sa sb) (a + b) ∧ wraps (.sub c sd sa sb) (a + (2 ^ 64 - b)) ∧ wraps (.mul c sd sa sb) (a * b)

/-- R136: a fetched bundle that carries poison or was not corrected is not issued: its core halts at it with the poison exception, and no
slot has an effect. -/
def Obligations.PoisonedBundleHalts : Prop :=
  ∀ (s : State) (c : CoreId) (f : Fetched) (rest : List Fetched) (u : UnitFault),
    let k := s.core c
    canLook s c = true → k.fetched = f :: rest → f.bad = true → u ≠ .parity →
      ∃ t r, exec (.bundleIssue c u) s = .next t ∧ (t.core c).st = .halted ∧ (t.core c).pc = k.pc ∧ (t.core c).exc.cause = 0x01 ∧
        (t.core c).exc.bundle = k.pc ∧ (t.core c).sregs = k.sregs ∧ (t.core c).vregs = k.vregs ∧ (t.core c).masks = k.masks ∧
        (t.core c).tokens = k.tokens ∧ (t.core c).queues = k.queues ∧ (t.core c).arrays = k.arrays ∧ (t.core c).signals = k.signals ∧
        CoreFrame c s t ∧ t.errRing = s.errRing ++ [r] ∧ r.code = 0x01

/-- R162: an increment, of whatever size, that would carry a counter beyond 0xFFFF_FFFF leaves it unchanged and halts the receiving core
with a token-overflow exception at its next bundle not yet issued; so do completion notices and signals. -/
def Obligations.TokenOverflow : Prop :=
  ∀ (s : State) (src c : CoreId) (tok n : Nat) (tk : BitVec 6) (g : Signal) (rest : List Signal),
    let k := s.core c
    let overflows := fun (t : State) => (t.core c).tokens = k.tokens ∧ (t.core c).st = .halted ∧ (t.core c).exc.cause = 0x0A ∧
      (t.core c).exc.bundle = k.pc ∧ (t.core c).pc = k.pc
    k.st ≠ .halted → k.st ≠ .window →
      (2 ^ 32 ≤ (k.token tok).toNat + n → overflows (s.addToken c tok n)) ∧
      (s.live = true → 2 ^ 32 ≤ (k.token tk.toNat).toNat + 1 →
        ∃ t, exec (.tokenIncrement (.notice c tk)) s = .next t ∧ overflows t) ∧
      (s.live = true → (s.core src).signals = g :: rest → writesDone (s.core src) g.seq = true → g.dst = c.val →
        2 ^ 32 ≤ (k.token g.tok.toNat).toNat + g.inc.toNat →
        ∃ t, exec (.tokenIncrement (.signal src)) s = .next t ∧ overflows t)
end

