-- ==== Sys2Proof/Laws/Sparse.lean ====
section
/-!
SUPPORT. Laws of the sparse map: a read after a write, writes at one key, and that a write keeps the canonical form.
-/

namespace Sys2Proof.Machine

variable {α : Type}

theorem mget_mdel_self (d : α) (m : SMap α) (i : Nat) : mget d (mdel m i) i = d := by
  induction m with
  | nil => rfl
  | cons e m ih =>
    obtain ⟨k, v⟩ := e
    by_cases h : k = i <;> simp [mdel, mget, h, ih]

theorem mget_mdel_ne (d : α) (m : SMap α) {i j : Nat} (h : j ≠ i) : mget d (mdel m i) j = mget d m j := by
  induction m with
  | nil => rfl
  | cons e m ih =>
    obtain ⟨k, v⟩ := e
    by_cases hk : k = i
    · subst hk; simp [mdel, mget, ih, Ne.symm h]
    · by_cases hj : k = j
      · subst hj; simp [mdel, mget, h]
      · simp [mdel, mget, hk, hj, ih]

theorem mget_mins_self (d : α) (m : SMap α) (i : Nat) (x : α) (h : ∀ e ∈ m, e.1 ≠ i) : mget d (mins m i x) i = x := by
  induction m with
  | nil => simp [mins, mget]
  | cons e m ih =>
    obtain ⟨k, v⟩ := e
    have hk : k ≠ i := h (k, v) (by simp)
    by_cases hlt : i < k
    · simp [mins, mget, hlt]
    · simp [mins, mget, hlt, hk, ih (fun e he => h e (by simp [he]))]

theorem mget_mins_ne (d : α) (m : SMap α) {i j : Nat} (x : α) (h : j ≠ i) : mget d (mins m i x) j = mget d m j := by
  induction m with
  | nil => simp [mins, mget, Ne.symm h]
  | cons e m ih =>
    obtain ⟨k, v⟩ := e
    by_cases hk : k = j
    · subst hk
      by_cases hlt : i < k <;> simp [mins, mget, hlt, Ne.symm h]
    · by_cases hlt : i < k <;> simp [mins, mget, hlt, hk, ih, Ne.symm h]

theorem mdel_no_key (m : SMap α) (i : Nat) : ∀ e ∈ mdel m i, e.1 ≠ i := by
  induction m with
  | nil => simp [mdel]
  | cons e m ih =>
    obtain ⟨k, v⟩ := e
    by_cases h : k = i
    · simpa [mdel, h] using ih
    · simpa [mdel, h] using ih

variable [DecidableEq α]

/-- A read at the written key gives the value written. -/
@[simp] theorem mget_mset_self (d : α) (m : SMap α) (i : Nat) (x : α) : mget d (mset d m i x) i = x := by
  unfold mset
  split
  · rename_i h; rw [mget_mdel_self, h]
  · exact mget_mins_self d _ i x (mdel_no_key m i)

/-- A read at another key gives what it gave. -/
theorem mget_mset_ne (d : α) (m : SMap α) {i j : Nat} (x : α) (h : j ≠ i) : mget d (mset d m i x) j = mget d m j := by
  unfold mset
  split
  · exact mget_mdel_ne d m h
  · rw [mget_mins_ne d _ x h, mget_mdel_ne d m h]

/-- A read after a write, in one equation. -/
theorem mget_mset (d : α) (m : SMap α) (i j : Nat) (x : α) :
    mget d (mset d m i x) j = if j = i then x else mget d m j := by
  by_cases h : j = i
  · simp [h]
  · simp [h, mget_mset_ne d m x h]

omit [DecidableEq α] in
theorem mdel_of_no_key (m : SMap α) (i : Nat) (h : ∀ e ∈ m, e.1 ≠ i) : mdel m i = m := by
  induction m with
  | nil => rfl
  | cons e m ih =>
    obtain ⟨k, v⟩ := e
    have hk : k ≠ i := h (k, v) (by simp)
    simp [mdel, hk, ih (fun e he => h e (by simp [he]))]

omit [DecidableEq α] in
theorem mdel_mins (m : SMap α) (i : Nat) (x : α) (h : ∀ e ∈ m, e.1 ≠ i) : mdel (mins m i x) i = m := by
  induction m with
  | nil => simp [mins, mdel]
  | cons e m ih =>
    obtain ⟨k, v⟩ := e
    have hk : k ≠ i := h (k, v) (by simp)
    have hm : ∀ e ∈ m, e.1 ≠ i := fun e he => h e (by simp [he])
    by_cases hlt : i < k
    · simp [mins, mdel, hlt, hk, mdel_of_no_key m i hm]
    · simp [mins, mdel, hlt, hk, ih hm]

/-- Of two writes at one key the second counts. -/
@[simp] theorem mset_mset (d : α) (m : SMap α) (i : Nat) (x y : α) : mset d (mset d m i x) i y = mset d m i y := by
  have h : mdel (mset d m i x) i = mdel m i := by
    unfold mset
    split
    · exact mdel_of_no_key _ _ (mdel_no_key m i)
    · exact mdel_mins _ _ _ (mdel_no_key m i)
  rw [mset, h, ← mset]

/-- Two changes at one key are one change. -/
@[simp] theorem mmod_mmod (d : α) (m : SMap α) (i : Nat) (f g : α → α) :
    mmod d (mmod d m i f) i g = mmod d m i (fun x => g (f x)) := by
  simp [mmod]

/-! ### The canonical form -/

/-- The canonical form as a recursion on the first entry. -/
theorem mwf_cons (d : α) (k : Nat) (v : α) (m : SMap α) :
    mwf d ((k, v) :: m) = true ↔ v ≠ d ∧ (∀ e ∈ m, k < e.1) ∧ mwf d m = true := by
  induction m generalizing k v with
  | nil => simp [mwf]
  | cons e m ih =>
    obtain ⟨k', v'⟩ := e
    simp only [mwf, Bool.and_eq_true, decide_eq_true_eq, List.mem_cons, forall_eq_or_imp]
    constructor
    · rintro ⟨⟨h1, h2⟩, h3⟩
      exact ⟨h1, ⟨h2, fun e he => lt_trans h2 (((ih k' v').mp h3).2.1 e he)⟩, h3⟩
    · rintro ⟨h1, ⟨h2, -⟩, h3⟩
      exact ⟨⟨h1, h2⟩, h3⟩

omit [DecidableEq α] in
theorem mem_mdel {m : SMap α} {i : Nat} {e : Nat × α} (h : e ∈ mdel m i) : e ∈ m := by
  induction m with
  | nil => simp [mdel] at h
  | cons a m ih =>
    obtain ⟨k, v⟩ := a
    by_cases hk : k = i
    · simp only [mdel, hk, if_true] at h; exact List.mem_cons_of_mem _ (ih h)
    · simp only [mdel, hk, if_false, List.mem_cons] at h
      rcases h with h | h
      · simp [h]
      · exact List.mem_cons_of_mem _ (ih h)

omit [DecidableEq α] in
theorem mem_mins {m : SMap α} {i : Nat} {x : α} {e : Nat × α} (h : e ∈ mins m i x) : e = (i, x) ∨ e ∈ m := by
  induction m with
  | nil => simpa [mins] using h
  | cons a m ih =>
    obtain ⟨k, v⟩ := a
    by_cases hlt : i < k
    · simpa [mins, hlt] using h
    · simp only [mins, hlt, if_false, List.mem_cons] at h
      rcases h with h | h
      · simp [h]
      · rcases ih h with h | h <;> simp [h]

theorem mdel_wf (d : α) (m : SMap α) (i : Nat) (h : mwf d m = true) : mwf d (mdel m i) = true := by
  induction m with
  | nil => simp [mdel, mwf]
  | cons e m ih =>
    obtain ⟨k, v⟩ := e
    obtain ⟨h1, h2, h3⟩ := (mwf_cons d k v m).mp h
    by_cases hk : k = i
    · simpa [mdel, hk] using ih h3
    · simp only [mdel, hk, if_false]
      exact (mwf_cons d k v _).mpr ⟨h1, fun e he => h2 e (mem_mdel he), ih h3⟩

theorem mins_wf (d : α) (m : SMap α) (i : Nat) (x : α) (hx : x ≠ d) (hi : ∀ e ∈ m, e.1 ≠ i) (h : mwf d m = true) :
    mwf d (mins m i x) = true := by
  induction m with
  | nil => simp [mins, mwf, hx]
  | cons e m ih =>
    obtain ⟨k, v⟩ := e
    obtain ⟨h1, h2, h3⟩ := (mwf_cons d k v m).mp h
    have hk : k ≠ i := hi (k, v) (by simp)
    by_cases hlt : i < k
    · simp only [mins, hlt, if_true]
      refine (mwf_cons d i x _).mpr ⟨hx, ?_, h⟩
      intro e he
      rcases List.mem_cons.mp he with rfl | he
      · exact hlt
      · exact lt_trans hlt (h2 e he)
    · simp only [mins, hlt, if_false]
      refine (mwf_cons d k v _).mpr ⟨h1, ?_, ih (fun e he => hi e (by simp [he])) h3⟩
      intro e he
      rcases mem_mins he with rfl | he
      · exact lt_of_le_of_ne (not_lt.mp hlt) hk
      · exact h2 e he

/-- A write keeps the canonical form. -/
theorem mset_wf (d : α) (m : SMap α) (i : Nat) (x : α) (h : mwf d m = true) : mwf d (mset d m i x) = true := by
  unfold mset
  split
  · exact mdel_wf d m i h
  · rename_i hx; exact mins_wf d _ i x hx (mdel_no_key m i) (mdel_wf d m i h)

end Sys2Proof.Machine
end

