-- ==== Sys2Proof/Laws/State.lean ====
section
/-!
SUPPORT. Laws of the state: what each update of one unit leaves, field by field, and a read of a unit after an update of it.
-/

namespace Sys2Proof.Machine

/-! ### modCore -/

/-- A read of a unit after an update. -/
theorem core_modCore (s : State) (c : Nat) (f : Core → Core) (i : Nat) :
    (s.modCore c f).core i = if i = c then f (s.core i) else s.core i := by
  unfold State.modCore State.core mmod
  rw [mget_mset]
  split <;> simp_all

/-- A read of the updated unit. -/
@[simp] theorem core_modCore_self (s : State) (c : Nat) (f : Core → Core) : (s.modCore c f).core c = f (s.core c) := by
  simp [core_modCore]

/-- A read of another unit. -/
@[simp] theorem core_modCore_ne (s : State) (c : Nat) (f : Core → Core) {i : Nat} (h : i ≠ c) : (s.modCore c f).core i = s.core i := by
  simp [core_modCore, h]

/-- Two updates of one unit are one. -/
@[simp] theorem modCore_modCore (s : State) (c : Nat) (f : Core → Core) (g : Core → Core) :
    (s.modCore c f).modCore c g = s.modCore c fun x => g (f x) := by
  simp [State.modCore]

/-- An update counts only through what it makes of the unit as it stands. -/
theorem modCore_congr (s : State) (c : Nat) (f : Core → Core) (g : Core → Core) (h : f (s.core c) = g (s.core c)) :
    s.modCore c f = s.modCore c g := by
  unfold State.modCore mmod
  unfold State.core at h
  rw [h]

@[simp] theorem modCore_cycle (s : State) (c : Nat) (f : Core → Core) : (s.modCore c f).cycle = s.cycle := rfl
@[simp] theorem modCore_pending (s : State) (c : Nat) (f : Core → Core) : (s.modCore c f).pending = s.pending := rfl
@[simp] theorem modCore_fresh (s : State) (c : Nat) (f : Core → Core) : (s.modCore c f).fresh = s.fresh := rfl
@[simp] theorem modCore_mem (s : State) (c : Nat) (f : Core → Core) : (s.modCore c f).mem = s.mem := rfl
@[simp] theorem modCore_marks (s : State) (c : Nat) (f : Core → Core) : (s.modCore c f).marks = s.marks := rfl
@[simp] theorem modCore_errs (s : State) (c : Nat) (f : Core → Core) : (s.modCore c f).errs = s.errs := rfl
@[simp] theorem modCore_metaErrs (s : State) (c : Nat) (f : Core → Core) : (s.modCore c f).metaErrs = s.metaErrs := rfl
@[simp] theorem modCore_sramErrs (s : State) (c : Nat) (f : Core → Core) : (s.modCore c f).sramErrs = s.sramErrs := rfl
@[simp] theorem modCore_acc (s : State) (c : Nat) (f : Core → Core) : (s.modCore c f).acc = s.acc := rfl
@[simp] theorem modCore_workCtrs (s : State) (c : Nat) (f : Core → Core) : (s.modCore c f).workCtrs = s.workCtrs := rfl
@[simp] theorem modCore_barriers (s : State) (c : Nat) (f : Core → Core) : (s.modCore c f).barriers = s.barriers := rfl
@[simp] theorem modCore_vaults (s : State) (c : Nat) (f : Core → Core) : (s.modCore c f).vaults = s.vaults := rfl
@[simp] theorem modCore_teasels (s : State) (c : Nat) (f : Core → Core) : (s.modCore c f).teasels = s.teasels := rfl
@[simp] theorem modCore_tierTmo (s : State) (c : Nat) (f : Core → Core) : (s.modCore c f).tierTmo = s.tierTmo := rfl
@[simp] theorem modCore_job (s : State) (c : Nat) (f : Core → Core) : (s.modCore c f).job = s.job := rfl
@[simp] theorem modCore_batches (s : State) (c : Nat) (f : Core → Core) : (s.modCore c f).batches = s.batches := rfl
@[simp] theorem modCore_accepted (s : State) (c : Nat) (f : Core → Core) : (s.modCore c f).accepted = s.accepted := rfl
@[simp] theorem modCore_lookups (s : State) (c : Nat) (f : Core → Core) : (s.modCore c f).lookups = s.lookups := rfl
@[simp] theorem modCore_lookupQueue (s : State) (c : Nat) (f : Core → Core) : (s.modCore c f).lookupQueue = s.lookupQueue := rfl
@[simp] theorem modCore_counts (s : State) (c : Nat) (f : Core → Core) : (s.modCore c f).counts = s.counts := rfl
@[simp] theorem modCore_payloads (s : State) (c : Nat) (f : Core → Core) : (s.modCore c f).payloads = s.payloads := rfl
@[simp] theorem modCore_waitingPayloads (s : State) (c : Nat) (f : Core → Core) : (s.modCore c f).waitingPayloads = s.waitingPayloads := rfl
@[simp] theorem modCore_banks (s : State) (c : Nat) (f : Core → Core) : (s.modCore c f).banks = s.banks := rfl
@[simp] theorem modCore_begun (s : State) (c : Nat) (f : Core → Core) : (s.modCore c f).begun = s.begun := rfl
@[simp] theorem modCore_tierDone (s : State) (c : Nat) (f : Core → Core) : (s.modCore c f).tierDone = s.tierDone := rfl
@[simp] theorem modCore_scales (s : State) (c : Nat) (f : Core → Core) : (s.modCore c f).scales = s.scales := rfl
@[simp] theorem modCore_waitingGrads (s : State) (c : Nat) (f : Core → Core) : (s.modCore c f).waitingGrads = s.waitingGrads := rfl
@[simp] theorem modCore_waitingFolds (s : State) (c : Nat) (f : Core → Core) : (s.modCore c f).waitingFolds = s.waitingFolds := rfl
@[simp] theorem modCore_waitingMarkers (s : State) (c : Nat) (f : Core → Core) : (s.modCore c f).waitingMarkers = s.waitingMarkers := rfl
@[simp] theorem modCore_commitWait (s : State) (c : Nat) (f : Core → Core) : (s.modCore c f).commitWait = s.commitWait := rfl
@[simp] theorem modCore_rowJobs (s : State) (c : Nat) (f : Core → Core) : (s.modCore c f).rowJobs = s.rowJobs := rfl
@[simp] theorem modCore_fetches (s : State) (c : Nat) (f : Core → Core) : (s.modCore c f).fetches = s.fetches := rfl
@[simp] theorem modCore_fetchSeq (s : State) (c : Nat) (f : Core → Core) : (s.modCore c f).fetchSeq = s.fetchSeq := rfl
@[simp] theorem modCore_xops (s : State) (c : Nat) (f : Core → Core) : (s.modCore c f).xops = s.xops := rfl
@[simp] theorem modCore_xwin (s : State) (c : Nat) (f : Core → Core) : (s.modCore c f).xwin = s.xwin := rfl
@[simp] theorem modCore_landings (s : State) (c : Nat) (f : Core → Core) : (s.modCore c f).landings = s.landings := rfl
@[simp] theorem modCore_tagWait (s : State) (c : Nat) (f : Core → Core) : (s.modCore c f).tagWait = s.tagWait := rfl
@[simp] theorem modCore_grants (s : State) (c : Nat) (f : Core → Core) : (s.modCore c f).grants = s.grants := rfl
@[simp] theorem modCore_inbox (s : State) (c : Nat) (f : Core → Core) : (s.modCore c f).inbox = s.inbox := rfl
@[simp] theorem modCore_outWait (s : State) (c : Nat) (f : Core → Core) : (s.modCore c f).outWait = s.outWait := rfl
@[simp] theorem modCore_ports (s : State) (c : Nat) (f : Core → Core) : (s.modCore c f).ports = s.ports := rfl
@[simp] theorem modCore_fabOut (s : State) (c : Nat) (f : Core → Core) : (s.modCore c f).fabOut = s.fabOut := rfl
@[simp] theorem modCore_mirror (s : State) (c : Nat) (f : Core → Core) : (s.modCore c f).mirror = s.mirror := rfl
@[simp] theorem modCore_hports (s : State) (c : Nat) (f : Core → Core) : (s.modCore c f).hports = s.hports := rfl
@[simp] theorem modCore_sessions (s : State) (c : Nat) (f : Core → Core) : (s.modCore c f).sessions = s.sessions := rfl
@[simp] theorem modCore_nextSid (s : State) (c : Nat) (f : Core → Core) : (s.modCore c f).nextSid = s.nextSid := rfl
@[simp] theorem modCore_hostOut (s : State) (c : Nat) (f : Core → Core) : (s.modCore c f).hostOut = s.hostOut := rfl
@[simp] theorem modCore_tierSources (s : State) (c : Nat) (f : Core → Core) : (s.modCore c f).tierSources = s.tierSources := rfl
@[simp] theorem modCore_ckptDest (s : State) (c : Nat) (f : Core → Core) : (s.modCore c f).ckptDest = s.ckptDest := rfl
@[simp] theorem modCore_late (s : State) (c : Nat) (f : Core → Core) : (s.modCore c f).late = s.late := rfl
@[simp] theorem modCore_errRing (s : State) (c : Nat) (f : Core → Core) : (s.modCore c f).errRing = s.errRing := rfl
@[simp] theorem modCore_rseq (s : State) (c : Nat) (f : Core → Core) : (s.modCore c f).rseq = s.rseq := rfl
@[simp] theorem modCore_pages (s : State) (c : Nat) (f : Core → Core) : (s.modCore c f).pages = s.pages := rfl
@[simp] theorem modCore_snaps (s : State) (c : Nat) (f : Core → Core) : (s.modCore c f).snaps = s.snaps := rfl
@[simp] theorem modCore_integ (s : State) (c : Nat) (f : Core → Core) : (s.modCore c f).integ = s.integ := rfl
@[simp] theorem modCore_tns (s : State) (c : Nat) (f : Core → Core) : (s.modCore c f).tns = s.tns := rfl
@[simp] theorem modCore_plt (s : State) (c : Nat) (f : Core → Core) : (s.modCore c f).plt = s.plt := rfl
@[simp] theorem modCore_flash (s : State) (c : Nat) (f : Core → Core) : (s.modCore c f).flash = s.flash := rfl
@[simp] theorem modCore_pins (s : State) (c : Nat) (f : Core → Core) : (s.modCore c f).pins = s.pins := rfl
@[simp] theorem modCore_mgmtOut (s : State) (c : Nat) (f : Core → Core) : (s.modCore c f).mgmtOut = s.mgmtOut := rfl
@[simp] theorem modCore_waitingReset (s : State) (c : Nat) (f : Core → Core) : (s.modCore c f).waitingReset = s.waitingReset := rfl
@[simp] theorem modCore_amap (s : State) (c : Nat) (f : Core → Core) : (s.modCore c f).amap = s.amap := rfl
@[simp] theorem modCore_grade (s : State) (c : Nat) (f : Core → Core) : (s.modCore c f).grade = s.grade := rfl
@[simp] theorem modCore_ptime0 (s : State) (c : Nat) (f : Core → Core) : (s.modCore c f).ptime0 = s.ptime0 := rfl
@[simp] theorem modCore_vault_read (s : State) (c : Nat) (f : Core → Core) (i : Nat) : (s.modCore c f).vault i = s.vault i := rfl
@[simp] theorem modCore_teasel_read (s : State) (c : Nat) (f : Core → Core) (i : Nat) : (s.modCore c f).teasel i = s.teasel i := rfl
@[simp] theorem modCore_port_read (s : State) (c : Nat) (f : Core → Core) (i : Nat) : (s.modCore c f).port i = s.port i := rfl
@[simp] theorem modCore_hport_read (s : State) (c : Nat) (f : Core → Core) (i : Nat) : (s.modCore c f).hport i = s.hport i := rfl
@[simp] theorem modCore_page_read (s : State) (c : Nat) (f : Core → Core) (i : Nat) : (s.modCore c f).page i = s.page i := rfl
@[simp] theorem modCore_live (s : State) (c : Nat) (f : Core → Core) : (s.modCore c f).live = s.live := rfl
@[simp] theorem modCore_clocked (s : State) (c : Nat) (f : Core → Core) : (s.modCore c f).clocked = s.clocked := rfl
@[simp] theorem modCore_stopped (s : State) (c : Nat) (f : Core → Core) : (s.modCore c f).stopped = s.stopped := rfl

/-! ### modVault -/

/-- A read of a unit after an update. -/
theorem vault_modVault (s : State) (v : Nat) (f : Vault → Vault) (i : Nat) :
    (s.modVault v f).vault i = if i = v then f (s.vault i) else s.vault i := by
  unfold State.modVault State.vault mmod
  rw [mget_mset]
  split <;> simp_all

/-- A read of the updated unit. -/
@[simp] theorem vault_modVault_self (s : State) (v : Nat) (f : Vault → Vault) : (s.modVault v f).vault v = f (s.vault v) := by
  simp [vault_modVault]

/-- A read of another unit. -/
@[simp] theorem vault_modVault_ne (s : State) (v : Nat) (f : Vault → Vault) {i : Nat} (h : i ≠ v) : (s.modVault v f).vault i = s.vault i := by
  simp [vault_modVault, h]

/-- Two updates of one unit are one. -/
@[simp] theorem modVault_modVault (s : State) (v : Nat) (f : Vault → Vault) (g : Vault → Vault) :
    (s.modVault v f).modVault v g = s.modVault v fun x => g (f x) := by
  simp [State.modVault]

/-- An update counts only through what it makes of the unit as it stands. -/
theorem modVault_congr (s : State) (v : Nat) (f : Vault → Vault) (g : Vault → Vault) (h : f (s.vault v) = g (s.vault v)) :
    s.modVault v f = s.modVault v g := by
  unfold State.modVault mmod
  unfold State.vault at h
  rw [h]

@[simp] theorem modVault_cycle (s : State) (v : Nat) (f : Vault → Vault) : (s.modVault v f).cycle = s.cycle := rfl
@[simp] theorem modVault_pending (s : State) (v : Nat) (f : Vault → Vault) : (s.modVault v f).pending = s.pending := rfl
@[simp] theorem modVault_fresh (s : State) (v : Nat) (f : Vault → Vault) : (s.modVault v f).fresh = s.fresh := rfl
@[simp] theorem modVault_mem (s : State) (v : Nat) (f : Vault → Vault) : (s.modVault v f).mem = s.mem := rfl
@[simp] theorem modVault_marks (s : State) (v : Nat) (f : Vault → Vault) : (s.modVault v f).marks = s.marks := rfl
@[simp] theorem modVault_errs (s : State) (v : Nat) (f : Vault → Vault) : (s.modVault v f).errs = s.errs := rfl
@[simp] theorem modVault_metaErrs (s : State) (v : Nat) (f : Vault → Vault) : (s.modVault v f).metaErrs = s.metaErrs := rfl
@[simp] theorem modVault_sramErrs (s : State) (v : Nat) (f : Vault → Vault) : (s.modVault v f).sramErrs = s.sramErrs := rfl
@[simp] theorem modVault_acc (s : State) (v : Nat) (f : Vault → Vault) : (s.modVault v f).acc = s.acc := rfl
@[simp] theorem modVault_cores (s : State) (v : Nat) (f : Vault → Vault) : (s.modVault v f).cores = s.cores := rfl
@[simp] theorem modVault_workCtrs (s : State) (v : Nat) (f : Vault → Vault) : (s.modVault v f).workCtrs = s.workCtrs := rfl
@[simp] theorem modVault_barriers (s : State) (v : Nat) (f : Vault → Vault) : (s.modVault v f).barriers = s.barriers := rfl
@[simp] theorem modVault_teasels (s : State) (v : Nat) (f : Vault → Vault) : (s.modVault v f).teasels = s.teasels := rfl
@[simp] theorem modVault_tierTmo (s : State) (v : Nat) (f : Vault → Vault) : (s.modVault v f).tierTmo = s.tierTmo := rfl
@[simp] theorem modVault_job (s : State) (v : Nat) (f : Vault → Vault) : (s.modVault v f).job = s.job := rfl
@[simp] theorem modVault_batches (s : State) (v : Nat) (f : Vault → Vault) : (s.modVault v f).batches = s.batches := rfl
@[simp] theorem modVault_accepted (s : State) (v : Nat) (f : Vault → Vault) : (s.modVault v f).accepted = s.accepted := rfl
@[simp] theorem modVault_lookups (s : State) (v : Nat) (f : Vault → Vault) : (s.modVault v f).lookups = s.lookups := rfl
@[simp] theorem modVault_lookupQueue (s : State) (v : Nat) (f : Vault → Vault) : (s.modVault v f).lookupQueue = s.lookupQueue := rfl
@[simp] theorem modVault_counts (s : State) (v : Nat) (f : Vault → Vault) : (s.modVault v f).counts = s.counts := rfl
@[simp] theorem modVault_payloads (s : State) (v : Nat) (f : Vault → Vault) : (s.modVault v f).payloads = s.payloads := rfl
@[simp] theorem modVault_waitingPayloads (s : State) (v : Nat) (f : Vault → Vault) : (s.modVault v f).waitingPayloads = s.waitingPayloads := rfl
@[simp] theorem modVault_banks (s : State) (v : Nat) (f : Vault → Vault) : (s.modVault v f).banks = s.banks := rfl
@[simp] theorem modVault_begun (s : State) (v : Nat) (f : Vault → Vault) : (s.modVault v f).begun = s.begun := rfl
@[simp] theorem modVault_tierDone (s : State) (v : Nat) (f : Vault → Vault) : (s.modVault v f).tierDone = s.tierDone := rfl
@[simp] theorem modVault_scales (s : State) (v : Nat) (f : Vault → Vault) : (s.modVault v f).scales = s.scales := rfl
@[simp] theorem modVault_waitingGrads (s : State) (v : Nat) (f : Vault → Vault) : (s.modVault v f).waitingGrads = s.waitingGrads := rfl
@[simp] theorem modVault_waitingFolds (s : State) (v : Nat) (f : Vault → Vault) : (s.modVault v f).waitingFolds = s.waitingFolds := rfl
@[simp] theorem modVault_waitingMarkers (s : State) (v : Nat) (f : Vault → Vault) : (s.modVault v f).waitingMarkers = s.waitingMarkers := rfl
@[simp] theorem modVault_commitWait (s : State) (v : Nat) (f : Vault → Vault) : (s.modVault v f).commitWait = s.commitWait := rfl
@[simp] theorem modVault_rowJobs (s : State) (v : Nat) (f : Vault → Vault) : (s.modVault v f).rowJobs = s.rowJobs := rfl
@[simp] theorem modVault_fetches (s : State) (v : Nat) (f : Vault → Vault) : (s.modVault v f).fetches = s.fetches := rfl
@[simp] theorem modVault_fetchSeq (s : State) (v : Nat) (f : Vault → Vault) : (s.modVault v f).fetchSeq = s.fetchSeq := rfl
@[simp] theorem modVault_xops (s : State) (v : Nat) (f : Vault → Vault) : (s.modVault v f).xops = s.xops := rfl
@[simp] theorem modVault_xwin (s : State) (v : Nat) (f : Vault → Vault) : (s.modVault v f).xwin = s.xwin := rfl
@[simp] theorem modVault_landings (s : State) (v : Nat) (f : Vault → Vault) : (s.modVault v f).landings = s.landings := rfl
@[simp] theorem modVault_tagWait (s : State) (v : Nat) (f : Vault → Vault) : (s.modVault v f).tagWait = s.tagWait := rfl
@[simp] theorem modVault_grants (s : State) (v : Nat) (f : Vault → Vault) : (s.modVault v f).grants = s.grants := rfl
@[simp] theorem modVault_inbox (s : State) (v : Nat) (f : Vault → Vault) : (s.modVault v f).inbox = s.inbox := rfl
@[simp] theorem modVault_outWait (s : State) (v : Nat) (f : Vault → Vault) : (s.modVault v f).outWait = s.outWait := rfl
@[simp] theorem modVault_ports (s : State) (v : Nat) (f : Vault → Vault) : (s.modVault v f).ports = s.ports := rfl
@[simp] theorem modVault_fabOut (s : State) (v : Nat) (f : Vault → Vault) : (s.modVault v f).fabOut = s.fabOut := rfl
@[simp] theorem modVault_mirror (s : State) (v : Nat) (f : Vault → Vault) : (s.modVault v f).mirror = s.mirror := rfl
@[simp] theorem modVault_hports (s : State) (v : Nat) (f : Vault → Vault) : (s.modVault v f).hports = s.hports := rfl
@[simp] theorem modVault_sessions (s : State) (v : Nat) (f : Vault → Vault) : (s.modVault v f).sessions = s.sessions := rfl
@[simp] theorem modVault_nextSid (s : State) (v : Nat) (f : Vault → Vault) : (s.modVault v f).nextSid = s.nextSid := rfl
@[simp] theorem modVault_hostOut (s : State) (v : Nat) (f : Vault → Vault) : (s.modVault v f).hostOut = s.hostOut := rfl
@[simp] theorem modVault_tierSources (s : State) (v : Nat) (f : Vault → Vault) : (s.modVault v f).tierSources = s.tierSources := rfl
@[simp] theorem modVault_ckptDest (s : State) (v : Nat) (f : Vault → Vault) : (s.modVault v f).ckptDest = s.ckptDest := rfl
@[simp] theorem modVault_late (s : State) (v : Nat) (f : Vault → Vault) : (s.modVault v f).late = s.late := rfl
@[simp] theorem modVault_errRing (s : State) (v : Nat) (f : Vault → Vault) : (s.modVault v f).errRing = s.errRing := rfl
@[simp] theorem modVault_rseq (s : State) (v : Nat) (f : Vault → Vault) : (s.modVault v f).rseq = s.rseq := rfl
@[simp] theorem modVault_pages (s : State) (v : Nat) (f : Vault → Vault) : (s.modVault v f).pages = s.pages := rfl
@[simp] theorem modVault_snaps (s : State) (v : Nat) (f : Vault → Vault) : (s.modVault v f).snaps = s.snaps := rfl
@[simp] theorem modVault_integ (s : State) (v : Nat) (f : Vault → Vault) : (s.modVault v f).integ = s.integ := rfl
@[simp] theorem modVault_tns (s : State) (v : Nat) (f : Vault → Vault) : (s.modVault v f).tns = s.tns := rfl
@[simp] theorem modVault_plt (s : State) (v : Nat) (f : Vault → Vault) : (s.modVault v f).plt = s.plt := rfl
@[simp] theorem modVault_flash (s : State) (v : Nat) (f : Vault → Vault) : (s.modVault v f).flash = s.flash := rfl
@[simp] theorem modVault_pins (s : State) (v : Nat) (f : Vault → Vault) : (s.modVault v f).pins = s.pins := rfl
@[simp] theorem modVault_mgmtOut (s : State) (v : Nat) (f : Vault → Vault) : (s.modVault v f).mgmtOut = s.mgmtOut := rfl
@[simp] theorem modVault_waitingReset (s : State) (v : Nat) (f : Vault → Vault) : (s.modVault v f).waitingReset = s.waitingReset := rfl
@[simp] theorem modVault_amap (s : State) (v : Nat) (f : Vault → Vault) : (s.modVault v f).amap = s.amap := rfl
@[simp] theorem modVault_grade (s : State) (v : Nat) (f : Vault → Vault) : (s.modVault v f).grade = s.grade := rfl
@[simp] theorem modVault_ptime0 (s : State) (v : Nat) (f : Vault → Vault) : (s.modVault v f).ptime0 = s.ptime0 := rfl
@[simp] theorem modVault_core_read (s : State) (v : Nat) (f : Vault → Vault) (i : Nat) : (s.modVault v f).core i = s.core i := rfl
@[simp] theorem modVault_teasel_read (s : State) (v : Nat) (f : Vault → Vault) (i : Nat) : (s.modVault v f).teasel i = s.teasel i := rfl
@[simp] theorem modVault_port_read (s : State) (v : Nat) (f : Vault → Vault) (i : Nat) : (s.modVault v f).port i = s.port i := rfl
@[simp] theorem modVault_hport_read (s : State) (v : Nat) (f : Vault → Vault) (i : Nat) : (s.modVault v f).hport i = s.hport i := rfl
@[simp] theorem modVault_page_read (s : State) (v : Nat) (f : Vault → Vault) (i : Nat) : (s.modVault v f).page i = s.page i := rfl
@[simp] theorem modVault_live (s : State) (v : Nat) (f : Vault → Vault) : (s.modVault v f).live = s.live := rfl
@[simp] theorem modVault_clocked (s : State) (v : Nat) (f : Vault → Vault) : (s.modVault v f).clocked = s.clocked := rfl
@[simp] theorem modVault_stopped (s : State) (v : Nat) (f : Vault → Vault) : (s.modVault v f).stopped = s.stopped := rfl

/-! ### modTeasel -/

/-- A read of a unit after an update. -/
theorem teasel_modTeasel (s : State) (u : Nat) (f : Teasel → Teasel) (i : Nat) :
    (s.modTeasel u f).teasel i = if i = u then f (s.teasel i) else s.teasel i := by
  unfold State.modTeasel State.teasel mmod
  rw [mget_mset]
  split <;> simp_all

/-- A read of the updated unit. -/
@[simp] theorem teasel_modTeasel_self (s : State) (u : Nat) (f : Teasel → Teasel) : (s.modTeasel u f).teasel u = f (s.teasel u) := by
  simp [teasel_modTeasel]

/-- A read of another unit. -/
@[simp] theorem teasel_modTeasel_ne (s : State) (u : Nat) (f : Teasel → Teasel) {i : Nat} (h : i ≠ u) : (s.modTeasel u f).teasel i = s.teasel i := by
  simp [teasel_modTeasel, h]

/-- Two updates of one unit are one. -/
@[simp] theorem modTeasel_modTeasel (s : State) (u : Nat) (f : Teasel → Teasel) (g : Teasel → Teasel) :
    (s.modTeasel u f).modTeasel u g = s.modTeasel u fun x => g (f x) := by
  simp [State.modTeasel]

/-- An update counts only through what it makes of the unit as it stands. -/
theorem modTeasel_congr (s : State) (u : Nat) (f : Teasel → Teasel) (g : Teasel → Teasel) (h : f (s.teasel u) = g (s.teasel u)) :
    s.modTeasel u f = s.modTeasel u g := by
  unfold State.modTeasel mmod
  unfold State.teasel at h
  rw [h]

@[simp] theorem modTeasel_cycle (s : State) (u : Nat) (f : Teasel → Teasel) : (s.modTeasel u f).cycle = s.cycle := rfl
@[simp] theorem modTeasel_pending (s : State) (u : Nat) (f : Teasel → Teasel) : (s.modTeasel u f).pending = s.pending := rfl
@[simp] theorem modTeasel_fresh (s : State) (u : Nat) (f : Teasel → Teasel) : (s.modTeasel u f).fresh = s.fresh := rfl
@[simp] theorem modTeasel_mem (s : State) (u : Nat) (f : Teasel → Teasel) : (s.modTeasel u f).mem = s.mem := rfl
@[simp] theorem modTeasel_marks (s : State) (u : Nat) (f : Teasel → Teasel) : (s.modTeasel u f).marks = s.marks := rfl
@[simp] theorem modTeasel_acc (s : State) (u : Nat) (f : Teasel → Teasel) : (s.modTeasel u f).acc = s.acc := rfl
@[simp] theorem modTeasel_cores (s : State) (u : Nat) (f : Teasel → Teasel) : (s.modTeasel u f).cores = s.cores := rfl
@[simp] theorem modTeasel_vaults (s : State) (u : Nat) (f : Teasel → Teasel) : (s.modTeasel u f).vaults = s.vaults := rfl
@[simp] theorem modTeasel_job (s : State) (u : Nat) (f : Teasel → Teasel) : (s.modTeasel u f).job = s.job := rfl
@[simp] theorem modTeasel_ports (s : State) (u : Nat) (f : Teasel → Teasel) : (s.modTeasel u f).ports = s.ports := rfl
@[simp] theorem modTeasel_fabOut (s : State) (u : Nat) (f : Teasel → Teasel) : (s.modTeasel u f).fabOut = s.fabOut := rfl
@[simp] theorem modTeasel_sessions (s : State) (u : Nat) (f : Teasel → Teasel) : (s.modTeasel u f).sessions = s.sessions := rfl
@[simp] theorem modTeasel_hostOut (s : State) (u : Nat) (f : Teasel → Teasel) : (s.modTeasel u f).hostOut = s.hostOut := rfl
@[simp] theorem modTeasel_errRing (s : State) (u : Nat) (f : Teasel → Teasel) : (s.modTeasel u f).errRing = s.errRing := rfl
@[simp] theorem modTeasel_rseq (s : State) (u : Nat) (f : Teasel → Teasel) : (s.modTeasel u f).rseq = s.rseq := rfl
@[simp] theorem modTeasel_integ (s : State) (u : Nat) (f : Teasel → Teasel) : (s.modTeasel u f).integ = s.integ := rfl
@[simp] theorem modTeasel_tns (s : State) (u : Nat) (f : Teasel → Teasel) : (s.modTeasel u f).tns = s.tns := rfl
@[simp] theorem modTeasel_plt (s : State) (u : Nat) (f : Teasel → Teasel) : (s.modTeasel u f).plt = s.plt := rfl
@[simp] theorem modTeasel_pins (s : State) (u : Nat) (f : Teasel → Teasel) : (s.modTeasel u f).pins = s.pins := rfl
@[simp] theorem modTeasel_core_read (s : State) (u : Nat) (f : Teasel → Teasel) (i : Nat) : (s.modTeasel u f).core i = s.core i := rfl
@[simp] theorem modTeasel_vault_read (s : State) (u : Nat) (f : Teasel → Teasel) (i : Nat) : (s.modTeasel u f).vault i = s.vault i := rfl
@[simp] theorem modTeasel_port_read (s : State) (u : Nat) (f : Teasel → Teasel) (i : Nat) : (s.modTeasel u f).port i = s.port i := rfl
@[simp] theorem modTeasel_hport_read (s : State) (u : Nat) (f : Teasel → Teasel) (i : Nat) : (s.modTeasel u f).hport i = s.hport i := rfl
@[simp] theorem modTeasel_page_read (s : State) (u : Nat) (f : Teasel → Teasel) (i : Nat) : (s.modTeasel u f).page i = s.page i := rfl
@[simp] theorem modTeasel_live (s : State) (u : Nat) (f : Teasel → Teasel) : (s.modTeasel u f).live = s.live := rfl
@[simp] theorem modTeasel_clocked (s : State) (u : Nat) (f : Teasel → Teasel) : (s.modTeasel u f).clocked = s.clocked := rfl
@[simp] theorem modTeasel_stopped (s : State) (u : Nat) (f : Teasel → Teasel) : (s.modTeasel u f).stopped = s.stopped := rfl

/-! ### modPort -/

/-- A read of a unit after an update. -/
theorem port_modPort (s : State) (p : Nat) (f : Port → Port) (i : Nat) :
    (s.modPort p f).port i = if i = p then f (s.port i) else s.port i := by
  unfold State.modPort State.port mmod
  rw [mget_mset]
  split <;> simp_all

/-- A read of the updated unit. -/
@[simp] theorem port_modPort_self (s : State) (p : Nat) (f : Port → Port) : (s.modPort p f).port p = f (s.port p) := by
  simp [port_modPort]

/-- A read of another unit. -/
@[simp] theorem port_modPort_ne (s : State) (p : Nat) (f : Port → Port) {i : Nat} (h : i ≠ p) : (s.modPort p f).port i = s.port i := by
  simp [port_modPort, h]

/-- Two updates of one unit are one. -/
@[simp] theorem modPort_modPort (s : State) (p : Nat) (f : Port → Port) (g : Port → Port) :
    (s.modPort p f).modPort p g = s.modPort p fun x => g (f x) := by
  simp [State.modPort]

/-- An update counts only through what it makes of the unit as it stands. -/
theorem modPort_congr (s : State) (p : Nat) (f : Port → Port) (g : Port → Port) (h : f (s.port p) = g (s.port p)) :
    s.modPort p f = s.modPort p g := by
  unfold State.modPort mmod
  unfold State.port at h
  rw [h]

@[simp] theorem modPort_cycle (s : State) (p : Nat) (f : Port → Port) : (s.modPort p f).cycle = s.cycle := rfl
@[simp] theorem modPort_pending (s : State) (p : Nat) (f : Port → Port) : (s.modPort p f).pending = s.pending := rfl
@[simp] theorem modPort_fresh (s : State) (p : Nat) (f : Port → Port) : (s.modPort p f).fresh = s.fresh := rfl
@[simp] theorem modPort_mem (s : State) (p : Nat) (f : Port → Port) : (s.modPort p f).mem = s.mem := rfl
@[simp] theorem modPort_marks (s : State) (p : Nat) (f : Port → Port) : (s.modPort p f).marks = s.marks := rfl
@[simp] theorem modPort_errs (s : State) (p : Nat) (f : Port → Port) : (s.modPort p f).errs = s.errs := rfl
@[simp] theorem modPort_metaErrs (s : State) (p : Nat) (f : Port → Port) : (s.modPort p f).metaErrs = s.metaErrs := rfl
@[simp] theorem modPort_sramErrs (s : State) (p : Nat) (f : Port → Port) : (s.modPort p f).sramErrs = s.sramErrs := rfl
@[simp] theorem modPort_acc (s : State) (p : Nat) (f : Port → Port) : (s.modPort p f).acc = s.acc := rfl
@[simp] theorem modPort_cores (s : State) (p : Nat) (f : Port → Port) : (s.modPort p f).cores = s.cores := rfl
@[simp] theorem modPort_workCtrs (s : State) (p : Nat) (f : Port → Port) : (s.modPort p f).workCtrs = s.workCtrs := rfl
@[simp] theorem modPort_barriers (s : State) (p : Nat) (f : Port → Port) : (s.modPort p f).barriers = s.barriers := rfl
@[simp] theorem modPort_vaults (s : State) (p : Nat) (f : Port → Port) : (s.modPort p f).vaults = s.vaults := rfl
@[simp] theorem modPort_teasels (s : State) (p : Nat) (f : Port → Port) : (s.modPort p f).teasels = s.teasels := rfl
@[simp] theorem modPort_tierTmo (s : State) (p : Nat) (f : Port → Port) : (s.modPort p f).tierTmo = s.tierTmo := rfl
@[simp] theorem modPort_job (s : State) (p : Nat) (f : Port → Port) : (s.modPort p f).job = s.job := rfl
@[simp] theorem modPort_batches (s : State) (p : Nat) (f : Port → Port) : (s.modPort p f).batches = s.batches := rfl
@[simp] theorem modPort_accepted (s : State) (p : Nat) (f : Port → Port) : (s.modPort p f).accepted = s.accepted := rfl
@[simp] theorem modPort_lookups (s : State) (p : Nat) (f : Port → Port) : (s.modPort p f).lookups = s.lookups := rfl
@[simp] theorem modPort_lookupQueue (s : State) (p : Nat) (f : Port → Port) : (s.modPort p f).lookupQueue = s.lookupQueue := rfl
@[simp] theorem modPort_counts (s : State) (p : Nat) (f : Port → Port) : (s.modPort p f).counts = s.counts := rfl
@[simp] theorem modPort_payloads (s : State) (p : Nat) (f : Port → Port) : (s.modPort p f).payloads = s.payloads := rfl
@[simp] theorem modPort_waitingPayloads (s : State) (p : Nat) (f : Port → Port) : (s.modPort p f).waitingPayloads = s.waitingPayloads := rfl
@[simp] theorem modPort_banks (s : State) (p : Nat) (f : Port → Port) : (s.modPort p f).banks = s.banks := rfl
@[simp] theorem modPort_begun (s : State) (p : Nat) (f : Port → Port) : (s.modPort p f).begun = s.begun := rfl
@[simp] theorem modPort_tierDone (s : State) (p : Nat) (f : Port → Port) : (s.modPort p f).tierDone = s.tierDone := rfl
@[simp] theorem modPort_scales (s : State) (p : Nat) (f : Port → Port) : (s.modPort p f).scales = s.scales := rfl
@[simp] theorem modPort_waitingGrads (s : State) (p : Nat) (f : Port → Port) : (s.modPort p f).waitingGrads = s.waitingGrads := rfl
@[simp] theorem modPort_waitingFolds (s : State) (p : Nat) (f : Port → Port) : (s.modPort p f).waitingFolds = s.waitingFolds := rfl
@[simp] theorem modPort_waitingMarkers (s : State) (p : Nat) (f : Port → Port) : (s.modPort p f).waitingMarkers = s.waitingMarkers := rfl
@[simp] theorem modPort_commitWait (s : State) (p : Nat) (f : Port → Port) : (s.modPort p f).commitWait = s.commitWait := rfl
@[simp] theorem modPort_rowJobs (s : State) (p : Nat) (f : Port → Port) : (s.modPort p f).rowJobs = s.rowJobs := rfl
@[simp] theorem modPort_fetches (s : State) (p : Nat) (f : Port → Port) : (s.modPort p f).fetches = s.fetches := rfl
@[simp] theorem modPort_fetchSeq (s : State) (p : Nat) (f : Port → Port) : (s.modPort p f).fetchSeq = s.fetchSeq := rfl
@[simp] theorem modPort_xops (s : State) (p : Nat) (f : Port → Port) : (s.modPort p f).xops = s.xops := rfl
@[simp] theorem modPort_xwin (s : State) (p : Nat) (f : Port → Port) : (s.modPort p f).xwin = s.xwin := rfl
@[simp] theorem modPort_landings (s : State) (p : Nat) (f : Port → Port) : (s.modPort p f).landings = s.landings := rfl
@[simp] theorem modPort_tagWait (s : State) (p : Nat) (f : Port → Port) : (s.modPort p f).tagWait = s.tagWait := rfl
@[simp] theorem modPort_grants (s : State) (p : Nat) (f : Port → Port) : (s.modPort p f).grants = s.grants := rfl
@[simp] theorem modPort_inbox (s : State) (p : Nat) (f : Port → Port) : (s.modPort p f).inbox = s.inbox := rfl
@[simp] theorem modPort_outWait (s : State) (p : Nat) (f : Port → Port) : (s.modPort p f).outWait = s.outWait := rfl
@[simp] theorem modPort_fabOut (s : State) (p : Nat) (f : Port → Port) : (s.modPort p f).fabOut = s.fabOut := rfl
@[simp] theorem modPort_mirror (s : State) (p : Nat) (f : Port → Port) : (s.modPort p f).mirror = s.mirror := rfl
@[simp] theorem modPort_hports (s : State) (p : Nat) (f : Port → Port) : (s.modPort p f).hports = s.hports := rfl
@[simp] theorem modPort_sessions (s : State) (p : Nat) (f : Port → Port) : (s.modPort p f).sessions = s.sessions := rfl
@[simp] theorem modPort_nextSid (s : State) (p : Nat) (f : Port → Port) : (s.modPort p f).nextSid = s.nextSid := rfl
@[simp] theorem modPort_hostOut (s : State) (p : Nat) (f : Port → Port) : (s.modPort p f).hostOut = s.hostOut := rfl
@[simp] theorem modPort_tierSources (s : State) (p : Nat) (f : Port → Port) : (s.modPort p f).tierSources = s.tierSources := rfl
@[simp] theorem modPort_ckptDest (s : State) (p : Nat) (f : Port → Port) : (s.modPort p f).ckptDest = s.ckptDest := rfl
@[simp] theorem modPort_late (s : State) (p : Nat) (f : Port → Port) : (s.modPort p f).late = s.late := rfl
@[simp] theorem modPort_errRing (s : State) (p : Nat) (f : Port → Port) : (s.modPort p f).errRing = s.errRing := rfl
@[simp] theorem modPort_rseq (s : State) (p : Nat) (f : Port → Port) : (s.modPort p f).rseq = s.rseq := rfl
@[simp] theorem modPort_pages (s : State) (p : Nat) (f : Port → Port) : (s.modPort p f).pages = s.pages := rfl
@[simp] theorem modPort_snaps (s : State) (p : Nat) (f : Port → Port) : (s.modPort p f).snaps = s.snaps := rfl
@[simp] theorem modPort_integ (s : State) (p : Nat) (f : Port → Port) : (s.modPort p f).integ = s.integ := rfl
@[simp] theorem modPort_tns (s : State) (p : Nat) (f : Port → Port) : (s.modPort p f).tns = s.tns := rfl
@[simp] theorem modPort_plt (s : State) (p : Nat) (f : Port → Port) : (s.modPort p f).plt = s.plt := rfl
@[simp] theorem modPort_flash (s : State) (p : Nat) (f : Port → Port) : (s.modPort p f).flash = s.flash := rfl
@[simp] theorem modPort_pins (s : State) (p : Nat) (f : Port → Port) : (s.modPort p f).pins = s.pins := rfl
@[simp] theorem modPort_mgmtOut (s : State) (p : Nat) (f : Port → Port) : (s.modPort p f).mgmtOut = s.mgmtOut := rfl
@[simp] theorem modPort_waitingReset (s : State) (p : Nat) (f : Port → Port) : (s.modPort p f).waitingReset = s.waitingReset := rfl
@[simp] theorem modPort_amap (s : State) (p : Nat) (f : Port → Port) : (s.modPort p f).amap = s.amap := rfl
@[simp] theorem modPort_grade (s : State) (p : Nat) (f : Port → Port) : (s.modPort p f).grade = s.grade := rfl
@[simp] theorem modPort_ptime0 (s : State) (p : Nat) (f : Port → Port) : (s.modPort p f).ptime0 = s.ptime0 := rfl
@[simp] theorem modPort_core_read (s : State) (p : Nat) (f : Port → Port) (i : Nat) : (s.modPort p f).core i = s.core i := rfl
@[simp] theorem modPort_vault_read (s : State) (p : Nat) (f : Port → Port) (i : Nat) : (s.modPort p f).vault i = s.vault i := rfl
@[simp] theorem modPort_teasel_read (s : State) (p : Nat) (f : Port → Port) (i : Nat) : (s.modPort p f).teasel i = s.teasel i := rfl
@[simp] theorem modPort_hport_read (s : State) (p : Nat) (f : Port → Port) (i : Nat) : (s.modPort p f).hport i = s.hport i := rfl
@[simp] theorem modPort_page_read (s : State) (p : Nat) (f : Port → Port) (i : Nat) : (s.modPort p f).page i = s.page i := rfl
@[simp] theorem modPort_live (s : State) (p : Nat) (f : Port → Port) : (s.modPort p f).live = s.live := rfl
@[simp] theorem modPort_clocked (s : State) (p : Nat) (f : Port → Port) : (s.modPort p f).clocked = s.clocked := rfl
@[simp] theorem modPort_stopped (s : State) (p : Nat) (f : Port → Port) : (s.modPort p f).stopped = s.stopped := rfl

/-! ### modHport -/

/-- A read of a unit after an update. -/
theorem hport_modHport (s : State) (p : Nat) (f : HostPort → HostPort) (i : Nat) :
    (s.modHport p f).hport i = if i = p then f (s.hport i) else s.hport i := by
  unfold State.modHport State.hport mmod
  rw [mget_mset]
  split <;> simp_all

/-- A read of the updated unit. -/
@[simp] theorem hport_modHport_self (s : State) (p : Nat) (f : HostPort → HostPort) : (s.modHport p f).hport p = f (s.hport p) := by
  simp [hport_modHport]

/-- A read of another unit. -/
@[simp] theorem hport_modHport_ne (s : State) (p : Nat) (f : HostPort → HostPort) {i : Nat} (h : i ≠ p) : (s.modHport p f).hport i = s.hport i := by
  simp [hport_modHport, h]

/-- Two updates of one unit are one. -/
@[simp] theorem modHport_modHport (s : State) (p : Nat) (f : HostPort → HostPort) (g : HostPort → HostPort) :
    (s.modHport p f).modHport p g = s.modHport p fun x => g (f x) := by
  simp [State.modHport]

/-- An update counts only through what it makes of the unit as it stands. -/
theorem modHport_congr (s : State) (p : Nat) (f : HostPort → HostPort) (g : HostPort → HostPort) (h : f (s.hport p) = g (s.hport p)) :
    s.modHport p f = s.modHport p g := by
  unfold State.modHport mmod
  unfold State.hport at h
  rw [h]

@[simp] theorem modHport_cycle (s : State) (p : Nat) (f : HostPort → HostPort) : (s.modHport p f).cycle = s.cycle := rfl
@[simp] theorem modHport_pending (s : State) (p : Nat) (f : HostPort → HostPort) : (s.modHport p f).pending = s.pending := rfl
@[simp] theorem modHport_fresh (s : State) (p : Nat) (f : HostPort → HostPort) : (s.modHport p f).fresh = s.fresh := rfl
@[simp] theorem modHport_mem (s : State) (p : Nat) (f : HostPort → HostPort) : (s.modHport p f).mem = s.mem := rfl
@[simp] theorem modHport_marks (s : State) (p : Nat) (f : HostPort → HostPort) : (s.modHport p f).marks = s.marks := rfl
@[simp] theorem modHport_acc (s : State) (p : Nat) (f : HostPort → HostPort) : (s.modHport p f).acc = s.acc := rfl
@[simp] theorem modHport_cores (s : State) (p : Nat) (f : HostPort → HostPort) : (s.modHport p f).cores = s.cores := rfl
@[simp] theorem modHport_vaults (s : State) (p : Nat) (f : HostPort → HostPort) : (s.modHport p f).vaults = s.vaults := rfl
@[simp] theorem modHport_job (s : State) (p : Nat) (f : HostPort → HostPort) : (s.modHport p f).job = s.job := rfl
@[simp] theorem modHport_ports (s : State) (p : Nat) (f : HostPort → HostPort) : (s.modHport p f).ports = s.ports := rfl
@[simp] theorem modHport_fabOut (s : State) (p : Nat) (f : HostPort → HostPort) : (s.modHport p f).fabOut = s.fabOut := rfl
@[simp] theorem modHport_sessions (s : State) (p : Nat) (f : HostPort → HostPort) : (s.modHport p f).sessions = s.sessions := rfl
@[simp] theorem modHport_hostOut (s : State) (p : Nat) (f : HostPort → HostPort) : (s.modHport p f).hostOut = s.hostOut := rfl
@[simp] theorem modHport_errRing (s : State) (p : Nat) (f : HostPort → HostPort) : (s.modHport p f).errRing = s.errRing := rfl
@[simp] theorem modHport_rseq (s : State) (p : Nat) (f : HostPort → HostPort) : (s.modHport p f).rseq = s.rseq := rfl
@[simp] theorem modHport_integ (s : State) (p : Nat) (f : HostPort → HostPort) : (s.modHport p f).integ = s.integ := rfl
@[simp] theorem modHport_tns (s : State) (p : Nat) (f : HostPort → HostPort) : (s.modHport p f).tns = s.tns := rfl
@[simp] theorem modHport_plt (s : State) (p : Nat) (f : HostPort → HostPort) : (s.modHport p f).plt = s.plt := rfl
@[simp] theorem modHport_pins (s : State) (p : Nat) (f : HostPort → HostPort) : (s.modHport p f).pins = s.pins := rfl
@[simp] theorem modHport_core_read (s : State) (p : Nat) (f : HostPort → HostPort) (i : Nat) : (s.modHport p f).core i = s.core i := rfl
@[simp] theorem modHport_vault_read (s : State) (p : Nat) (f : HostPort → HostPort) (i : Nat) : (s.modHport p f).vault i = s.vault i := rfl
@[simp] theorem modHport_teasel_read (s : State) (p : Nat) (f : HostPort → HostPort) (i : Nat) : (s.modHport p f).teasel i = s.teasel i := rfl
@[simp] theorem modHport_port_read (s : State) (p : Nat) (f : HostPort → HostPort) (i : Nat) : (s.modHport p f).port i = s.port i := rfl
@[simp] theorem modHport_page_read (s : State) (p : Nat) (f : HostPort → HostPort) (i : Nat) : (s.modHport p f).page i = s.page i := rfl
@[simp] theorem modHport_live (s : State) (p : Nat) (f : HostPort → HostPort) : (s.modHport p f).live = s.live := rfl
@[simp] theorem modHport_clocked (s : State) (p : Nat) (f : HostPort → HostPort) : (s.modHport p f).clocked = s.clocked := rfl
@[simp] theorem modHport_stopped (s : State) (p : Nat) (f : HostPort → HostPort) : (s.modHport p f).stopped = s.stopped := rfl

/-! ### modPage -/

/-- A read of a unit after an update. -/
theorem page_modPage (s : State) (p : Nat) (f : Page → Page) (i : Nat) :
    (s.modPage p f).page i = if i = p then f (s.page i) else s.page i := by
  unfold State.modPage State.page mmod
  rw [mget_mset]
  split <;> simp_all

/-- A read of the updated unit. -/
@[simp] theorem page_modPage_self (s : State) (p : Nat) (f : Page → Page) : (s.modPage p f).page p = f (s.page p) := by
  simp [page_modPage]

/-- A read of another unit. -/
@[simp] theorem page_modPage_ne (s : State) (p : Nat) (f : Page → Page) {i : Nat} (h : i ≠ p) : (s.modPage p f).page i = s.page i := by
  simp [page_modPage, h]

/-- Two updates of one unit are one. -/
@[simp] theorem modPage_modPage (s : State) (p : Nat) (f : Page → Page) (g : Page → Page) :
    (s.modPage p f).modPage p g = s.modPage p fun x => g (f x) := by
  simp [State.modPage]

/-- An update counts only through what it makes of the unit as it stands. -/
theorem modPage_congr (s : State) (p : Nat) (f : Page → Page) (g : Page → Page) (h : f (s.page p) = g (s.page p)) :
    s.modPage p f = s.modPage p g := by
  unfold State.modPage mmod
  unfold State.page at h
  rw [h]

@[simp] theorem modPage_cycle (s : State) (p : Nat) (f : Page → Page) : (s.modPage p f).cycle = s.cycle := rfl
@[simp] theorem modPage_pending (s : State) (p : Nat) (f : Page → Page) : (s.modPage p f).pending = s.pending := rfl
@[simp] theorem modPage_fresh (s : State) (p : Nat) (f : Page → Page) : (s.modPage p f).fresh = s.fresh := rfl
@[simp] theorem modPage_mem (s : State) (p : Nat) (f : Page → Page) : (s.modPage p f).mem = s.mem := rfl
@[simp] theorem modPage_marks (s : State) (p : Nat) (f : Page → Page) : (s.modPage p f).marks = s.marks := rfl
@[simp] theorem modPage_acc (s : State) (p : Nat) (f : Page → Page) : (s.modPage p f).acc = s.acc := rfl
@[simp] theorem modPage_cores (s : State) (p : Nat) (f : Page → Page) : (s.modPage p f).cores = s.cores := rfl
@[simp] theorem modPage_vaults (s : State) (p : Nat) (f : Page → Page) : (s.modPage p f).vaults = s.vaults := rfl
@[simp] theorem modPage_job (s : State) (p : Nat) (f : Page → Page) : (s.modPage p f).job = s.job := rfl
@[simp] theorem modPage_ports (s : State) (p : Nat) (f : Page → Page) : (s.modPage p f).ports = s.ports := rfl
@[simp] theorem modPage_fabOut (s : State) (p : Nat) (f : Page → Page) : (s.modPage p f).fabOut = s.fabOut := rfl
@[simp] theorem modPage_sessions (s : State) (p : Nat) (f : Page → Page) : (s.modPage p f).sessions = s.sessions := rfl
@[simp] theorem modPage_hostOut (s : State) (p : Nat) (f : Page → Page) : (s.modPage p f).hostOut = s.hostOut := rfl
@[simp] theorem modPage_errRing (s : State) (p : Nat) (f : Page → Page) : (s.modPage p f).errRing = s.errRing := rfl
@[simp] theorem modPage_rseq (s : State) (p : Nat) (f : Page → Page) : (s.modPage p f).rseq = s.rseq := rfl
@[simp] theorem modPage_integ (s : State) (p : Nat) (f : Page → Page) : (s.modPage p f).integ = s.integ := rfl
@[simp] theorem modPage_tns (s : State) (p : Nat) (f : Page → Page) : (s.modPage p f).tns = s.tns := rfl
@[simp] theorem modPage_plt (s : State) (p : Nat) (f : Page → Page) : (s.modPage p f).plt = s.plt := rfl
@[simp] theorem modPage_pins (s : State) (p : Nat) (f : Page → Page) : (s.modPage p f).pins = s.pins := rfl
@[simp] theorem modPage_core_read (s : State) (p : Nat) (f : Page → Page) (i : Nat) : (s.modPage p f).core i = s.core i := rfl
@[simp] theorem modPage_vault_read (s : State) (p : Nat) (f : Page → Page) (i : Nat) : (s.modPage p f).vault i = s.vault i := rfl
@[simp] theorem modPage_teasel_read (s : State) (p : Nat) (f : Page → Page) (i : Nat) : (s.modPage p f).teasel i = s.teasel i := rfl
@[simp] theorem modPage_port_read (s : State) (p : Nat) (f : Page → Page) (i : Nat) : (s.modPage p f).port i = s.port i := rfl
@[simp] theorem modPage_hport_read (s : State) (p : Nat) (f : Page → Page) (i : Nat) : (s.modPage p f).hport i = s.hport i := rfl
@[simp] theorem modPage_live (s : State) (p : Nat) (f : Page → Page) : (s.modPage p f).live = s.live := rfl
@[simp] theorem modPage_clocked (s : State) (p : Nat) (f : Page → Page) : (s.modPage p f).clocked = s.clocked := rfl
@[simp] theorem modPage_stopped (s : State) (p : Nat) (f : Page → Page) : (s.modPage p f).stopped = s.stopped := rfl

/-! ### Records -/

@[simp] theorem emit_cycle (s : State) (i : RecInfo) : (s.emit i).cycle = s.cycle := rfl
@[simp] theorem emit_pending (s : State) (i : RecInfo) : (s.emit i).pending = s.pending := rfl
@[simp] theorem emit_mem (s : State) (i : RecInfo) : (s.emit i).mem = s.mem := rfl
@[simp] theorem emit_marks (s : State) (i : RecInfo) : (s.emit i).marks = s.marks := rfl
@[simp] theorem emit_errs (s : State) (i : RecInfo) : (s.emit i).errs = s.errs := rfl
@[simp] theorem emit_metaErrs (s : State) (i : RecInfo) : (s.emit i).metaErrs = s.metaErrs := rfl
@[simp] theorem emit_sramErrs (s : State) (i : RecInfo) : (s.emit i).sramErrs = s.sramErrs := rfl
@[simp] theorem emit_acc (s : State) (i : RecInfo) : (s.emit i).acc = s.acc := rfl
@[simp] theorem emit_cores (s : State) (i : RecInfo) : (s.emit i).cores = s.cores := rfl
@[simp] theorem emit_workCtrs (s : State) (i : RecInfo) : (s.emit i).workCtrs = s.workCtrs := rfl
@[simp] theorem emit_barriers (s : State) (i : RecInfo) : (s.emit i).barriers = s.barriers := rfl
@[simp] theorem emit_vaults (s : State) (i : RecInfo) : (s.emit i).vaults = s.vaults := rfl
@[simp] theorem emit_teasels (s : State) (i : RecInfo) : (s.emit i).teasels = s.teasels := rfl
@[simp] theorem emit_tierTmo (s : State) (i : RecInfo) : (s.emit i).tierTmo = s.tierTmo := rfl
@[simp] theorem emit_job (s : State) (i : RecInfo) : (s.emit i).job = s.job := rfl
@[simp] theorem emit_batches (s : State) (i : RecInfo) : (s.emit i).batches = s.batches := rfl
@[simp] theorem emit_accepted (s : State) (i : RecInfo) : (s.emit i).accepted = s.accepted := rfl
@[simp] theorem emit_lookups (s : State) (i : RecInfo) : (s.emit i).lookups = s.lookups := rfl
@[simp] theorem emit_lookupQueue (s : State) (i : RecInfo) : (s.emit i).lookupQueue = s.lookupQueue := rfl
@[simp] theorem emit_counts (s : State) (i : RecInfo) : (s.emit i).counts = s.counts := rfl
@[simp] theorem emit_payloads (s : State) (i : RecInfo) : (s.emit i).payloads = s.payloads := rfl
@[simp] theorem emit_waitingPayloads (s : State) (i : RecInfo) : (s.emit i).waitingPayloads = s.waitingPayloads := rfl
@[simp] theorem emit_banks (s : State) (i : RecInfo) : (s.emit i).banks = s.banks := rfl
@[simp] theorem emit_begun (s : State) (i : RecInfo) : (s.emit i).begun = s.begun := rfl
@[simp] theorem emit_tierDone (s : State) (i : RecInfo) : (s.emit i).tierDone = s.tierDone := rfl
@[simp] theorem emit_scales (s : State) (i : RecInfo) : (s.emit i).scales = s.scales := rfl
@[simp] theorem emit_waitingGrads (s : State) (i : RecInfo) : (s.emit i).waitingGrads = s.waitingGrads := rfl
@[simp] theorem emit_waitingFolds (s : State) (i : RecInfo) : (s.emit i).waitingFolds = s.waitingFolds := rfl
@[simp] theorem emit_waitingMarkers (s : State) (i : RecInfo) : (s.emit i).waitingMarkers = s.waitingMarkers := rfl
@[simp] theorem emit_commitWait (s : State) (i : RecInfo) : (s.emit i).commitWait = s.commitWait := rfl
@[simp] theorem emit_rowJobs (s : State) (i : RecInfo) : (s.emit i).rowJobs = s.rowJobs := rfl
@[simp] theorem emit_fetches (s : State) (i : RecInfo) : (s.emit i).fetches = s.fetches := rfl
@[simp] theorem emit_fetchSeq (s : State) (i : RecInfo) : (s.emit i).fetchSeq = s.fetchSeq := rfl
@[simp] theorem emit_xops (s : State) (i : RecInfo) : (s.emit i).xops = s.xops := rfl
@[simp] theorem emit_xwin (s : State) (i : RecInfo) : (s.emit i).xwin = s.xwin := rfl
@[simp] theorem emit_landings (s : State) (i : RecInfo) : (s.emit i).landings = s.landings := rfl
@[simp] theorem emit_tagWait (s : State) (i : RecInfo) : (s.emit i).tagWait = s.tagWait := rfl
@[simp] theorem emit_grants (s : State) (i : RecInfo) : (s.emit i).grants = s.grants := rfl
@[simp] theorem emit_inbox (s : State) (i : RecInfo) : (s.emit i).inbox = s.inbox := rfl
@[simp] theorem emit_outWait (s : State) (i : RecInfo) : (s.emit i).outWait = s.outWait := rfl
@[simp] theorem emit_ports (s : State) (i : RecInfo) : (s.emit i).ports = s.ports := rfl
@[simp] theorem emit_fabOut (s : State) (i : RecInfo) : (s.emit i).fabOut = s.fabOut := rfl
@[simp] theorem emit_mirror (s : State) (i : RecInfo) : (s.emit i).mirror = s.mirror := rfl
@[simp] theorem emit_hports (s : State) (i : RecInfo) : (s.emit i).hports = s.hports := rfl
@[simp] theorem emit_sessions (s : State) (i : RecInfo) : (s.emit i).sessions = s.sessions := rfl
@[simp] theorem emit_nextSid (s : State) (i : RecInfo) : (s.emit i).nextSid = s.nextSid := rfl
@[simp] theorem emit_hostOut (s : State) (i : RecInfo) : (s.emit i).hostOut = s.hostOut := rfl
@[simp] theorem emit_tierSources (s : State) (i : RecInfo) : (s.emit i).tierSources = s.tierSources := rfl
@[simp] theorem emit_ckptDest (s : State) (i : RecInfo) : (s.emit i).ckptDest = s.ckptDest := rfl
@[simp] theorem emit_late (s : State) (i : RecInfo) : (s.emit i).late = s.late := rfl
@[simp] theorem emit_pages (s : State) (i : RecInfo) : (s.emit i).pages = s.pages := rfl
@[simp] theorem emit_snaps (s : State) (i : RecInfo) : (s.emit i).snaps = s.snaps := rfl
@[simp] theorem emit_integ (s : State) (i : RecInfo) : (s.emit i).integ = s.integ := rfl
@[simp] theorem emit_tns (s : State) (i : RecInfo) : (s.emit i).tns = s.tns := rfl
@[simp] theorem emit_plt (s : State) (i : RecInfo) : (s.emit i).plt = s.plt := rfl
@[simp] theorem emit_flash (s : State) (i : RecInfo) : (s.emit i).flash = s.flash := rfl
@[simp] theorem emit_pins (s : State) (i : RecInfo) : (s.emit i).pins = s.pins := rfl
@[simp] theorem emit_mgmtOut (s : State) (i : RecInfo) : (s.emit i).mgmtOut = s.mgmtOut := rfl
@[simp] theorem emit_waitingReset (s : State) (i : RecInfo) : (s.emit i).waitingReset = s.waitingReset := rfl
@[simp] theorem emit_amap (s : State) (i : RecInfo) : (s.emit i).amap = s.amap := rfl
@[simp] theorem emit_grade (s : State) (i : RecInfo) : (s.emit i).grade = s.grade := rfl
@[simp] theorem emit_ptime0 (s : State) (i : RecInfo) : (s.emit i).ptime0 = s.ptime0 := rfl

/-- A record enters the error ring. -/
@[simp] theorem emit_errRing (s : State) (i : RecInfo) : (s.emit i).errRing = s.errRing ++ [s.record i] := rfl
/-- A record takes the next number. -/
@[simp] theorem emit_rseq (s : State) (i : RecInfo) : (s.emit i).rseq = s.rseq + 1 := rfl
@[simp] theorem emit_core (s : State) (i : RecInfo) (c : Nat) : (s.emit i).core c = s.core c := rfl
@[simp] theorem emit_vault (s : State) (i : RecInfo) (c : Nat) : (s.emit i).vault c = s.vault c := rfl
@[simp] theorem emit_port (s : State) (i : RecInfo) (c : Nat) : (s.emit i).port c = s.port c := rfl

/-! ### Registers of a core -/

/-- s0 reads as zero in every state (R145). -/
@[simp] theorem sreg_zero (k : Core) : k.sreg 0 = 0 := by simp [Core.sreg]
/-- A write of s0 is discarded (R145). -/
@[simp] theorem setSreg_zero (k : Core) (x : Word) : k.setSreg 0 x = k := by simp [Core.setSreg]
/-- A scalar register after a write. -/
theorem sreg_setSreg (k : Core) (r q : BitVec 5) (x : Word) :
    (k.setSreg r x).sreg q = if q = r ∧ r ≠ 0 then x else k.sreg q := by
  unfold Core.setSreg Core.sreg
  by_cases hr : r = 0
  · simp [hr]
  · rw [if_neg hr]
    by_cases hq : q = r
    · subst hq
      rw [if_neg hr, if_pos ⟨rfl, hr⟩]
      exact mget_mset_self _ _ _ _
    · have : q.toNat ≠ r.toNat := fun h => hq (BitVec.eq_of_toNat_eq h)
      rw [if_neg (c := q = r ∧ r ≠ 0) (fun h => hq h.1)]
      simp only [mget_mset_ne _ _ _ this]
/-- A vector register after a write. -/
theorem vreg_setVreg (k : Core) (r q : BitVec 5) (x : List Lane) :
    (k.setVreg r x).vreg q = if q = r then x else k.vreg q := by
  unfold Core.setVreg Core.vreg
  by_cases hq : q = r
  · simp [hq]
  · have : q.toNat ≠ r.toNat := fun h => hq (BitVec.eq_of_toNat_eq h)
    simp [hq, mget_mset_ne _ _ _ this]
/-- A token counter after a write. -/
theorem token_setToken (k : Core) (t u : Nat) (x : BitVec 32) :
    (k.setToken t x).token u = if u = t then x else k.token u := by
  simp [Core.setToken, Core.token, mget_mset]

end Sys2Proof.Machine
end

