-- ==== Sys2Proof/Laws/Memory.lean ====
section
/-!
SUPPORT. Laws of the byte memory: a read after a write, and that every memory operation keeps the canonical form.
-/

namespace Sys2Proof.Machine

/-! ### Bytes after a write -/

theorem foldl_mset_outside (bs : List (Byte × Nat)) (m : SMap Byte) (a j : Nat) (h : ∀ e ∈ bs, j ≠ a + e.2) :
    mget 0 (bs.foldl (fun m e => mset 0 m (a + e.2) e.1) m) j = mget 0 m j := by
  induction bs generalizing m with
  | nil => rfl
  | cons e bs ih =>
    rw [List.foldl_cons, ih _ (fun x hx => h x (List.mem_cons_of_mem _ hx)), mget_mset_ne _ _ _ (h e (by simp))]

/-- A byte outside the written range reads as before. -/
theorem memSet_outside (m : SMap Byte) (a : Nat) (bs : List Byte) (j : Nat) (h : j < a ∨ a + bs.length ≤ j) :
    mget 0 (memSet m a bs) j = mget 0 m j := by
  refine foldl_mset_outside bs.zipIdx m a j ?_
  rintro ⟨b, i⟩ he
  have := List.mem_zipIdx he
  simp only at this ⊢
  omega

theorem foldl_mset_zip (bs : List Byte) (m : SMap Byte) (a n i : Nat) (h : i < bs.length) :
    mget 0 ((bs.zipIdx n).foldl (fun m e => mset 0 m (a + e.2) e.1) m) (a + n + i) = bs[i] := by
  induction bs generalizing m n i with
  | nil => simp at h
  | cons b bs ih =>
    rw [List.zipIdx_cons, List.foldl_cons]
    cases i with
    | zero =>
      rw [foldl_mset_outside]
      · simp
      · rintro ⟨x, j⟩ he
        have := List.mem_zipIdx he
        simp only at this ⊢
        omega
    | succ i =>
      have := ih (mset 0 m (a + n) b) (n + 1) i (by simpa using h)
      simpa [Nat.add_assoc, Nat.add_comm, Nat.add_left_comm] using this

/-- A byte of the written range reads as written. -/
theorem memSet_inside (m : SMap Byte) (a : Nat) (bs : List Byte) (i : Nat) (h : i < bs.length) :
    mget 0 (memSet m a bs) (a + i) = bs[i] := by
  have := foldl_mset_zip bs m a 0 i h
  rwa [Nat.add_zero] at this

/-! ### The canonical form -/

theorem foldl_mset_wf (bs : List (Byte × Nat)) (m : SMap Byte) (a : Nat) (h : Memory.wf m = true) :
    Memory.wf (bs.foldl (fun m e => mset 0 m (a + e.2) e.1) m) = true := by
  induction bs generalizing m with
  | nil => exact h
  | cons e bs ih => exact ih _ (mset_wf 0 m _ _ h)

/-- A write of bytes keeps the canonical form. -/
theorem memSet_wf (m : SMap Byte) (a : Nat) (bs : List Byte) (h : Memory.wf m = true) : Memory.wf (memSet m a bs) = true :=
  foldl_mset_wf _ m a h

/-- A fold of operations that keep the canonical form keeps it. -/
theorem foldl_wf {β : Type} (f : State → β → State) (hf : ∀ s x, Memory.wf s.mem = true → Memory.wf (f s x).mem = true)
    (l : List β) (s : State) (h : Memory.wf s.mem = true) : Memory.wf (l.foldl f s).mem = true := by
  induction l generalizing s with
  | nil => exact h
  | cons x l ih => exact ih _ (hf s x h)

/-- A fold of operations that leave the memory leaves it. -/
theorem foldl_mem {β : Type} (f : State → β → State) (hf : ∀ s x, (f s x).mem = s.mem) (l : List β) (s : State) :
    (l.foldl f s).mem = s.mem := by
  induction l generalizing s with
  | nil => rfl
  | cons x l ih => rw [List.foldl_cons, ih, hf]

theorem writeP_wf (s : State) (a : Nat) (bs : List PByte) (h : Memory.wf s.mem = true) : Memory.wf (writeP s a bs).mem = true :=
  memSet_wf _ _ _ h

@[simp] theorem noteEvent_mem (s : State) (k : Nat) (u : BitVec 16) (c l : Nat) : (s.noteEvent k u c l).mem = s.mem := by
  unfold State.noteEvent; simp only; split <;> rfl

@[simp] theorem flushDetections_mem (s : State) (v : Nat) : (flushDetections s v).mem = s.mem := by
  unfold flushDetections; simp only; split <;> simp

@[simp] theorem detectAt_mem (s : State) (v d a c : Nat) : (detectAt s v d a c).mem = s.mem := by
  unfold detectAt; simp only; split <;> split <;> simp

@[simp] theorem detect_mem (s : State) (a c : Nat) : (detect s a c).mem = s.mem := detectAt_mem _ _ _ _ _

/-- Flips in a word of an on-die SRAM keep the canonical form. -/
theorem sramFlip_wf (s : State) (k : Nat) (e : BitVec 72) (h : Memory.wf s.mem = true) : Memory.wf (sramFlip s k e).mem = true := by
  unfold sramFlip
  extract_lets data t
  split
  · exact memSet_wf _ _ _ h
  · split <;> exact h

/-- A read of a word of an on-die SRAM keeps the canonical form. -/
theorem sramRead_wf (s : State) (k : Nat) (h : Memory.wf s.mem = true) : Memory.wf (sramRead s k).1.mem = true := by
  unfold sramRead
  simp only
  split
  · exact h
  · rw [noteEvent_mem]
    split
    · rw [modVault_mem]; exact sramFlip_wf s k _ h
    · exact sramFlip_wf s k _ h
  · exact h

theorem fetchTile_wf (s : State) (a n : Nat) (h : Memory.wf s.mem = true) : Memory.wf (fetchTile s a n).mem = true := by
  refine foldl_wf _ (fun t w ht => ?_) _ s h
  simp only
  split
  · exact sramRead_wf t w ht
  · exact sramRead_wf t w ht

theorem rewriteGranule_wf (s : State) (g : Nat) (b : List Byte) (m : Bool) (h : Memory.wf s.mem = true) :
    Memory.wf (rewriteGranule s g b m).mem = true := memSet_wf _ _ _ h

/-- A controller's read of a granule keeps the canonical form. -/
theorem readGranule_wf (s : State) (g : Nat) (x y : Disturb) (h : Memory.wf s.mem = true) :
    Memory.wf (readGranule s g x y).mem = true := by
  have hg : ∀ (b : List Byte) (m : Bool), Memory.wf (rewriteGranule s g b m).mem = true := fun b m => rewriteGranule_wf s g b m h
  unfold readGranule
  extract_lets a v stored data unit storedMeta good bad decoded
  have hgood : ∀ d fix r, Memory.wf (good d s fix r).mem = true := by
    intro d fix r
    dsimp only [good]
    split
    · rw [noteEvent_mem, modVault_mem]; exact hg _ _
    · rw [modVault_mem]; exact hg _ _
  have hbad : ∀ d, Memory.wf (bad d s).mem = true := by
    intro d
    dsimp only [bad]
    rw [detect_mem, modVault_mem]
    exact hg _ _
  repeat' split
  all_goals first
    | exact h
    | exact hgood _ _ _
    | exact hbad _

theorem fetchRange_wf (s : State) (a n : Nat) (h : Memory.wf s.mem = true) : Memory.wf (fetchRange s a n).mem = true :=
  fetchTile_wf _ _ _ (foldl_wf _ (fun t g => readGranule_wf t g _ _) _ s h)

@[simp] theorem clearErrors_mem (s : State) (g : Nat) : (clearErrors s g).mem = s.mem := rfl

theorem copyBefore_wf (s : State) (p : Nat) (h : Memory.wf s.mem = true) : Memory.wf (copyBefore s p).mem = true := by
  unfold copyBefore
  simp only
  split
  · exact fetchRange_wf s _ _ h
  · exact h

@[simp] theorem setDirty_mem (s : State) (a n : Nat) : (setDirty s a n).mem = s.mem := rfl

@[simp] theorem injectAt_mem (s : State) (g : Nat) : (injectAt s g).mem = s.mem := by
  unfold injectAt; simp only; (repeat' split) <;> simp

theorem writeDram_wf (s : State) (a : Nat) (bs : List PByte) (h : Memory.wf s.mem = true) :
    Memory.wf (writeDram s a bs).mem = true := by
  unfold writeDram
  simp only
  rw [foldl_mem _ (fun t g => injectAt_mem t g), setDirty_mem, foldl_mem _ (fun t g => clearErrors_mem t g)]
  apply writeP_wf
  refine foldl_wf _ (fun t p ht => copyBefore_wf t p ht) _ _ ?_
  refine foldl_wf _ (fun t g ht => ?_) _ s h
  split
  · exact ht
  · exact fetchRange_wf t _ _ ht

/-- A write to the device memory or an on-die store keeps the canonical form. -/
theorem store_wf (s : State) (a : Nat) (bs : List PByte) (h : Memory.wf s.mem = true) : Memory.wf (store s a bs).mem = true := by
  unfold store
  split
  · exact h
  · split
    · exact writeDram_wf s a bs h
    · exact writeP_wf s a bs h

theorem loadBytes_wf (s : State) (a n : Nat) (h : Memory.wf s.mem = true) : Memory.wf (loadBytes s a n).1.mem = true :=
  fetchRange_wf s a n h

theorem storeN_wf (s : State) (a n x : Nat) (h : Memory.wf s.mem = true) : Memory.wf (storeN s a n x).mem = true :=
  store_wf s a _ h

/-- A write into a tile store, at once or held, keeps the canonical form. -/
theorem tileWrite_wf (s : State) (c q a : Nat) (bs : List PByte) (h : Memory.wf s.mem = true) :
    Memory.wf (tileWrite s c q a bs).mem = true := by
  unfold tileWrite
  simp only
  split
  · exact h
  · split
    · exact h
    · exact writeP_wf s a bs h

theorem outsideStore_wf (s : State) (a : Nat) (bs : List PByte) (h : Memory.wf s.mem = true) :
    Memory.wf (outsideStore s a bs).mem = true := by
  unfold outsideStore
  split
  · exact tileWrite_wf s _ _ a bs h
  · exact store_wf s a bs h

theorem drainHeld_wf (n : Nat) (s : State) (c : Nat) (h : Memory.wf s.mem = true) : Memory.wf (drainHeld n s c).mem = true := by
  induction n generalizing s with
  | zero => exact h
  | succ n ih =>
    unfold drainHeld
    split
    · exact h
    · split
      · exact h
      · exact ih _ (writeP_wf _ _ _ h)

theorem drain_wf (s : State) (c : Nat) (h : Memory.wf s.mem = true) : Memory.wf (s.drain c).mem = true := drainHeld_wf _ s c h

/-! ### Reads where no error stands -/

/-- Operations that leave a state leave it together. -/
theorem foldl_const {α β : Type} (f : β → α → β) (l : List α) (s : β) (h : ∀ x ∈ l, f s x = s) : l.foldl f s = s := by
  induction l with
  | nil => rfl
  | cons x l ih => rw [List.foldl_cons, h x (by simp)]; exact ih fun y hy => h y (by simp [hy])

/-- A read of a range in which no error stands changes nothing (R193, R197). -/
theorem fetchRange_quiet (s : State) (a n : Nat) (h1 : s.errs = []) (h2 : s.metaErrs = []) (h3 : s.sramErrs = []) :
    fetchRange s a n = s := by
  simp [fetchRange, fetchTile, h1, h2, h3]

/-- A read of a word in which no flip stands changes nothing (R197). -/
theorem sramRead_quiet (s : State) (k : Nat) (h : s.sramErrs = []) : sramRead s k = (s, false) := by
  have hs : secded (mget 0 s.sramErrs k) = .clean := by rw [h]; rfl
  unfold sramRead
  simp only [hs]

/-- Nor does one of entries whose residues and parities are right (R82). -/
theorem readEntries_quiet (s : State) (ph n m : Nat) (h : s.sramErrs = []) (ha : ∀ i, entryOk (s.entry ph i) = true) :
    readEntries s ph n m = s :=
  foldl_const _ _ _ fun i _ => by simp [readEntry, sramRead_quiet s _ h, ha]

end Sys2Proof.Machine
end

