-- ==== Sys2Proof/Laws/Issue.lean ====
section
/-!
SUPPORT. What the issue of a bundle can do, said once (R135, R173): with no cause it issues or holds, with a cause it halts its core.
-/

namespace Sys2Proof.Machine

/-- A command that is a bundle operation is the issue of its bundle. -/
theorem op_issue (s : State) (i : Instr) (c : CoreId) (b : Bundle) (hb : opBundle i = some (c, b)) :
    exec i s = .next (issueBundle c b false s) := by
  cases i <;> first | (cases hb; done) | (injection hb with hb; injection hb with h1 h2; subst h1 h2; rfl)

/-- A bundle that issues at once takes its effect (R135); TESTWIN and BAR have effects of their own, and a gather reads its descriptor. -/
theorem issues_effect (s : State) (c : Nat) (b : Bundle) (h : IssuesNow s c b) (ht : b.scalar.op ≠ 0x17) (hb : b.sync.op ≠ 3)
    (hm : b.move.op ≠ 3) :
    issueBundle c b false s = bundleEffect c b s := by
  obtain ⟨h1, h2, h3, h4, h5⟩ := h
  unfold issueBundle
  simp only [h1, hm, h2, Bool.not_true, Bool.false_eq_true, and_false, if_false]
  unfold issueOrHold
  rw [if_neg ht, if_neg hb]
  simp only [h3, h4, h5, Bool.or_self, Bool.false_eq_true, if_false]

/-- A core that does not look at a bundle keeps its state (R135). -/
theorem issue_not_looking (s : State) (c : Nat) (b : Bundle) (bad : Bool) (h : canLook s c = false) :
    issueBundle c b bad s = s := by
  simp [issueBundle, h]

/-- What an issue without branch does beside its slots (R135). -/
theorem advance_none (s : State) (c : Nat) : advance c none s = s.modCore c (·.retire s.cycle) := rfl

/-- The SB operand of a scalar operation (R146). -/
@[simp] theorem sb_append (sb : BitVec 5) : (sb ++ 0#20).extractLsb' 20 5 = sb := by
  revert sb; decide

/-- The effect of a bundle of one scalar operation other than TRAP and END. -/
theorem scalar_effect (s : State) (c : Nat) (x : ScalarSlot) (h1 : x.op ≠ 0x18) (h2 : x.op ≠ 0x19) :
    bundleEffect c (scalarBundle x) s = advance c (branchTarget (s.core c) x) (scalarApply c (s.core c).pc x s s) := by
  unfold bundleEffect
  dsimp only
  rw [if_neg (show (scalarBundle x).scalar.op ≠ 0x18 from h1), if_neg (show (scalarBundle x).scalar.op ≠ 0x19 from h2)]
  rfl

/-- The effect of a bundle of one vector operation. -/
theorem vector_effect (s : State) (c : Nat) (x : VectorSlot) :
    bundleEffect c (vectorBundle x) s = advance c none (vecApply c (s.core c).pc x s s) := rfl

/-- The effect of a bundle of one matrix operation. -/
theorem matrix_effect (s : State) (c : Nat) (x : MatrixSlot) :
    bundleEffect c (matrixBundle x) s = advance c none (passApply c (s.core c).pc x s s) := rfl

/-- The effect of a bundle of one move operation. -/
theorem move_effect (s : State) (c : Nat) (x : MoveSlot) :
    bundleEffect c (moveBundle x) s = advance c none (moveApply c (s.core c).pc x s s) := rfl

/-- The effect of a bundle of one sync operation. -/
theorem sync_effect (s : State) (c : Nat) (x : SyncSlot) :
    bundleEffect c (syncBundle x) s = advance c none (syncApply c x s s) := rfl

/-- A write of a scalar register and the issue together change the core alone. -/
theorem scalar_write_retire (s : State) (c : Nat) (sd : BitVec 5) (v : Word) :
    advance c none (s.modCore c fun y => y.setSreg sd v) = s.modCore c fun k => (k.setSreg sd v).retire s.cycle := by
  rw [advance_none, modCore_modCore]; rfl

/-- The reads of a bundle change nothing where no error stands (R82, R193, R197). -/
theorem bundleFetch_quiet (s : State) (c : Nat) (b : Bundle) (h1 : s.errs = []) (h2 : s.metaErrs = []) (h3 : s.sramErrs = [])
    (ha : ∀ ph i, entryOk (s.entry ph i) = true) : bundleFetch c b s = s := by
  have hf : ∀ l : List (Nat × Nat), l.foldl (fun s (x : Nat × Nat) => fetchRange s (tileAddr c x.1) x.2) s = s :=
    fun l => foldl_const _ _ _ fun x _ => fetchRange_quiet s _ _ h1 h2 h3
  have hv : vecFetch c b.vector s = s := by
    unfold vecFetch
    have hs : (if vecWrites b.vector then s
      else (vecSpans (s.core c) b.vector).foldl (fun s x => fetchRange s (tileAddr c x.1) x.2) s) = s := by
      split
      · rfl
      · exact hf _
    simp only [hs]
    split
    · split
      · exact readEntries_quiet s _ _ _ h3 (ha _)
      · rfl
    · rfl
  unfold bundleFetch
  dsimp only
  rw [hf]
  exact hv

end Sys2Proof.Machine
end

