-- ==== Sys2Proof/Laws/Vector.lean ====
section
/-!
SUPPORT. What keeping a vector operation's product does, said once (R119, R127).
-/

namespace Sys2Proof.Machine

/-- The records of a vector operation change the error ring alone. -/
theorem keepBite_state (c : Nat) (b : BitVec 32) (x : VectorSlot) (o : VecOut) (t : State) :
    keepBite c b x o t = t ∨ ∃ i, keepBite c b x o t = t.emit i := by
  unfold keepBite
  split
  · exact Or.inl rfl
  · exact Or.inr ⟨_, rfl⟩

/-- An operation that writes neither entries nor the tile store changes its core, and at most enters a bite record. -/
theorem vecKeep_reg (c : Nat) (b : BitVec 32) (x : VectorSlot) (o : VecOut) (s : State) (h1 : o.accs = []) (h2 : o.stores = []) :
    vecKeep c b x o s = s.modCore c (keepCore s.cycle x o) ∨
      ∃ i, vecKeep c b x o s = (s.modCore c (keepCore s.cycle x o)).emit i := by
  unfold vecKeep
  simp only [h1, h2, List.foldl_nil]
  exact keepBite_state c b x o _

theorem tileWrite_cycle (s : State) (c q a : Nat) (bs : List PByte) : (tileWrite s c q a bs).cycle = s.cycle := by
  unfold tileWrite
  dsimp only
  repeat' split
  all_goals rfl

/-- Keeping a product takes no time. -/
theorem vecKeep_cycle (c : Nat) (b : BitVec 32) (x : VectorSlot) (o : VecOut) (t : State) : (vecKeep c b x o t).cycle = t.cycle := by
  have fold : ∀ {β : Type} (f : State → β → State), (∀ s e, (f s e).cycle = s.cycle) → ∀ (l : List β) (s : State),
      (l.foldl f s).cycle = s.cycle := by
    intro β f hf l
    induction l with
    | nil => intro s; rfl
    | cons e l ih => intro s; rw [List.foldl_cons, ih, hf]
  have bite : ∀ u : State, (keepBite c b x o u).cycle = u.cycle := fun u => by
    rcases keepBite_state c b x o u with h | ⟨i, h⟩ <;> rw [h] <;> rfl
  have stores := fold (fun (u : State) (e : Nat × List PByte) => tileWrite u c (t.core c).seqNo e.1 e.2)
    (fun u e => tileWrite_cycle u _ _ _ _) o.stores
  have entries := fold (fun (u : State) (e : Nat × Nat × Nat × Bool) => u.setEntry e.1 e.2.1 e.2.2.1 e.2.2.2)
    (fun _ _ => rfl) o.accs
  unfold vecKeep
  exact (bite _).trans ((stores _).trans (entries _))

/-- Scalar registers, tokens, step and queues stay. -/
theorem keepCore_keeps (n : Nat) (x : VectorSlot) (o : VecOut) (k : Core) :
    (keepCore n x o k).sregs = k.sregs ∧ (keepCore n x o k).tokens = k.tokens ∧ (keepCore n x o k).step = k.step ∧
      (keepCore n x o k).phase = k.phase ∧ (keepCore n x o k).queues = k.queues ∧ (keepCore n x o k).descs = k.descs ∧
      (keepCore n x o k).arrays = k.arrays ∧ (keepCore n x o k).pc = k.pc := by
  cases hv : o.vdst <;> cases hm : o.mdst <;> cases hc : o.clearSa <;> cases ht : x.ntag.getLsbD 4 <;>
    simp only [keepCore, hv, hm, hc, ht, Core.setVreg, Core.setMreg] <;> (repeat' split) <;> simp

/-- The vector registers after: the destination alone is written. -/
theorem keepCore_vregs (n : Nat) (x : VectorSlot) (o : VecOut) (k : Core) :
    (keepCore n x o k).vregs = match o.vdst with | some (r, l) => (k.setVreg r l).vregs | none => k.vregs := by
  cases hv : o.vdst <;> cases hm : o.mdst <;> cases hc : o.clearSa <;> cases ht : x.ntag.getLsbD 4 <;>
    simp only [keepCore, hv, hm, hc, ht, Core.setVreg, Core.setMreg] <;> (repeat' split) <;> simp

/-- The mask registers after: the destination alone is written. -/
theorem keepCore_masks (n : Nat) (x : VectorSlot) (o : VecOut) (k : Core) :
    (keepCore n x o k).masks = match o.mdst with | some (r, m) => (k.setMreg r m).masks | none => k.masks := by
  cases hv : o.vdst <;> cases hm : o.mdst <;> cases hc : o.clearSa <;> cases ht : x.ntag.getLsbD 4 <;>
    simp only [keepCore, hv, hm, hc, ht, Core.setVreg, Core.setMreg] <;> (repeat' split) <;> simp

/-- A lane of a list given by a function. -/
theorem laneAt_lanes256 (f : Nat → Lane) (n : Nat) (h : n < 256) : laneAt (lanes256 f) n = f n := by
  unfold laneAt lanes256
  simp [nth, h]

/-- A lane under a mask (R119). -/
theorem laneAt_maskLanes (m : BitVec 256) (old new : List Lane) (n : Nat) (h : n < 256) :
    laneAt (maskLanes m old new) n = if m.getLsbD n then laneAt new n else laneAt old n :=
  laneAt_lanes256 _ n h

/-- A vector operation that issues at once is the keeping of its product and the issue. -/
theorem vec_exec (s : State) (i : Instr) (c : CoreId) (x : VectorSlot) (hb : opBundle i = some (c, vectorBundle x)) (h : Issues s i)
    (hx : x.op ≠ 0) :
    exec i s = .next ((vecKeep c (s.core c).pc x (vecOut s c (s.core c) x) s).modCore c (·.retire s.cycle)) := by
  unfold Issues at h
  rw [hb] at h
  rw [op_issue s _ c _ hb, issues_effect s c _ h (by show (0: BitVec 5) ≠ 0x17; decide) (by show (0: BitVec 4) ≠ 3; decide)
    (by show (0: BitVec 4) ≠ 3; decide), vector_effect, advance_none]
  unfold vecApply
  rw [if_neg hx, vecKeep_cycle]

/-- A lane-wise product makes its command write lanes. -/
theorem writesLanes_of (s : State) (i : Instr) (c : CoreId) (f : VFields) (op : BitVec 6) (new : Nat → Lane)
    (newl : List Lane) (hb : opBundle i = some (c, vectorBundle (f.slot op))) (hx : op ≠ 0) 
    (o : VecOut) (ho : vecOut s c (s.core c) (f.slot op) = o)
    (h1 : o.accs = []) (h2 : o.stores = []) (h4 : o.mdst = none)
    (h5 : o.vdst = some (f.a, maskLanes ((s.core c).mreg f.mask.toNat) ((s.core c).vreg f.a) newl))
    (h6 : ∀ n < 256, laneAt newl n = new n) : WritesLanes s c i f new := by
  intro h
  refine ⟨_, vec_exec s i c _ hb h hx, ?_⟩
  rw [ho]
  set k := s.core c with hk
  have hcore : ∀ d : Nat, ((vecKeep c k.pc (f.slot op) o s).modCore c (·.retire s.cycle)).core d = if d = c then (keepCore s.cycle (f.slot op) o k).retire s.cycle else s.core d := by
    intro d
    rcases vecKeep_reg c k.pc (f.slot op) o s h1 h2 with e | ⟨i, e⟩ <;> rw [e] <;> by_cases hd : d = c <;> simp [hd, hk]
  obtain ⟨k1, k2, k3, k4, k5, k6, k7, k8⟩ := keepCore_keeps s.cycle (f.slot op) o k
  have kv := keepCore_vregs s.cycle (f.slot op) o k
  have km := keepCore_masks s.cycle (f.slot op) o k
  rw [h5] at kv
  rw [h4] at km
  dsimp only at kv km
  have hv : ∀ r, (keepCore s.cycle (f.slot op) o k).vreg r = if r = f.a then maskLanes (k.mreg f.mask.toNat) (k.vreg f.a) newl else k.vreg r := by
    intro r
    rw [← vreg_setVreg]
    unfold Core.vreg; rw [kv]; rfl
  refine ⟨?_, ?_, ?_, ?_, ?_⟩
  · unfold CoreFrame
    rcases vecKeep_reg c k.pc (f.slot op) o s h1 h2 with e | ⟨i, e⟩ <;> rw [e] <;> refine ⟨rfl, rfl, rfl, rfl, rfl, rfl, ?_⟩ <;> intro d hd <;>
      have : (d : Nat) ≠ c := fun h => hd (Fin.ext h)
    all_goals simp [this]
  · rw [hcore, if_pos rfl]
    exact ⟨k1, k2, k3, k4, k5, k6, k7, by show (keepCore s.cycle (f.slot op) o k).pc + 1 = _; rw [k8]⟩
  · rw [hcore, if_pos rfl]; exact km
  · intro n hn
    rw [hcore, if_pos rfl]
    show laneAt ((keepCore s.cycle (f.slot op) o k).vreg f.a) n = _
    rw [hv, if_pos rfl, laneAt_maskLanes _ _ _ _ hn, h6 n hn]
  · intro r hr
    rw [hcore, if_pos rfl]
    show (keepCore s.cycle (f.slot op) o k).vreg r = _
    rw [hv, if_neg hr]

end Sys2Proof.Machine
end

