-- ==== Sys2Proof/Machine/Pack.lean ====
section
/-!
DEFINITION. The vector packs of chapter 18 as bytes and as verdicts (R559 to R568). No command of the device reads a pack: a host validates it
and streams its records to a runner program.
-/

namespace Sys2Proof.Machine

/-- A record of a pack (R562). -/
structure PackRecord where
  rnum : BitVec 32
  opc : BitVec 16
  gmask : BitVec 8
  rmode : BitVec 8
  ifmt : BitVec 8
  ofmt : BitVec 8
  afmt : BitVec 8
  subop : BitVec 8
  sat : BitVec 32
  nf : BitVec 32
  step : BitVec 32
  seed : Word
  stream : BitVec 32
  xs : BitVec 16
  ebase : Word
  sel : BitVec 16
  src : BitVec 16
  operands : List Byte
  expected : List Byte
  deriving DecidableEq, Repr

/-- Zeros up to a multiple of 64 bytes (R562). -/
def padTo64 (l : List Byte) : List Byte := l ++ List.replicate ((64 - l.length % 64) % 64) 0

/-- The head of a record, with CRC field `crc` (R562). -/
def PackRecord.head (r : PackRecord) (crc : Nat) : List Byte :=
  toBytes 4 r.rnum.toNat ++ toBytes 2 r.opc.toNat ++ [r.gmask, r.rmode, r.ifmt, r.ofmt, r.afmt, r.subop] ++ toBytes 4 r.operands.length ++
    toBytes 4 r.expected.length ++ toBytes 4 r.sat.toNat ++ toBytes 4 r.nf.toNat ++ toBytes 4 r.step.toNat ++ toBytes 8 r.seed.toNat ++
    toBytes 4 r.stream.toNat ++ toBytes 2 r.xs.toNat ++ toBytes 2 0 ++ toBytes 8 r.ebase.toNat ++ toBytes 2 r.sel.toNat ++
    toBytes 2 r.src.toNat ++ toBytes 4 crc

/-- CRC: CRC-32C over the head with this field zero, then the operand and expected bytes (R562). -/
def PackRecord.crc (r : PackRecord) : BitVec 32 := crc32c (r.head 0 ++ r.operands ++ r.expected)

/-- A record as bytes (R562). -/
def PackRecord.image (r : PackRecord) : List Byte := r.head r.crc.toNat ++ padTo64 r.operands ++ padTo64 r.expected

/-- Whether a record holds a reserved encoding (R562, R563). -/
def PackRecord.reserved (r : PackRecord) : Bool :=
  decide (r.opc.toNat < 1 ∨ 0x0E < r.opc.toNat) || decide (3 < r.gmask.toNat) || decide (15 < r.rmode.toNat) ||
    (r.opc == 2 && decide (1 < r.subop.toNat)) || (r.opc == 5 && r.subop != 2 && r.subop != 3) ||
    (r.opc == 7 && decide (r.subop.toNat < 1 ∨ 8 < r.subop.toNat)) || ([1, 3, 8, 9, 10].contains r.opc.toNat && r.subop != 0)

/-- The bytes of header.bin before its signatures, from the record files (R560). -/
def packHeader (major minor nrec : Nat) (files : List (List Byte)) : List Byte :=
  [0x50, 0x4E, 0x56, 0x50] ++ toBytes 2 minor ++ toBytes 2 major ++ toBytes 4 nrec ++ toBytes 2 files.length ++ List.replicate 50 0 ++
    files.flatMap fun f => toBytes 48 (Config.sha384 f).toNat

/-- Whether the records of a pack are numbered from 0 without gaps and hold no reserved encoding (R559, R565). -/
def packOrdered (rs : List PackRecord) : Bool := rs.zipIdx.all fun x => x.1.rnum.toNat == x.2 && !x.1.reserved

/-- Whether a pack passes the checks of R565: its signatures, its header for these files, and its records. -/
def packValid (signed : Bool) (header : List Byte) (major minor : Nat) (files : List (List PackRecord)) : Bool :=
  signed && header == packHeader major minor files.flatten.length (files.map fun f => f.flatMap PackRecord.image) && packOrdered files.flatten &&
    files.all fun f => decide (f.length ≤ 2 ^ 20)

/-- Whether a record runs under an effective grade (R566). -/
def PackRecord.runs (r : PackRecord) (grade : BitVec 8) : Bool := r.gmask.getLsbD (grade.toNat - 1)

/-- The first place at which two byte strings of one length differ. -/
def firstDiffering (a b : List Byte) : Option Nat := ((a.zip b).zipIdx.find? fun x => x.1.1 != x.1.2).map (·.2)

/-- The result of a record (R567): 16 bytes, from the bytes that the device wrote, or none where it refused, and its events. DESIGN CHOICE
(log 143): where both the bytes and the events differ, the status is 1. -/
def PackRecord.result (r : PackRecord) (got : Option (List Byte)) (sat nf : Nat) : List Byte :=
  let out := fun (status off : Nat) => toBytes 4 r.rnum.toNat ++ toBytes 4 status ++ toBytes 4 off ++ toBytes 4 0
  match got with
  | none => out 3 0
  | some bs =>
    match firstDiffering r.expected bs with
    | some i => out 1 i
    | none => if sat = r.sat.toNat ∧ nf = r.nf.toNat then out 0 0 else out 2 0

end Sys2Proof.Machine
end

