-- ==== Sys2Proof/WellFormed.lean ====
section
/-!
DEFINITION. Which commands are well formed: the bundle of a core operation holds no reserved encoding (R18, R142, R146 to R160), and an
operand lies in the range its rule gives.
-/

namespace Sys2Proof

/-- The bundle whose only operation is a command of a core (R140). -/
def Instr.bundle : Instr → Option Bundle
  | .instructionStreamFill .. => none
  | .instructionFetch .. => none
  | .bundleIssue .. => none
  | .nop _ => some (scalarBundle nopScalar)
  | .addi _ sd sa imm => some (scalarBundle ⟨0x01, sd, sa, imm⟩)
  | .add _ sd sa sb => some (scalarBundle ⟨0x02, sd, sa, sb ++ (0 : BitVec 20)⟩)
  | .sub _ sd sa sb => some (scalarBundle ⟨0x03, sd, sa, sb ++ (0 : BitVec 20)⟩)
  | .and _ sd sa sb => some (scalarBundle ⟨0x04, sd, sa, sb ++ (0 : BitVec 20)⟩)
  | .or _ sd sa sb => some (scalarBundle ⟨0x05, sd, sa, sb ++ (0 : BitVec 20)⟩)
  | .xor _ sd sa sb => some (scalarBundle ⟨0x06, sd, sa, sb ++ (0 : BitVec 20)⟩)
  | .shli _ sd sa imm => some (scalarBundle ⟨0x07, sd, sa, imm⟩)
  | .shri _ sd sa imm => some (scalarBundle ⟨0x08, sd, sa, imm⟩)
  | .movi _ sd imm => some (scalarBundle ⟨0x09, sd, 0, imm⟩)
  | .shlor _ sd sa imm => some (scalarBundle ⟨0x0A, sd, sa, imm⟩)
  | .mul _ sd sa sb => some (scalarBundle ⟨0x0B, sd, sa, sb ++ (0 : BitVec 20)⟩)
  | .sld _ sd sa imm => some (scalarBundle ⟨0x0C, sd, sa, imm⟩)
  | .sst _ sd sa imm => some (scalarBundle ⟨0x0D, sd, sa, imm⟩)
  | .cmplt _ sd sa sb => some (scalarBundle ⟨0x0E, sd, sa, sb ++ (0 : BitVec 20)⟩)
  | .cmpeq _ sd sa sb => some (scalarBundle ⟨0x0F, sd, sa, sb ++ (0 : BitVec 20)⟩)
  | .jmp _ imm => some (scalarBundle ⟨0x10, 0, 0, imm⟩)
  | .bz _ sa imm => some (scalarBundle ⟨0x11, 0, sa, imm⟩)
  | .bnz _ sa imm => some (scalarBundle ⟨0x12, 0, sa, imm⟩)
  | .loop _ sd imm => some (scalarBundle ⟨0x13, sd, 0, imm⟩)
  | .stepset _ sa => some (scalarBundle ⟨0x14, 0, sa, 0⟩)
  | .stepinc _ => some (scalarBundle ⟨0x15, 0, 0, 0⟩)
  | .phase _ imm => some (scalarBundle ⟨0x16, 0, 0, imm⟩)
  | .testwin _ => some (scalarBundle ⟨0x17, 0, 0, 0⟩)
  | .trap _ imm => some (scalarBundle ⟨0x18, 0, 0, imm⟩)
  | .endProgram _ => some (scalarBundle ⟨0x19, 0, 0, 0⟩)
  | .pass _ m => some (matrixBundle { m with op := 1 })
  | .weightBroadcast .. => none
  | .passComplete .. => none
  | .chainReplay .. => none
  | .arrayArbitration .. => none
  | .iadd _ f => some (vectorBundle (f.slot 0x01))
  | .isub _ f => some (vectorBundle (f.slot 0x02))
  | .icmp _ f => some (vectorBundle (f.slot 0x03))
  | .imin _ f => some (vectorBundle (f.slot 0x04))
  | .imax _ f => some (vectorBundle (f.slot 0x05))
  | .vecAnd _ f => some (vectorBundle (f.slot 0x06))
  | .vecOr _ f => some (vectorBundle (f.slot 0x07))
  | .vecXor _ f => some (vectorBundle (f.slot 0x08))
  | .shl _ f => some (vectorBundle (f.slot 0x09))
  | .shr _ f => some (vectorBundle (f.slot 0x0A))
  | .sel _ f => some (vectorBundle (f.slot 0x0B))
  | .fadd _ f => some (vectorBundle (f.slot 0x10))
  | .fsub _ f => some (vectorBundle (f.slot 0x11))
  | .fmul _ f => some (vectorBundle (f.slot 0x12))
  | .fma _ f => some (vectorBundle (f.slot 0x13))
  | .fmin _ f => some (vectorBundle (f.slot 0x14))
  | .fmax _ f => some (vectorBundle (f.slot 0x15))
  | .fcmp _ f => some (vectorBundle (f.slot 0x16))
  | .fabs _ f => some (vectorBundle (f.slot 0x17))
  | .fneg _ f => some (vectorBundle (f.slot 0x18))
  | .frcp _ f => some (vectorBundle (f.slot 0x1C))
  | .frsq _ f => some (vectorBundle (f.slot 0x1D))
  | .fsqrt _ f => some (vectorBundle (f.slot 0x1E))
  | .fexp2 _ f => some (vectorBundle (f.slot 0x1F))
  | .flog2 _ f => some (vectorBundle (f.slot 0x20))
  | .cvt _ f => some (vectorBundle (f.slot 0x24))
  | .vld _ f => some (vectorBundle (f.slot 0x28))
  | .vst _ f => some (vectorBundle (f.slot 0x29))
  | .pack _ f => some (vectorBundle (f.slot 0x2C))
  | .packx _ f => some (vectorBundle (f.slot 0x2D))
  | .unpack _ f => some (vectorBundle (f.slot 0x2E))
  | .rsum _ f => some (vectorBundle (f.slot 0x30))
  | .rssq _ f => some (vectorBundle (f.slot 0x31))
  | .rmax _ f => some (vectorBundle (f.slot 0x32))
  | .rmin _ f => some (vectorBundle (f.slot 0x33))
  | .bcast _ f => some (vectorBundle (f.slot 0x34))
  | .rot _ f => some (vectorBundle (f.slot 0x35))
  | .ilv _ f => some (vectorBundle (f.slot 0x36))
  | .dilv _ f => some (vectorBundle (f.slot 0x37))
  | .ard _ f => some (vectorBundle (f.slot 0x38))
  | .awr _ f => some (vectorBundle (f.slot 0x39))
  | .adrn _ f => some (vectorBundle (f.slot 0x3A))
  | .sard _ f => some (vectorBundle (f.slot 0x3C))
  | .copy _ f => some (moveBundle (f.slot 1))
  | .scopy _ f => some (moveBundle (f.slot 2))
  | .transferComplete .. => none
  | .gather .. => none
  | .openVersion .. => none
  | .publish .. => none
  | .lookup .. => none
  | .pin .. => none
  | .importRows .. => none
  | .exportRows .. => none
  | .grad .. => none
  | .sealBank .. => none
  | .applyBank .. => none
  | .commit .. => none
  | .snap .. => none
  | .put .. => none
  | .reduceScatter .. => none
  | .allGather .. => none
  | .allReduce .. => none
  | .exchangeComplete .. => none
  | .wait _ tok consume src imm => some (syncBundle ⟨1, tok ++ BitVec.ofBool consume ++ BitVec.ofBool src ++ imm⟩)
  | .signal _ tok dst inc => some (syncBundle ⟨2, tok ++ dst ++ (0 : BitVec 1) ++ inc⟩)
  | .bar _ grp => some (syncBundle ⟨3, grp ++ (0 : BitVec 24)⟩)
  | .tset _ tok val => some (syncBundle ⟨4, tok ++ (0 : BitVec 2) ++ val⟩)
  | .claim _ ctr sd => some (syncBundle ⟨5, ctr ++ sd ++ (0 : BitVec 19)⟩)
  | .wset _ ctr sa => some (syncBundle ⟨6, ctr ++ sa ++ (0 : BitVec 19)⟩)
  | .tokenIncrement .. => none
  | .waitTimeout .. => none
  | .barrierTimeout .. => none
  | .rendezvousTimeout .. => none
  | .barrierArrivalPacket .. => none
  | .barrierReleasePacket .. => none
  | .seqCtrlResume .. => none
  | .seqCtrlStart .. => none
  | .vrefuseSet .. => none
  | .pairDue .. => none
  | .testWindowEnd .. => none
  | .forcedTestWindow .. => none
  | .testOverdue .. => none
  | .campionUnitTest .. => none
  | .referenceRecompute .. => none
  | .vaultRead .. => none
  | .vaultWrite .. => none
  | .commandPathTimeout .. => none
  | .detectionSummary .. => none
  | .dramScrubRead .. => none
  | .sramScrubRead .. => none
  | .refresh .. => none
  | .dramTempSample .. => none
  | .selfTestComplete .. => none
  | .vltInjArm .. => none
  | .ringEntryRead .. => none
  | .entryReread .. => none
  | .batchValidation .. => none
  | .prefetchMessage .. => none
  | .countMessage .. => none
  | .grantPacket .. => none
  | .lookupPayload .. => none
  | .tierFetchComplete .. => none
  | .tierFetchTimeout .. => none
  | .backgroundTierFetch .. => none
  | .lookupResponse .. => none
  | .lookupComplete .. => none
  | .bankOpen .. => none
  | .contributionMessage .. => none
  | .endMarker .. => none
  | .sealDecision .. => none
  | .applyComplete .. => none
  | .bankClear .. => none
  | .signalDetect .. => none
  | .trainLock .. => none
  | .trainTimeout .. => none
  | .helloPacket .. => none
  | .authPacket .. => none
  | .linkAck .. => none
  | .linkNak .. => none
  | .creditReturn .. => none
  | .linkRetrain .. => none
  | .dataPacket .. => none
  | .packetTransit .. => none
  | .releasePacket .. => none
  | .donePacket .. => none
  | .failPacket .. => none
  | .linkDown .. => none
  | .creditTimeout .. => none
  | .linkAbsentTimeout .. => none
  | .fabRetrain .. => none
  | .digestPageCrc .. => none
  | .digestCompare .. => none
  | .mirrorPageSend => none
  | .checkpointCommit => none
  | .journalApply => none
  | .hostCheckpointStream => none
  | .shlHello .. => none
  | .shlAuth .. => none
  | .attach .. => none
  | .detach .. => none
  | .bufOpen .. => none
  | .bufClose .. => none
  | .ringOpen .. => none
  | .ringClose .. => none
  | .evtOpen .. => none
  | .xferIn .. => none
  | .xferOut .. => none
  | .xferComplete .. => none
  | .resolveResend .. => none
  | .resolveAbort .. => none
  | .tierSrc .. => none
  | .ckptDest .. => none
  | .load .. => none
  | .jobStart .. => none
  | .jobStop .. => none
  | .jobCtrlReset .. => none
  | .regRd .. => none
  | .regWr .. => none
  | .rdmaWrite .. => none
  | .rdmaRead .. => none
  | .doorbell .. => none
  | .eventConsumerWrite .. => none
  | .qpError .. => none
  | .sessionExpiry .. => none
  | .hostRetrain .. => none
  | .errorRingDelivery => none
  | .unitHistoryWrite .. => none
  | .unitHistoryRetry .. => none
  | .permanentClassification .. => none
  | .tansyPeriod .. => none
  | .capUnattainable => none
  | .mgCapWrite .. => none
  | .rtCapWrite .. => none
  | .alertCapWrite .. => none
  | .capAlertAssert => none
  | .capAlertDeassert => none
  | .droopCut .. => none
  | .droopCutEnd .. => none
  | .droopRecord => none
  | .vappliedWrite .. => none
  | .voltageNotApplied => none
  | .marginMeasurement .. => none
  | .logicTempSample .. => none
  | .thermalTrip => none
  | .coolantLossStop => none
  | .resume => none
  | .stopExpired => none
  | .rstNAssert => none
  | .coldReset .. => none
  | .bootRomStart => none
  | .bootWatchdog => none
  | .warmReset .. => none
  | .jobReset => none
  | .coreReset .. => none
  | .pltRstCores .. => none
  | .pltRstWarm .. => none
  | .pltRstJob .. => none
  | .pldmFirmwareUpdate .. => none
  | .fwuStart .. => none
  | .fwuAbort .. => none
  | .firmwareUpdateComplete => none
  | .attestationRequest .. => none
  | .attStart .. => none
  | .networkConfigWrite .. => none
  | .operatorRootWrite .. => none
  | .tokenWrite .. => none
  | .pldmPlatformMonitoring => none
  | .coreclkLoss => none
  | .sdrefLoss .. => none
  | .powerLoss => none
  | .jtagBypass => none
  | .jtagIdcode => none
  | .jtagSamplePreload .. => none
  | .jtagExtest => none
  | .jtagDebug .. => none
  | .tapReset => none
  | .errStatWrite .. => none
  | .errForceGo .. => none
  | .ctrlPclr .. => none
  | .errRecRead .. => none
  | .progRead .. => none
  | .readClear .. => none
  | .registerWrite .. => none
  | .coreclkReturn .. => none
  | .powerOn => none
  | .hostLinkUp .. => none
  | .hostLinkDown .. => none
  | .congestionNotificationPacket .. => none
  | .priorityFlowControlFrame .. => none
  | .platformAccess .. => none
  | .pinImportExportComplete .. => none

/-- Whether the operands of a command that is no operation of a bundle lie in their ranges. -/
def Instr.operandsOk : Instr → Bool
  | .instructionStreamFill .. => true
  | .instructionFetch .. => true
  | .bundleIssue .. => true
  | .nop .. => true
  | .addi .. => true
  | .add .. => true
  | .sub .. => true
  | .and .. => true
  | .or .. => true
  | .xor .. => true
  | .shli .. => true
  | .shri .. => true
  | .movi .. => true
  | .shlor .. => true
  | .mul .. => true
  | .sld .. => true
  | .sst .. => true
  | .cmplt .. => true
  | .cmpeq .. => true
  | .jmp .. => true
  | .bz .. => true
  | .bnz .. => true
  | .loop .. => true
  | .stepset .. => true
  | .stepinc .. => true
  | .phase .. => true
  | .testwin .. => true
  | .trap .. => true
  | .endProgram .. => true
  | .pass .. => true
  | .weightBroadcast .. => true
  | .passComplete .. => true
  | .chainReplay .. => true
  | .arrayArbitration .. => true
  | .iadd .. => true
  | .isub .. => true
  | .icmp .. => true
  | .imin .. => true
  | .imax .. => true
  | .vecAnd .. => true
  | .vecOr .. => true
  | .vecXor .. => true
  | .shl .. => true
  | .shr .. => true
  | .sel .. => true
  | .fadd .. => true
  | .fsub .. => true
  | .fmul .. => true
  | .fma .. => true
  | .fmin .. => true
  | .fmax .. => true
  | .fcmp .. => true
  | .fabs .. => true
  | .fneg .. => true
  | .frcp .. => true
  | .frsq .. => true
  | .fsqrt .. => true
  | .fexp2 .. => true
  | .flog2 .. => true
  | .cvt .. => true
  | .vld .. => true
  | .vst .. => true
  | .pack .. => true
  | .packx .. => true
  | .unpack .. => true
  | .rsum .. => true
  | .rssq .. => true
  | .rmax .. => true
  | .rmin .. => true
  | .bcast .. => true
  | .rot .. => true
  | .ilv .. => true
  | .dilv .. => true
  | .ard .. => true
  | .awr .. => true
  | .adrn .. => true
  | .sard .. => true
  | .copy .. => true
  | .scopy .. => true
  | .transferComplete .. => true
  | .gather .. => true
  | .openVersion .. => true
  | .publish .. => true
  | .lookup .. => true
  | .pin .. => true
  | .importRows .. => true
  | .exportRows .. => true
  | .grad .. => true
  | .sealBank .. => true
  | .applyBank .. => true
  | .commit .. => true
  | .snap .. => true
  | .put .. => true
  | .reduceScatter .. => true
  | .allGather .. => true
  | .allReduce .. => true
  | .exchangeComplete .. => true
  | .wait .. => true
  | .signal .. => true
  | .bar .. => true
  | .tset .. => true
  | .claim .. => true
  | .wset .. => true
  | .tokenIncrement .. => true
  | .waitTimeout .. => true
  | .barrierTimeout .. => true
  | .rendezvousTimeout .. => true
  | .barrierArrivalPacket .. => true
  | .barrierReleasePacket .. => true
  | .seqCtrlResume .. => true
  | .seqCtrlStart .. => true
  | .vrefuseSet .. => true
  | .pairDue .. => true
  | .testWindowEnd .. => true
  | .forcedTestWindow .. => true
  | .testOverdue .. => true
  | .campionUnitTest .. => true
  | .referenceRecompute .. => true
  | .vaultRead addr _ _ => decide (addr < Config.dramEnd) && addr % 64 == 0
  | .vaultWrite addr data _ _ _ => decide (addr + data.length ≤ Config.dramEnd) && !data.isEmpty
  | .commandPathTimeout .. => true
  | .detectionSummary .. => true
  | .dramScrubRead .. => true
  | .sramScrubRead .. => true
  | .refresh .. => true
  | .dramTempSample _ temps => decide (temps.length = 8)
  | .selfTestComplete .. => true
  | .vltInjArm .. => true
  | .ringEntryRead .. => true
  | .entryReread .. => true
  | .batchValidation .. => true
  | .prefetchMessage .. => true
  | .countMessage m => m.fits
  | .grantPacket .. => true
  | .lookupPayload m _ _ => m.fits
  | .tierFetchComplete .. => true
  | .tierFetchTimeout .. => true
  | .backgroundTierFetch .. => true
  | .lookupResponse .. => true
  | .lookupComplete .. => true
  | .bankOpen .. => true
  | .contributionMessage m => m.fits
  | .endMarker .. => true
  | .sealDecision .. => true
  | .applyComplete .. => true
  | .bankClear .. => true
  | .signalDetect .. => true
  | .trainLock .. => true
  | .trainTimeout .. => true
  | .helloPacket _ h => decide (h.port < 9)
  | .authPacket .. => true
  | .linkAck .. => true
  | .linkNak .. => true
  | .creditReturn .. => true
  | .linkRetrain .. => true
  | .dataPacket .. => true
  | .packetTransit .. => true
  | .releasePacket .. => true
  | .donePacket .. => true
  | .failPacket .. => true
  | .linkDown .. => true
  | .creditTimeout .. => true
  | .linkAbsentTimeout .. => true
  | .fabRetrain .. => true
  | .digestPageCrc page => decide (4096 * page < Config.dramEnd)
  | .digestCompare .. => true
  | .mirrorPageSend => true
  | .checkpointCommit => true
  | .journalApply => true
  | .hostCheckpointStream => true
  | .shlHello .. => true
  | .shlAuth .. => true
  | .attach .. => true
  | .detach .. => true
  | .bufOpen h b => decide (b = bufBody h.body)
  | .bufClose .. => true
  | .ringOpen .. => true
  | .ringClose .. => true
  | .evtOpen .. => true
  | .xferIn .. => true
  | .xferOut .. => true
  | .xferComplete .. => true
  | .resolveResend .. => true
  | .resolveAbort .. => true
  | .tierSrc .. => true
  | .ckptDest .. => true
  | .load .. => true
  | .jobStart .. => true
  | .jobStop .. => true
  | .jobCtrlReset .. => true
  | .regRd _ page off n => decide (page < 0x1000) && off % 8 == 0 && decide (1 ≤ n) && decide (n ≤ 64) && decide (off + 8 * n ≤ 65536)
  | .regWr _ page off vals => decide (page < 0x1000) && off % 8 == 0 && decide (1 ≤ vals.length) && decide (vals.length ≤ 64) && decide (off + 8 * vals.length ≤ 65536)
  | .rdmaWrite .. => true
  | .rdmaRead .. => true
  | .doorbell .. => true
  | .eventConsumerWrite .. => true
  | .qpError .. => true
  | .sessionExpiry .. => true
  | .hostRetrain .. => true
  | .errorRingDelivery => true
  | .unitHistoryWrite .. => true
  | .unitHistoryRetry .. => true
  | .permanentClassification .. => true
  | .tansyPeriod m => decide (m.core.length = 32) && decide (m.steady.length = 32) && decide (m.held.length = 32)
  | .capUnattainable => true
  | .mgCapWrite .. => true
  | .rtCapWrite .. => true
  | .alertCapWrite .. => true
  | .capAlertAssert => true
  | .capAlertDeassert => true
  | .droopCut .. => true
  | .droopCutEnd .. => true
  | .droopRecord => true
  | .vappliedWrite .. => true
  | .voltageNotApplied => true
  | .marginMeasurement .. => true
  | .logicTempSample temps => decide (temps.length = 16)
  | .thermalTrip => true
  | .coolantLossStop => true
  | .resume => true
  | .stopExpired => true
  | .rstNAssert => true
  | .coldReset .. => true
  | .bootRomStart => true
  | .bootWatchdog => true
  | .warmReset .. => true
  | .jobReset => true
  | .coreReset .. => true
  | .pltRstCores .. => true
  | .pltRstWarm .. => true
  | .pltRstJob .. => true
  | .pldmFirmwareUpdate .. => true
  | .fwuStart .. => true
  | .fwuAbort .. => true
  | .firmwareUpdateComplete => true
  | .attestationRequest .. => true
  | .attStart .. => true
  | .networkConfigWrite .. => true
  | .operatorRootWrite roots => decide (roots.length ≤ 8)
  | .tokenWrite .. => true
  | .pldmPlatformMonitoring => true
  | .coreclkLoss => true
  | .sdrefLoss .. => true
  | .powerLoss => true
  | .jtagBypass => true
  | .jtagIdcode => true
  | .jtagSamplePreload pattern => decide (pattern.length ≤ 4096)
  | .jtagExtest => true
  | .jtagDebug .. => true
  | .tapReset => true
  | .errStatWrite _ page _ _ => decide (page < 0x1000)
  | .errForceGo _ page _ => decide (page < 0x1000)
  | .ctrlPclr _ page => decide (page < 0x1000)
  | .errRecRead _ page => decide (page < 0x1000)
  | .progRead _ page => decide (page < 0x1000)
  | .readClear _ page off => decide (page < 0x1000) && off % 8 == 0 && decide (off < 65536)
  | .registerWrite _ page off _ => decide (page < 0x1000) && off % 8 == 0 && decide (off < 65536)
  | .coreclkReturn .. => true
  | .powerOn => true
  | .hostLinkUp .. => true
  | .hostLinkDown .. => true
  | .congestionNotificationPacket .. => true
  | .priorityFlowControlFrame .. => true
  | .platformAccess .. => true
  | .pinImportExportComplete .. => true

/-- Whether a command is well formed. -/
def Instr.wf (i : Instr) : Bool :=
  (match i.bundle with
    | some b => (reservedEncoding b).isNone
    | none => true) && i.operandsOk

end Sys2Proof
end

