-- ==== Sys2Proof/Tests/Slice0.lean ====
section
/-!
SUPPORT. Tests: for every statement with hypotheses a state that meets them, the checks of WellFormed, bundle words written out from
the layouts of chapter 05, and worked examples of the spec.
-/

namespace Sys2Proof.Tests
open Sys2Proof Sys2Proof.Machine
set_option Elab.async false

/-- A program of two core images and one memory window. -/
def tProg : Program := {
  grade := 1, generation := 3, jobId := 7, nD := 1, nP := 1, nT := 1, nS := 1, torus := false, testWindows := true, detReq := false,
  selectors := [], images := [⟨0, 0x100000, List.replicate 8 0⟩, ⟨16, 0x100000, List.replicate 8 0⟩], init := [],
  windows := [⟨0, 0x100000, true⟩], groupWindows := [], hostWindows := [], tables := [], ownerMap := [],
  features := [], replThreshold := 0, depth := 2, slots := [], barriers := [], groupBase := 0, groups := [], replicas := [],
  bitIdentical := false, digestPeriod := none, ckptSet := [], staging := [], ingestRings := [], mirror := none, journalPages := 1,
  telemetry := none, telemetryEntries := 0, xchWindows := [], twinRank := none, inboxBytes := 0, firstStep := 0, redoStep := none,
  platWindows := [] }
/-- A started job of one device. -/
def tJob : Job := { prog := tProg, seed := 5, det := false, rank := 0, placement := [], digest := 0, started := true }
/-- Core 0 runs in a job. -/
def tRun : State := { State.reset with job := some tJob, cores := [(0, { st := .running, sregs := [(1, 5), (2, 7), (3, 0x40)] })] }


/-! ### Issue at once, as a Bool -/

/-- Whether a bundle operation issues at once in a state without errors and accumulator entries. -/
def issuesB (s : State) (i : Instr) : Bool :=
  match opBundle i with
  | some (c, b) =>
    canLook s c && (lowestCause (bundleCauses s c b false)).isNone && !orderWaits c (s.core c) b &&
      !(bundleHolds s c (s.core c) b).any && s.errs.isEmpty && s.metaErrs.isEmpty && s.sramErrs.isEmpty && s.acc.isEmpty
  | none => false
theorem issues_of_issuesB (s : State) (i : Instr) (h : issuesB s i = true) : Issues s i := by
  unfold issuesB at h
  unfold Issues
  revert h
  cases opBundle i with
  | none => intro h; cases h
  | some x =>
    intro h
    simp only [Bool.and_eq_true, Option.isNone_iff_eq_none, Bool.not_eq_true', List.isEmpty_iff] at h
    obtain ⟨⟨⟨⟨⟨⟨⟨h1, h2⟩, h3⟩, h4⟩, h5⟩, h6⟩, h7⟩, h8⟩ := h
    exact ⟨h1, h2, h3, h4, bundleFetch_quiet s _ _ h5 h6 h7 fun ph i => by
      simp only [State.entry, h8]
      exact (by decide +kernel : entryOk 0 = true)⟩
theorem allIssue (s : State) (l : List Instr) (h : l.all (issuesB s) = true) : ∀ i ∈ l, Issues s i :=
  fun i hi => issues_of_issuesB s i (List.all_eq_true.1 h i hi)

def tV (c d : BitVec 5) (fmt : BitVec 5) (imm : BitVec 21 := 0) (rnd : BitVec 2 := 0) : VFields := ⟨3, 1, c, d, 0, rnd, fmt, 0, 0, imm⟩

theorem test_wit_ScalarOperations :
    (∀ i ∈ ([.addi 0 4 1 3, .add 0 0 1 2, .sub 0 4 1 2, .and 0 4 1 2, .or 0 4 1 2, .xor 0 4 1 2, .shli 0 4 1 63, .shri 0 4 1 63,
      .movi 0 31 0x1FFFFFF, .shlor 0 4 1 3, .mul 0 4 1 2, .cmplt 0 4 1 2, .cmpeq 0 4 1 2, .stepset 0 1, .stepinc 0, .phase 0 255,
      .nop 0, .endProgram 0] : List Instr), Issues tRun i) ∧ Ready tRun 0 [1, 2] ∧ (63 : BitVec 25).toNat < 64 :=
  ⟨allIssue _ _ (by decide +kernel), by unfold Ready; decide +kernel, by decide⟩

theorem test_wit_Branches :
    ∀ i ∈ ([.jmp 0 7, .bz 0 0 7, .bz 0 1 0, .bnz 0 1 7, .bnz 0 0 7, .loop 0 1 7, .loop 0 0 0] : List Instr), Issues tRun i :=
  allIssue _ _ (by decide +kernel)

theorem test_wit_ScalarLoadAndStore :
    (∀ i ∈ ([.sld 0 4 3 0, .sld 0 0 3 8, .sst 0 1 3 0, .sst 0 0 0 0x6EFFF8] : List Instr), Issues tRun i) ∧
      (tRun.core 0).readByPass 0 0x40 8 = false ∧ (tRun.core 0).heldMeets 0 (tileAddr 0 0x40) 8 = false ∧
      poisonedIn tRun (tileAddr 0 0x40) 8 = false ∧
      poisonedIn { tRun with marks := [(tileAddr 0 0x40 / 64, true)] } (tileAddr 0 0x40) 8 = true ∧
      issuesB { tRun with marks := [(tileAddr 0 0x40 / 64, true)] } (.sld 0 4 3 0) = true :=
  ⟨allIssue _ _ (by decide +kernel), by decide +kernel⟩

theorem test_wit_VectorInteger :
    ∀ i ∈ ([.iadd 0 (tV 2 0 6), .isub 0 (tV 2 0 6), .icmp 0 (tV 2 0 6 5), .imin 0 (tV 2 0 6), .imax 0 (tV 2 0 6),
      .vecAnd 0 (tV 2 0 6), .vecOr 0 (tV 2 0 6), .vecXor 0 (tV 2 0 8), .shl 0 (tV 0 0 6 31), .shr 0 (tV 0 0 8 63),
      .sel 0 (tV 2 7 6)] : List Instr), Issues tRun i :=
  allIssue _ _ (by decide +kernel)

theorem test_wit_VectorFloat :
    ∀ i ∈ ([.fadd 0 (tV 2 0 0 0 1), .fsub 0 (tV 2 0 7), .fmul 0 (tV 2 0 0), .fma 0 (tV 2 4 0), .fmin 0 (tV 2 0 0), .fmax 0 (tV 2 0 0),
      .fabs 0 (tV 0 0 0), .fneg 0 (tV 0 0 7), .fcmp 0 (tV 2 0 0 5), .frcp 0 (tV 0 0 0), .frsq 0 (tV 0 0 0), .fsqrt 0 (tV 0 0 0),
      .fexp2 0 (tV 0 0 0), .flog2 0 (tV 0 0 0), .cvt 0 (tV 0 0 0 (8 + 32 * 0x7FFF)), .cvt 0 (tV 0 0 0 6 2)] : List Instr), Issues tRun i :=
  allIssue _ _ (by decide +kernel)

theorem test_wit_VectorPermutations :
    ∀ i ∈ ([.bcast 0 (tV 0 0 0 255), .rot 0 (tV 0 0 0 255), .ilv 0 (tV 2 0 0), .dilv 0 (tV 2 0 0 1)] : List Instr), Issues tRun i :=
  allIssue _ _ (by decide +kernel)

/-- Scalar registers: s1 a block pair (0x40, 0x8000), s2 the entry 65,535 of array 3, s3 0x40, s5 a pass's activations, s6 its tile, s7 its
entries. -/
def tMem : State := { tRun with cores := [(0, { st := .running, sregs := [(1, 0x40 + 0x8000 <<< 23), (2, 0x3FFFF), (3, 0x40),
  (5, 0x400 + 0x10000 <<< 23 + 128 <<< 46), (6, 0x20000 + 0x30000 <<< 23), (7, 128 <<< 16)] })] }

theorem test_wit_VectorLoads :
    (∀ i ∈ ([.vld 0 ⟨3, 3, 0, 0, 0, 0, 0, 0, 0, 0⟩, .vld 0 ⟨3, 0, 0, 0, 0, 0, 8, 0, 0, 0x80000⟩, .unpack 0 ⟨3, 1, 0, 0, 0, 0, 0x09, 0, 0, 0x8000⟩,
      .ard 0 ⟨3, 0, 2, 0, 0, 0, 7, 0, 0, 0⟩] : List Instr), Issues tMem i) ∧
      tMem.physArray 0 (fld ((tMem.core 0).sreg 2) 16 2) = some 3 :=
  ⟨allIssue _ _ (by decide +kernel), by decide +kernel⟩

theorem test_wit_VectorStores :
    (∀ i ∈ ([.vst 0 ⟨3, 3, 2, 4, 0, 3, 1, 0, 0, 0⟩, .pack 0 ⟨3, 1, 2, 4, 0, 0, 0x09, 0, 2, 0x8000⟩,
      .packx 0 ⟨3, 1, 2, 4, 0, 0, 0x0D, 0, 0, 0x50000⟩, .sard 0 ⟨31, 3, 0, 0, 0, 0, 0, 0, 0, 0⟩,
      .adrn 0 ⟨0, 3, 2, 4, 0, 1, 0, 0, 0, 0⟩, .awr 0 ⟨3, 0, 2, 0, 7, 0, 7, 0, 0, 0⟩] : List Instr), Issues tMem i) ∧
      tMem.physArray 0 (fld ((tMem.core 0).sreg 2) 16 2) = some 3 ∧
      (tMem.core 0).writeWaits 0 0 (tileAddr 0 0x40) 1024 = false ∧ (tMem.core 0).heldMeets 0 (tileAddr 0 0x40) 1024 = false ∧
      [(0x40, 1024), (0x8000, 8)].Pairwise (fun x y => x.1 + x.2 ≤ y.1 ∨ y.1 + y.2 ≤ x.1) :=
  ⟨allIssue _ _ (by decide +kernel), by decide +kernel⟩

theorem test_wit_VectorReductions :
    ∀ i ∈ ([.rsum 0 (tV 0 0 7 8), .rssq 0 (tV 0 0 7 1), .rmax 0 (tV 0 0 7 8), .rmin 0 (tV 0 0 7 1)] : List Instr), Issues tRun i :=
  allIssue _ _ (by decide +kernel)

theorem test_wit_IdleStepPassesOneCycle : tRun.pending = [] ∧ tRun.cycle % 4 = 0 := by decide +kernel

/-- A single pass of one vector, one segment and one tile on array 0 whole. -/
def tPass : MatrixSlot := ⟨1, 0, 0, 0, 0, 0, 0, 0, 0, 0, 0, 5, 6, 7, 0, 0, 0⟩
/-- The pass it is, of chain position `ch`, in its queue. -/
def tThePass (started : Bool) (ch : Nat) (keep : Bool := false) : Pass :=
  { seq := 0, bundle := 0, par := { passParams (tMem.core 0) tPass with chain := ch, keep := keep }, started := started }
/-- That pass in its queue. -/
def tQueued (started : Bool) (ch : Nat) (u : HalfUnit) (keep : Bool := false) : State :=
  tMem.modCore 0 fun k => k.modArray 0 fun a => a.modHalf 0 fun _ => { u with passes := [tThePass started ch keep] }

theorem test_wit_PassesAndWeights :
    Issues tMem (.pass 0 tPass) ∧
      let s := tQueued false 0 {}
      let p := tThePass false 0
      s.live = true ∧ oldest (s.half 0 0 0) = some p ∧ nextLoad (s.half 0 0 0) = some p ∧ tileReady (s.half 0 0 0) p.par.wmode = false ∧
        (s.half 0 0 0).failed = false ∧ passReadsReady s 0 p (((s.core 0).array 0).sources 0) = true ∧
        tokenAhead ((s.core 0).array 0) 0 p = false :=
  ⟨issues_of_issuesB _ _ (by decide +kernel), by decide +kernel⟩

/-- A fault that the residue of a sum catches. -/
def tFault : ArrayFault := ⟨0, 0, 0, .sum 1, 0⟩

theorem test_wit_PassResults :
    (∀ ch ∈ [0, 3], let s := tQueued true ch {}
      let p := tThePass true ch
      s.live = true ∧ oldest (s.half 0 0 0) = some p ∧ s.physArray 0 0 = some 0 ∧ p.started = true ∧ (s.half 0 0 0).failed = false ∧
        passReadsReady s 0 p p.met = true ∧ spanBlocked s 0 0 0 p = false ∧ p.par.cols ≤ p.par.accStride ∧ p.par.span ≤ 65536 ∧
        caught s 0 p.par ((s.core 0).array 0).weights tFault = true) ∧
      let s := tQueued false 0 {} true
      let p := tThePass false 0 true
      s.live = true ∧ oldest (s.half 0 0 0) = some p ∧ p.par.keep = true ∧ configReady ((s.core 0).array 0) p = true ∧
        passReadsReady s 0 p (((s.core 0).array 0).sources 0) = true ∧ spanBlocked s 0 0 0 p = false := by decide +kernel

theorem test_wit_ReplayAndArbitration :
    (let s := tQueued true 0 { failed := true }
     let chain := chainOf (s.half 0 0 0).passes
     s.live = true ∧ s.physArray 0 0 = some 0 ∧ (s.half 0 0 0).failed = true ∧ (s.half 0 0 0).recurred = false ∧
       (compareArray s 0 0).isSome = true ∧ PassStatus.residue ∈ (runChain s 0 0 0 (some tFault) chain (s.half 0 0 0).chainTile).2.1) ∧
     let s := tQueued true 0 { failed := true, recurred := true }
     s.live = true ∧ s.physArray 0 0 = some 0 ∧ (s.half 0 0 0).failed = true ∧ (s.half 0 0 0).recurred = true ∧
       (compareArray s 0 0).isSome = true := by decide +kernel

/-! ### Witnesses: move and sync slots, core control -/

/-- Scalar registers of a copy: s1 a DRAM source, s2 a tile store destination, s3 a length, s4 pitches. -/
def tMove : State := { tRun with cores := [(0, { st := .running, sregs := [(1, 0x1000), (2, 0x4000000000), (3, 64),
  (4, 64 + 64 <<< 32), (5, 1 + 64 <<< 16)] })] }
/-- A copy of 64 bytes at the front of queue 0 of core 0. -/
def tCopy : Transfer := {
  kind := .copy, src := 0x1000, dst := 0x4000000000, rows := 1, rowLen := 64, srcPitch := 0, dstPitch := 0,
  desc := descOf [], te := true, tok := 3, seq := 0, bundle := 0, ran := false }
def tCopying : State := tMove.modCore 0 fun k => k.setQueue 0 [tCopy]

/-- A transfer of a group that has run. -/
def tRanGather : State := tMove.modCore 0 fun k => k.setQueue 0 [{ tCopy with kind := .gather, ran := true }]

theorem test_wit_Copies :
    (∀ i ∈ ([.copy 0 ⟨0, 1, 2, 3, 0, 1, 63, 0⟩, .scopy 0 ⟨3, 1, 2, 5, 4, 0, 0, 0⟩] : List Instr), Issues tMove i) ∧
      (∀ s ∈ [tCopying, tRanGather], s.live = true ∧ s.stopped = false ∧ ((s.core 0).token tCopy.tok.toNat).toNat + 1 < 2 ^ 32) ∧
      (tCopying.core 0).queue 0 = tCopy :: [] ∧ (tCopy.kind = .copy ∨ tCopy.kind = .scopy) ∧ transferBlocked tCopying 0 tCopy = false ∧
      (tCopy.segs.all fun (_, d, n) => slotCheck (fetchHeads tCopying tCopy) d n) = true ∧ tCopying.errs = [] ∧
      (∀ v : VaultId, (tCopying.vault v).inj.arm = false) ∧ (tCopying.core 0).heldWrites = [] ∧
      (∀ x ∈ tCopy.segs, (x.1 < Config.accBase ∨ Config.accEnd ≤ x.1) ∧ (x.2.1 < Config.accBase ∨ Config.accEnd ≤ x.2.1)) ∧
      tCopy.segs.Pairwise (fun x y => x.2.1 + x.2.2 ≤ y.2.1 ∨ y.2.1 + y.2.2 ≤ x.2.1) ∧
      (tRanGather.core 0).queue 0 = { tCopy with kind := .gather, ran := true } :: [] ∧ tCopy.te = true :=
  ⟨allIssue _ _ (by decide +kernel), by decide +kernel⟩

/-- A group of two slots of 128 bytes at 0x2000. -/
def tGroup : Desc := ⟨1 <<< 10, 0x2000, 128, 0, 0, 0, 0, 0⟩
/-- A gather descriptor of group 0, version 5, staged at 0x3000. -/
def tGather : Desc := ⟨5 <<< 32, 0x3000, 0, 64, 0, 0, 0, 0⟩
/-- A state whose front transfer is of kind `kd`, with `heads` in memory. -/
def tVersion (kd : TransferKind) (heads : SMap Byte) : State :=
  { (tMove.modCore 0 fun k => k.setQueue 0 [{ tCopy with kind := kd, desc := tGather }] : State) with
    job := some { tJob with prog := { tProg with groups := [tGroup] } }, mem := heads }
/-- The bytes of a head of version 5, group 0, in state `st`, at a. -/
def tHead (a : Nat) (st : Byte) : SMap Byte := [(a, 5), (a + 5, st <<< 2)]

/-- The read of the head of group 0's slot of version 5. -/
def tSlot (s : State) : Nat × Bool :=
  let a := slotAddr tGroup 5
  (readN (fetchRange s a 64) a 8, poisonedIn (fetchRange s a 64) a 8)

theorem test_wit_VersionedGather :
    (∀ kd ∈ [TransferKind.openV, .publish, .gather], let s := tVersion kd []
      s.live = true ∧ s.stopped = false ∧ groupEntry s 0 = some tGroup ∧
        (s.core 0).queue 0 = { tCopy with kind := kd, desc := tGather } :: [] ∧ tCopy.ran = false ∧
        (tSlot { s with marks := [(slotAddr tGroup 5 / 64, true)] }).2 = true) ∧
    (∀ st ∈ [0, 2], let x := tSlot (tVersion .openV (tHead 0x2080 st))
      x.2 = false ∧ (headState x.1 = 0 ∨ headVer x.1 + groupSlots tGroup ≠ 5)) ∧
    (let x := tSlot (tVersion .publish (tHead 0x2080 1))
     x.2 = false ∧ headState x.1 = 1 ∧ headVer x.1 = 5 ∧ headGroup x.1 = 0) ∧
    (let s := tVersion .gather (tHead 0x3000 2)
     let sz := fld tGroup.w2 0 40
     let heads := (List.range (gatherShards s tGroup)).foldl (fun s i => fetchRange s (0x3000 + i * sz) 64) s
     transferBlocked s 0 { tCopy with kind := .gather, desc := tGather } = false ∧ (s.core 0).heldWrites = [] ∧
       ∀ i < gatherShards s tGroup, headFault heads (0x3000 + i * sz) 0 5 = none) := by decide +kernel

theorem test_wit_SyncOperations :
    (∀ i ∈ ([.wait 0 63 true false 0, .wait 0 0 true true 6, .signal 0 63 31 0xFFFF, .tset 0 63 0xFFFFF, .claim 0 15 31,
      .wset 0 15 1] : List Instr), Issues tRun i) ∧
      Ready tRun 0 [] ∧ ((tRun.core 0).token 0).toNat < (1 : BitVec 20).toNat :=
  ⟨allIssue _ _ (by decide +kernel), by unfold Ready; decide +kernel, by decide +kernel⟩

/-- Core 0 with a token 0 of value v and a signal to core 1. -/
def tToken (v : BitVec 32) : State := { tRun with cores := [(0, { st := .running, tokens := [(0, v)], signals := [⟨0, 1, 2, 0xFFFF⟩] })] }

theorem test_wit_TokenIncrements :
    (tToken 0xFFFFFFFE).live = true ∧ (((tToken 0xFFFFFFFE).core 0).token 0).toNat + 1 < 2 ^ 32 ∧
      (((tToken 0xFFFFFFFF).core 0).token 0).toNat + 1 = 2 ^ 32 ∧ ((tToken 0xFFFFFFFF).core 0).st = .running ∧
      ((tToken 0).core 0).signals = (⟨0, 1, 2, 0xFFFF⟩ : Signal) :: [] ∧ writesDone ((tToken 0).core 0) 0 = true ∧
      (((tToken 0).core 1).token 2).toNat + 0xFFFF < 2 ^ 32 := by decide +kernel

theorem test_wit_TokenOverflow :
    ((tToken 0xFFFFFFFF).core 0).st ≠ .halted ∧ ((tToken 0xFFFFFFFF).core 0).st ≠ .window ∧
      2 ^ 32 ≤ (((tToken 0xFFFFFFFF).core 0).token 0).toNat + 1 ∧ (tToken 0xFFFFFFFF).live = true ∧
      (let s : State := { tRun with cores := [(0, { st := .running, tokens := [(2, 0xFFFF0001)], signals := [⟨0, 0, 2, 0xFFFF⟩] })] }
       (s.core 0).signals = (⟨0, 0, 2, 0xFFFF⟩ : Signal) :: [] ∧ writesDone (s.core 0) 0 = true ∧
         2 ^ 32 ≤ ((s.core 0).token 2).toNat + 0xFFFF ∧ (s.core 0).st ≠ .halted ∧ (s.core 0).st ≠ .window) := by decide +kernel

/-- A packet of TYPE `typ` from rank 1 to rank `dst` in sequence 0, sealed. -/
def tFrame (typ : BitVec 4) (vc : BitVec 3) (dst : BitVec 10) (payload : List Byte) (tag : BitVec 15 := 0) : Frame :=
  (⟨⟨typ, vc, false, 1, dst, 0, 0, 0, tag, 0, 0⟩, payload⟩ : Frame).sealed

/-- A job with barrier 0 of cores 0 and 1 here, barrier 1 of ranks 0 and 1, barrier 2 of ranks 0, 1 and 2; port 0 is UP. -/
def tBar (rank : Nat) : State :=
  { tRun with
    ports := [(0, { st := .up })]
    job := some { tJob with rank := rank, prog := { tProg with
      nD := 3, barriers := [[(0, 0), (0, 1)], [(0, 0), (1, 0)], [(0, 0), (1, 0), (2, 0)]] } } }

theorem test_wit_Barriers :
    (Ready (tBar 0) 0 [] ∧ ((tBar 0).core 0).barWait = none ∧ writesDone ((tBar 0).core 0) ((tBar 0).core 0).seqNo = true ∧
      (localMembers (tBar 0) 0).contains 0 = true ∧
      ((localMembers (tBar 0) 0).all fun m => m == 0 || ((tBar 0).barrier 0).arrived.contains m) = false ∧
      ((tBar 0).barrier 0).arrived.contains 0 = false) ∧
    ((tBar 0).live = true ∧ Arrives (tBar 0) 0 6 (tFrame 6 2 0 []) ∧ barRoot (tBar 0) 2 = (tBar 0).rank ∧
      (barRanks (tBar 0) 2).contains 1 = true ∧ ((tBar 0).barrier 2).ranks.contains 1 = false) ∧
    ((tBar 1).live = true ∧ Arrives (tBar 1) 0 7 (tFrame 7 2 1 []) ∧ (barRanks (tBar 1) 1).contains (tBar 1).rank = true ∧
      barRoot (tBar 1) 1 ≠ (tBar 1).rank) ∧
    Issues (((tBar 0).modBarrier 0 fun b => { b with gen := 1 }).modCore 0 fun k => { k with barWait := some (0, 0) }) (.bar 0 0) :=
  ⟨by unfold Ready; decide +kernel, by unfold Arrives; decide +kernel, by unfold Arrives; decide +kernel,
    issues_of_issuesB _ _ (by decide +kernel)⟩

/-- The bundle of ADD s4, s1, s2 as fetched. -/
def tFetched (bad : Bool) : Fetched := ⟨0, encodeBundle (scalarBundle ⟨0x02, 4, 1, (2 : BitVec 5) ++ (0 : BitVec 20)⟩), bad⟩
/-- Core 0 with the ring filled to bundle 2 and a fetched bundle. -/
def tFetching (bad : Bool) : State := tRun.modCore 0 fun k => { k with fill := 2, fetched := [tFetched bad] }

theorem test_wit_InstructionSupply :
    (tRun.live = true ∧ imageOf tRun 0 = some ⟨0, 0x100000, List.replicate 8 0⟩ ∧ (tRun.core 0).fill.toNat < 8 ∧
      (tRun.core 0).fill.toNat < (tRun.core 0).pc.toNat + Config.ringBundles) ∧
    (let k := (tFetching false).core 0
     k.fetched.length < 16 ∧ k.pc.toNat + k.fetched.length < k.fill.toNat ∧ k.ringLo.toNat ≤ k.pc.toNat + k.fetched.length ∧
       k.fetched = tFetched false :: [] ∧ (tFetched false).bad = false ∧ (decodeBundle (tFetched false).bits).scalar.op ≠ 0x17 ∧
       decodeBundle (tFetched false).bits = scalarBundle ⟨0x02, 4, 1, 0x200000⟩) ∧ Issues (tFetching false) (.add 0 4 1 2) :=
  ⟨by decide +kernel, by decide +kernel, issues_of_issuesB _ _ (by decide +kernel)⟩

theorem test_wit_PoisonedBundleHalts :
    canLook (tFetching true) 0 = true ∧ ((tFetching true).core 0).fetched = tFetched true :: [] ∧ (tFetched true).bad = true ∧
      UnitFault.none ≠ .parity := by decide +kernel

theorem test_wit_FetchedOperationIsTheCommand :
    opBundle (.add 0 4 1 2) = some (0, scalarBundle ⟨0x02, 4, 1, 0x200000⟩) ∧
      ((tFetching false).core 0).fetched = ⟨0, encodeBundle (scalarBundle ⟨0x02, 4, 1, 0x200000⟩), false⟩ :: [] := by decide +kernel

theorem test_wit_ExceptionsHaltTheirCore :
    canLook tRun 0 = true ∧
      (∀ x ∈ [(Instr.jmp 0 8, scalarBundle ⟨0x10, 0, 0, 8⟩, (5, 2, 0)), (.sld 0 4 1 0, scalarBundle ⟨0x0C, 4, 1, 0⟩, (7, 2, 0))],
        opBundle x.1 = some (0, x.2.1) ∧ lowestCause (bundleCauses tRun 0 x.2.1 false) = some x.2.2) ∧ Issues tRun (.trap 0 255) :=
  ⟨by decide +kernel, by decide +kernel, issues_of_issuesB _ _ (by decide +kernel)⟩

/-- Cores 0 and 16 with counts of TESTWIN, the partner waiting or not. -/
def tTest (here : Bool) (n : Nat) : State :=
  { tRun with cores := [(0, { st := .running }), (16, { st := .holding, twHere := here, twCount := n })] }

theorem test_wit_TestwinRendezvous :
    ∀ s ∈ [tTest false 0, tTest true 0, tTest true 1, (tTest true 0).modPair 0 fun p => { p with due := true }],
      Ready s 0 [] ∧ allDone s 0 = true := by
  unfold Ready
  decide +kernel

/-- Core 0 holding bundle b since cycle 0 under a timeout of 1 µs, at cycle n. -/
def tHold (n : Nat) (b : Bundle) (k : Core) : State :=
  { tRun with cycle := n, cores := [(0, { k with st := .holding, heldAt := some b, waitStart := some 0, waitTmo := 1 })] }

theorem test_wit_TimeoutsAndControl :
    (∀ n ∈ [799, 800], ∀ b ∈ [syncBundle ⟨1, 1⟩, syncBundle ⟨3, 0⟩, scalarBundle ⟨0x17, 0, 0, 0⟩],
      let s := tHold n b { twHere := b.scalar.op == 0x17 }
      let k := s.core 0
      s.live = true ∧ s.stopped = false ∧ k.st = .holding ∧ k.waitStart = some 0 ∧ k.waitTmo ≠ 0 ∧ k.heldAt = some b ∧
        (b.sync.op = 1 → waitHolds k b.sync = false) ∧ (b.sync.op = 3 → barHolds s 0 (syncGrp b.sync) = false) ∧
        (b.scalar.op = 0x17 → k.twHere = true)) ∧
    (∀ o ∈ [none, some 3], let s := { tRun with cores := [(0, { st := .halted, exc := { cause := 0x0B }, overflow := o })] }
     s.live = true ∧ (s.core 0).st = .halted ∧ ((s.core 0).exc.cause = 0x0B ∨ (s.core 0).exc.cause = 0x0E ∨ (s.core 0).exc.cause = 0x0F)) ∧
    (State.reset.core 0).st = .idle ∧ State.reset.live = true := by decide +kernel

/-- Pair 0 due since cycle 0, at a cycle. -/
def tDue (n : Nat) : State :=
  { tRun with cycle := n, cores := [(0, { st := .running, twHere := true }), (16, { st := .running })],
              integ := { pairs := [(0, { due := true })] } }

/-- The cores of pair 0 in a window since cycle 0. -/
def tWindow : State :=
  { tRun with cycle := 160000, cores := [(0, { st := .window, winStart := some 0 }), (16, { st := .window, winStart := some 0 })] }

theorem test_wit_CampionWindows :
    (∀ s ∈ [{ tRun with cycle := 200000000 }, { State.reset with cycle := 200000000 }],
      s.live = true ∧ s.stopped = false ∧ (s.pair 0).due = false ∧ pairBusy s 0 = false ∧ (s.pair 0).start + 200000000 ≤ s.cycle) ∧
    (let s := tDue 80000000
     (s.pair 0).due = true ∧ (s.pair 0).overdueSent = false ∧ (s.pair 0).dueAt + 80000000 ≤ s.cycle) ∧
    (let s := tDue 120000000
     (s.pair 0).due = true ∧ (s.pair 0).dueAt + 120000000 ≤ s.cycle ∧ s.integ.lab = false ∧ (s.core 0).winStart = none ∧
       (s.core 0).winForced = false ∧ windowReady (s.core 0) s.cycle = true) ∧
    (tWindow.live = true ∧ tWindow.stopped = false ∧ tWindow.waitingReset.cores = 0 ∧
      ∀ d ∈ pairCores 0, (tWindow.core d).winStart = some 0 ∧ 0 + 160000 ≤ tWindow.cycle) ∧
    (let s := { tRun with integ := { pairs := [(0, { mismatch := true })] } }
     s.live = true ∧ (s.pair 0).mismatch = true) := by decide +kernel

/-! ### Witnesses: vaults, records, power -/

theorem test_wit_VaultReadsAndWrites :
    let s := State.reset
    let d : Disturb := ⟨[(0, 1), (1, 2), (2, 5)], 0, false⟩
    s.live = true ∧ s.stopped = false ∧ 0x2FFFFFFFFF < Config.dramEnd ∧ mget [] s.errs 0 = [] ∧ mget 0 s.metaErrs 0 = 0 ∧
      rsOfPattern (patternXor [] [(35, (0xFFFF : BitVec 16).toNat)]) = .corrected [(35, 0xFFFF)] ∧ d.cmdFail = false ∧
      rsOfPattern (patternXor [] (patternOf d.syms)) = .uncorrectable ∧ (s.vault (vaultOf 0)).detWindow = s.nowNs / 1000000 ∧
      (s.vault (vaultOf 0)).detCount < 64 ∧ 0x2FFFFFFFC0 + [(0 : Byte)].length ≤ Config.dramEnd ∧ s.errs = [] ∧
      ∀ v : VaultId, (s.vault v).inj.arm = false := by decide +kernel

theorem test_wit_VaultEvents :
    let s := State.reset
    s.live = true ∧ (s.vault 63).otstop = false ∧ (s.vault 63).stDone = false ∧ (s.vault 63).inj.arm = false ∧ s.stopped = false ∧
      (s.vault 63).scrubEn = true := by decide +kernel

theorem test_wit_VaultEvents_summary :
    let s := { State.reset with cycle := 800000, vaults := [(0, { detFirst := some (1, 0x40), detSkipped := 3, detCount := 64 })] }
    s.live = true ∧ (s.vault 0).detWindow < s.nowNs / 1000000 := by decide +kernel

theorem test_wit_VaultEvents_scrub :
    ∀ pos ∈ [50335742, 50335743], let s := { State.reset with vaults := [(0, { scrubAct := true, scrubPos := pos })] }
      s.live = true ∧ s.stopped = false ∧ (s.vault 0).scrubEn = true := by decide +kernel

theorem test_wit_SramScrubAndDramTemperature :
    let s := State.reset
    let e := fun (w : SramWord) (n : Nat) => secded (mget 0 (burstFlips s (sramKey w) { len := n }).sramErrs (sramKey w))
    s.live = true ∧ s.stopped = false ∧
      ∀ w ∈ [SramWord.tile 31 0, .acc 127 0, .hot 63 0, .dir 63 0, .buffer (.platform 7) 0, .sharedCache 0],
        e w 0 = .clean ∧ e w 16 = .corrected 0 ∧ e w 17 = .uncorrectable := by decide +kernel

/-- A record of tile store 3. -/
def tHistRec : Rec := { code := 0x15, kind := 2, uclass := 5, uinst := 3 }
/-- A unit-history entry of that unit and place, of `n` events. -/
def tEntry (n : BitVec 32) : HistEntry := ⟨0, unitId 5 3, 1, 0x15, n, 0x40⟩
/-- A state whose unit history waits to write an entry. -/
def tHist (cycle : Nat) (since : Option Nat) : State :=
  { State.reset with cycle := cycle, integ := { histPending := [tEntry 2], failingSince := since } }

theorem test_wit_RecordsAndHistory :
    let s := { State.reset with errRing := [tHistRec] }
    s.live = true ∧ s.errRing = tHistRec :: [] ∧ (s.page (pageOfUnit 5 3)).errEn.getLsbD 2 = true := by decide +kernel

theorem test_wit_RecordsAndHistory_writes :
    ∀ x ∈ [(0, none), (800000000, some 0), (48000000000, some 0)], let s := tHist x.1 x.2
      s.live = true ∧ s.integ.histPending = tEntry 2 :: [] ∧ s.integ.failingSince = x.2 ∧ s.integ.uhfail = false ∧
        s.integ.history = [] := by decide +kernel

theorem test_wit_RecordsAndHistory_classifies :
    let s := { State.reset with integ := { histPending := [tEntry 16] } }
    let es := s.entriesFor (unitId 5 3) 0x40
    s.live = true ∧ (∃ e ∈ es, e.ekind = 1 ∧ unitKey e.unit = unitKey (unitId 5 3) ∧ e.ecode = 0x15) ∧
      2 ≤ eventsOf s es (unitId 5 3) (fun e => e.unit == unitId 5 3 && e.loc == 0x40) ∧
      16 ≤ eventsOf s es (unitId 5 3) (fun _ => true) ∧ classified s 5 (unitId 5 3) 0x40 = false := by decide +kernel

theorem test_wit_PowerCaps :
    State.reset.live = true ∧ 400 ≤ (400 : BitVec 11).toNat ∧ (1200 : BitVec 11).toNat ≤ 1200 ∧ ¬ (1201 : BitVec 11).toNat ≤ 1200 ∧
      ¬ 400 ≤ (399 : BitVec 11).toNat ∧ Agent.platformM ≠ .management ∧ mayWrite State.reset .platformM 2 = true := by decide +kernel

theorem test_wit_TansyDividesTheHeadroom :
    (let s := State.reset
     let cap : Nat := effectiveCap { s.tns with alertHeld := !s.pins.capAlertN && (s.tns.alertHeld || !s.stopped) } * 1024
     let demands := fun (m : TansySample) =>
       ((List.range 32).map (demand (s.modTns fun t => { t with est := updateEstimates s m }))).sum
     s.live = true ∧ s.tns.thermal = none ∧ (∀ x ∈ [cap, cap + 1], (cap : Int) - ((x : Int) - 0) ≤ 0) ∧
       0 < (cap : Int) - ((0 : Int) - 0) ∧ (demands ⟨0, [], [], []⟩ : Int) ≤ cap) ∧
    (let s := { State.reset with cycle := 8000000, tns := { allOneSince := some 0, pwrLast := 1200 * 100 * 1024 } }
     s.live = true ∧ s.tns.allOneSince = some 0 ∧ 0 + 8000000 ≤ s.cycle ∧
       s.tns.lastUnattainable ≠ some (s.cycle * 5 / 4 / 1000000000) ∧ effectiveCap s.tns * 100 * 1024 < s.tns.pwrLast) := by decide +kernel

theorem test_wit_DroopAndVoltage :
    (∀ n ∈ [0, 2], let s := { State.reset with cycle := 800000000, tns := { droopCuts := n } }
     s.live = true ∧ (s.core 0).droopCut = false ∧ s.tns.droopSecond < s.cycle * 5 / 4 / 1000000000 ∧
       mayWrite s .management 2 = true ∧ s.stopped = false) ∧
    (let s := { State.reset with cores := [(0, { droopCut := true })] }
     s.live = true ∧ (s.core 0).droopCut = true) ∧
    (let s := { State.reset with tns := { vreq := 750, vapplied := 749 } }
     s.tns.vapplied.toNat < s.tns.vreq.toNat ∧ s.tns.lastNotApplied ≠ some (s.cycle * 5 / 4 / 1000000000 / 60)) ∧
    ∀ x ∈ [(0, 30), (255, 30)], let s := { State.reset with
        flash := { base := { defaultRecord with slack := 30, vpart := 700 } }, tns := { adder := BitVec.ofNat 8 x.1 } }
      s.stopped = false ∧ 29 < s.flash.base.slack ∧
        (vreqOf s.flash.base.vpart s.tns.adder.toNat < 850 ∨ 850 ≤ vreqOf s.flash.base.vpart s.tns.adder.toNat) := by decide +kernel

theorem test_wit_Stops :
    (∀ halt ∈ [false, true], let s := { State.reset with plt := { romStarted := true }, tns := { stop := halt } }
      s.live = true ∧ s.plt.romStarted = true ∧ s.pins.coolOk = true ∧ s.pins.powered = true) ∧
    839 < ([(839 : BitVec 11), 840].map (·.toNat)).foldl max 0 ∧
    (let s := { State.reset with cycle := 48000000000, tns := { stop := true, stopSrc := .logic } }
     s.live = true ∧ s.tns.stop = true ∧ s.tns.halt = false ∧ s.tns.stopAt + 48000000000 ≤ s.cycle ∧ resumable s = true ∧
       s.waitingReset.warm = false ∧ s.waitingReset.job = false ∧ s.cycle ≤ s.tns.stopAt + 48000000000 ∧ s.sessions = []) := by decide +kernel

/-! ### Witnesses: lookups and the ledger -/

/-- Table 0: replicated, FP32, 32 elements, 8 rows at 0x4000, tiered or not, presence bits at 0x80000, parameters at 0x90000. -/
def tTable (tier : Bool) : TableDesc := ⟨32 <<< 16 + (if tier then 1 <<< 44 else 0), 7, 0x4000, 8, 0x80000, 0, 0x90000, 0⟩
/-- Feature 0 of table 0. -/
def tFeature : Feature := ⟨0, 4, 4, 4, false, 4, 4, 4⟩
/-- A started job with that table and two steps of ingest depth. -/
def tTabJob (tier : Bool) : Job := { tJob with prog := { tProg with tables := [tTable tier], features := [tFeature], inboxBytes := 4096 } }
/-- Batch 0: one bag of rows 2 and 7. -/
def tBatch : Batch := ⟨0, [⟨[0, 2], [2, 7], []⟩], [], 1⟩
/-- Core 0 runs, batch 0 is accepted; the parameter block says OPT 1 and 16 slots. -/
def tTab (tier : Bool) : State :=
  { tRun with job := some (tTabJob tier), batches := [tBatch], mem := [(0x90000, 1), (0x90022, 2), (0x90028, 16)] }
/-- A sum lookup of feature 0 in FP32 to 0x8000, DESC_ID 9, token 1 of core 0. -/
def tLook : Desc := ⟨1 + 9 <<< 16 + 1 <<< 52, 0x8000, 128, 0xFFFFFFFF, 0, 0, 0, 0⟩
/-- That lookup, open. -/
def tOpen (waiting granted : List Nat) (resps : List (Nat × List RespRecord)) : Lookup :=
  ⟨9, 0, tLook, 0, 0, waiting, granted, resps, false, false⟩

theorem test_wit_Lookups :
    let s := tTab false
    s.live = true ∧ s.stopped = false ∧ NothingWaits s ∧ arrives s 0 none tLook true = true ∧ arrives s 0 none tLook false = true ∧
      lookupReserved tLook = false ∧ openLookups s 0 < 64 ∧ tableOf s (dTable tLook) = some (tTable false) ∧ lookupFault s tLook = 0 ∧
      lookupFault { s with batches := [] } tLook ≠ 0 ∧ lookupReserved { tLook with w7 := 1 } = true ∧
      openLookups { s with lookups := List.replicate 64 (tOpen [1] [] []) } 0 = 64 := by
  unfold NothingWaits
  decide +kernel

theorem test_wit_Lookups_count :
    let s := tTab false
    let m : CountMsg := ⟨9, 0, 1, 0, 0, 1, 1, 0⟩
    m.owner = s.rank ∧ (tableOf s m.table).isSome = true ∧ s.counts = [] ∧ freeTag s = some 64 := by decide +kernel

theorem test_wit_Lookups_payload :
    let l := tOpen [0] [] []
    let cnt : CountMsg := ⟨9, 0, 0, 0, 0, 2, 2, 1⟩
    let s := { tTab false with lookups := [l], counts := [cnt] }
    let own := payloadFor s (tTable false) (partOf s l.desc) l.descId l.batch s.rank (lPool l.desc == 2)
    NothingWaits s ∧ lookupOf s 0 9 = some l ∧ tableOf s (dTable l.desc) = some (tTable false) ∧ l.closed = false ∧
      l.waiting.contains s.rank = true ∧ tableOf s cnt.table = some (tTable false) ∧
      s.counts.find? (fun c => c.requester == own.requester && c.descId == own.descId && c.batch == own.batch) = some cnt ∧
      s.payloads = [] ∧ payloadOk (tTable false) own cnt = true ∧ fenceState s l.desc = 0 ∧
      (absentOf s (tTable false) own.rows).2 = [] := by
  unfold NothingWaits
  decide +kernel

theorem test_wit_Lookups_response :
    let l := tOpen [1] [1] []
    let s := { tTab false with lookups := [l] }
    NothingWaits s ∧ lookupOf s 0 9 = some l ∧ l.closed = false ∧ l.granted.contains 1 = true ∧ l.waiting.contains 1 = true := by
  unfold NothingWaits
  decide +kernel

theorem test_wit_LookupOutputs :
    let l := tOpen [] [] [(0, [⟨0, List.replicate 32 0, List.replicate 32 false⟩])]
    let s := { tTab false with lookups := [l] }
    let x := partOf s l.desc
    s.live = true ∧ s.stopped = false ∧ NothingWaits s ∧ ErrorFree s ∧ lookupOf s l.batch l.descId = some l ∧
      tableOf s (dTable l.desc) = some (tTable false) ∧ l.closed = false ∧ l.waiting = [] ∧
      lVector (tTable false) l.desc ≤ lPitch l.desc ∧ lOutputs l.desc x = 1 ∧
      (∀ g < lOutputs l.desc x, (outputBytes s (tTable false) l x g).length = lVector (tTable false) l.desc ∧
        landsNow s (lDst l.desc + g * lPitch l.desc) (lVector (tTable false) l.desc) = true) ∧
      ((s.core (lCore l.desc)).token (lTok l.desc)).toNat + 1 < 2 ^ 32 := by
  unfold NothingWaits ErrorFree
  decide +kernel

theorem test_wit_RowsComeOnChip :
    let s := tTab true
    let d := tTable true
    s.live = true ∧ s.stopped = false ∧ tableOf s 0 = some d ∧ s.jobRuns = true ∧ tTier d = true ∧
      ((List.range (tLrows d)).find? fun x => !present s d x && !fetching s 0 x) = some 0 ∧ (List.replicate 128 (0 : Byte)).length = tRec d ∧
      s.fetches = [] := by decide +kernel

theorem test_wit_RowsComeOnChip_fetch :
    let s := { tTab true with cycle := 8000000000, fetches := [⟨0, 7, 0, none, 3⟩] }
    let d := tTable true
    NothingWaits s ∧ s.rowJobs = [] ∧ ErrorFree s ∧ (s.fetches.find? fun f => f.table == 0 && f.lidx == 7 && f.seq == 3) = some ⟨0, 7, 0, none, 3⟩ ∧
      recordAddr d 7 + tRec d ≤ Config.dramEnd ∧ recordAddr d 7 + tRec d ≤ tPbase d + 7 / 8 ∧ tPbase d + 7 / 8 < Config.dramEnd ∧
      s.tierTmo ≠ 0 ∧ 0 + 800 * s.tierTmo.toNat ≤ s.cycle := by
  unfold NothingWaits ErrorFree
  decide +kernel

/-- Table 0 as one with prefetch. -/
def tPre (tier : Bool) : TableDesc := { tTable tier with w0 := (tTable tier).w0 ||| 1 <<< 42 }
/-- The state with that table. -/
def tPreState (tier : Bool) : State :=
  { tTab tier with job := some { tJob with prog := { tProg with tables := [tPre tier], features := [tFeature], inboxBytes := 4096 } } }

theorem test_wit_RowsComeOnChip_prefetch :
    (let s := tPreState false
     let d := tPre false
     let v := s.vault (vaultOf (recordAddr d 7))
     s.live = true ∧ s.stopped = false ∧ tableOf s 0 = some d ∧ tPrefetch (tTable false) = false ∧ tPrefetch d = true ∧ 7 < tLrows d ∧
       ErrorFree s ∧ (absentOf s d [7]).2 = [] ∧ tW d ≤ 128 ∧ 0 < tW d ∧ v.sliceOff = false ∧
       (v.entry (hotSet (chunkUnit (recordAddr d 7))) 0).valid = false) ∧
    (absentOf (tPreState true) (tPre true) [7]).2 = [7] ∧ fetching (tPreState true) (tId (tPre true)) 7 = false := by
  unfold ErrorFree
  decide +kernel

/-- Table 0 with prefetch and a pinned set. -/
def tPin : TableDesc := { tTable false with w0 := (tTable false).w0 ||| 3 <<< 42 }
/-- The state with that table. -/
def tPinState : State :=
  { tTab false with job := some { tJob with prog := { tProg with tables := [tPin], features := [tFeature], inboxBytes := 4096 } } }
/-- A row descriptor of kind k: DESC_ID 9, token 1, core 0, one row listed or imported at 0x8000, or row 0 exported there. -/
def tRowDesc (k : Nat) : Desc :=
  if k = 4 then ⟨4 + 9 <<< 16 + 1 <<< 32, 0x8000, 0, 1, 0, 4096, 0, 0⟩ else ⟨BitVec.ofNat 64 k + 9 <<< 16 + 1 <<< 32, 0x8000, 1, 0, 0, 0, 0, 0⟩

theorem test_wit_RowDescriptors :
    let s := tPinState
    s.live = true ∧ s.stopped = false ∧ ErrorFree s ∧ ∀ k ∈ [2, 3, 4],
      let d := tRowDesc k
      arrives s 0 none d true = true ∧ arrives s 0 none d false = true ∧ rowReserved k { d with w7 := 1 } = true ∧
        rowReserved k d = false ∧ tableOf s (dTable d) = some tPin ∧ rowFault s k tPin d = 0 := by
  unfold ErrorFree
  decide +kernel

theorem test_wit_RowDescriptors_runs :
    let s := tPinState
    let job := fun (k : Nat) => (⟨9, 1, 0, 0, tRowDesc k, 0, 0, false⟩ : RowJob)
    let v := s.vault (vaultOf (recordAddr tPin 0))
    jobRows s tPin (job 2) = [0] ∧ jobRows s tPin (job 3) = [] ∧ jobRows s tPin (job 4) = [0] ∧ (absentOf s tPin [0]).2 = [] ∧
      importedRows s tPin (job 3) = [0] ∧ s.fetches = [] ∧ (tRowDesc 4).w0.getLsbD 45 = false ∧
      landsNow s (exportRange s tPin (tRowDesc 4)).1 (exportRange s tPin (tRowDesc 4)).2 = true ∧ tW tPin = 128 ∧ v.sliceOff = false ∧
      pinnedIn v (hotSet (chunkUnit (recordAddr tPin 0))) < 6 ∧ (v.entry (hotSet (chunkUnit (recordAddr tPin 0))) 0).valid = false ∧
      recordAddr tPin 0 + tRec tPin ≤ tPbase tPin ∧ tPbase tPin < Config.dramEnd ∧ exportRows s tPin (tRowDesc 4) = [0] := by decide +kernel

theorem test_wit_RowDescriptors_faults :
    let s := tPinState
    rowFault s 3 tPin { tRowDesc 3 with w1 := 0x4000, w2 := 1 } = 0 ∧ rowFault { s with mem := [(0x8000, 8)] } 3 tPin (tRowDesc 3) = 0x37 ∧
      rowFault { s with banks := [(0, { state := 1 })] } 3 { tPin with w6 := 0x90000 } (tRowDesc 3) = 0x38 ∧
      rowFault s 4 tPin { tRowDesc 4 with w5 := 1 } = 0x39 := by decide +kernel

theorem test_wit_RowDescriptors_complete :
    let j : RowJob := ⟨9, 1, 0, 0, tRowDesc 2, 0, 0, true⟩
    let s := { tPinState with rowJobs := [j] }
    s.live = true ∧ s.stopped = false ∧ (s.rowJobs.find? fun j => j.descId == 9 && j.tok == 1 && j.core == 0) = some j ∧ j.ran = true ∧
      ((s.core 0).token 1).toNat + 1 < 2 ^ 32 := by decide +kernel

/-- The state with the bank of step 0. -/
def tBank (b : Bank) : State := { tTab false with banks := [(0, b)] }
/-- A GRAD of lookup 9 from 0x8000. -/
def tGrad : Desc := ⟨5 + 9 <<< 16 + 1 <<< 32, 0x8000, 128, 9, 0, 0, 0, 0⟩
/-- A SEAL, APPLY or COMMIT of step 0. -/
def tLedger (k : Nat) (crec : Word) : Desc := ⟨BitVec.ofNat 64 k + 9 <<< 16 + 1 <<< 32, crec, 0, 0, 0, 0, 0, 0⟩
/-- An open bank of step 0 with lookup 9 of batch 0 complete. -/
def tGradable : State := { tBank { state := 1 } with lookups := [{ tOpen [] [] [] with outDone := true, closed := true }] }

theorem test_wit_LedgerBanks :
    let s := { tTab false with scales := [(0, some ⟨0, -20⟩)] }
    s.live = true ∧ s.stopped = false ∧ tableOf s 0 = some (tTable false) ∧ (paramsOf s (tTable false)).opt ≠ 0 ∧
      mget none s.scales 0 = some ⟨0, -20⟩ ∧ (s.bank 0 0).state = 0 ∧ s.jobRuns = true ∧ s.waitingFolds = [] ∧ s.waitingMarkers = [] ∧
      s.waitingGrads = [] := by decide +kernel

theorem test_wit_LedgerBanks_grad :
    let s := tGradable
    arrives s 0 none tGrad true = true ∧ arrives s 0 none tGrad false = true ∧ dTable tGrad = 0 ∧ s.waitingGrads = [] ∧
      ledgerReserved 5 { tGrad with w7 := 1 } = true ∧ ledgerReserved 5 tGrad = false ∧
      gradFault s tGrad (descPlace s 0 none tGrad).cycle = 0 ∧ gradFault (tBank { state := 1 }) tGrad 0 ≠ 0 ∧
      bankIsOpen s 0 (gBatch tGrad) = true ∧ bankIsOpen { s with banks := [] } 0 (gBatch tGrad) = false ∧
      ((s.core (rCore tGrad)).token (rTok tGrad).toNat).toNat + 1 < 2 ^ 32 := by decide +kernel

theorem test_wit_LedgerBanks_seal :
    let s := tGradable
    let d := tLedger 6 0
    arrives s 0 none d true = true ∧ arrives s 0 none d false = true ∧ dTable d = 0 ∧ dStep d = 0 ∧
      ledgerReserved 6 { d with w7 := 1 } = true ∧ ledgerReserved 6 d = false ∧ tFrozen s (tTable false) = false ∧
      sealGone s 0 0 = false ∧ sealGone (tBank { state := 2, sealIssued := true }) 0 0 = true ∧ bankIsOpen s 0 0 = true ∧
      gradsPending s 0 0 (descPlace s 0 none d).cycle = false := by decide +kernel

theorem test_wit_LedgerBanks_messages :
    let s := tBank { state := 1 }
    let past := tBank { state := 3 }
    let m : EndMarker := ⟨0, 0, 1, 3⟩
    m.table = 0 ∧ m.step = 0 ∧ ownsRange s (tTable false) = true ∧ bankPast past 0 0 = true ∧ bankPast s 0 0 = false ∧
      bankIsOpen s 0 0 = true ∧ bankPast (tBank {}) 0 0 = false ∧ bankIsOpen (tBank {}) 0 0 = false ∧ (s.bank 0 0).markers = [] ∧
      mget 0 (s.bank 0 0).got m.source ≤ m.count ∧ usedIn (tTable false) (s.bank 0 0) (rowVault (tTable false) 7) < lCap s (tTable false) ∧
      (let s := tBank { state := 4, committed := true }
       (s.bank 0 0).step = 0 ∧ (s.bank 0 0).committed = true ∧ (s.bank 0 0).state ≠ 0) := by decide +kernel

theorem test_wit_SealsAppliesCommits :
    let k : LedgerTok := ⟨0, 0, 1, 9⟩
    let s := tBank { state := 2, sealTok := some k }
    s.live = true ∧ s.stopped = false ∧ tableOf s 0 = some (tTable false) ∧ (s.bank 0 0).sealTok = some k ∧ (s.bank 0 0).step = 0 ∧
      (s.bank 0 0).state = 2 ∧ (s.bank 0 0).decided = false ∧ sealFault (fetchParams s (tTable false)) (tTable false) (s.bank 0 0) = 0 ∧
      sealFault (fetchParams s (tTable false)) (tTable false) { s.bank 0 0 with capFault := true } ≠ 0 ∧ s.commitWait = [] ∧
      ((s.core 0).token 1).toNat + 1 < 2 ^ 32 := by decide +kernel

/-- The bank of step 0 decided, with slots of row 7 or none. -/
def tDecided (decide : BitVec 2) (used : SMap Nat) : State := tBank { state := 2, decided := true, decide := decide, used := used }

theorem test_wit_SealsAppliesCommits_apply :
    let d := tLedger 7 0
    (∀ s ∈ [tDecided 2 [], tDecided 0 [(7, 1)]],
      s.live = true ∧ s.stopped = false ∧ tableOf s 0 = some (tTable false) ∧ arrives s 0 none d true = true ∧
        arrives s 0 none d false = true ∧ dTable d = 0 ∧ ledgerReserved 7 d = false ∧ applyFault s d = 0 ∧ (s.bank 0 0).applies = [] ∧
        (s.bank 0 0).ran = false ∧ earlierApply s 0 (dStep d) = false ∧ exportFirst s 0 (dStep d) = false ∧
        (absentOf s (tTable false) ((s.bank 0 0).used.map (·.1))).2 = []) ∧
    ((tDecided 2 []).bank 0 0).decide = 2 ∧ ((tDecided 0 [(7, 1)]).bank 0 0).decide ≠ 2 ∧ ledgerReserved 7 { d with w7 := 1 } = true ∧
      applyFault (tBank { state := 1 }) d ≠ 0 := by decide +kernel

theorem test_wit_SealsAppliesCommits_absent :
    let d : TableDesc := tTable true
    let s := { tTab true with banks := [(0, { state := 2, decided := true, used := [(7, 1)] })] }
    tableOf s 0 = some d ∧ applyFault s (tLedger 7 0) = 0 ∧ (s.bank 0 0).decide ≠ 2 ∧
      (absentOf s d ((s.bank 0 0).used.map (·.1))).2 ≠ [] := by decide +kernel

theorem test_wit_SealsAppliesCommits_complete :
    let k : LedgerTok := ⟨0, 0, 1, 9⟩
    let s := tBank { state := 3, applies := [k], ran := true }
    NothingWaits s ∧ (s.bank 0 0).step = 0 ∧ (s.bank 0 0).applies = [k] ∧ (s.bank 0 0).ran = true ∧ s.rowJobs = [] ∧ s.commitWait = [] ∧
      (mget ({} : Bank) s.banks 1).applies = [] := by
  unfold NothingWaits
  decide +kernel

theorem test_wit_SealsAppliesCommits_commit :
    let d := tLedger 8 0x8000
    let w : CommitWait := ⟨0, 0x8000, ledgerTok 0 d⟩
    (∀ s ∈ [tBank { state := 4, decided := true, applied := true }, tBank { state := 1 }],
      arrives s 0 none d false = true ∧ ledgerReserved 8 d = false ∧ mayOutput s 0x8000 (commitBytes s) = true ∧
        s.commitWait.contains w = false ∧ s.mirror.mismatch = false ∧ stepHalted s 0 = false ∧ landsNow s 0x8000 (commitBytes s) = true) ∧
    ((trained (tBank { state := 4, decided := true, applied := true })).all fun t =>
      stepDone (tBank { state := 4, decided := true, applied := true }) 0 t) = true ∧
    ((trained (tBank { state := 1 })).all fun t => stepDone (tBank { state := 1 }) 0 t) = false ∧ ledgerReserved 8 { d with w7 := 1 } = true ∧
      mayOutput (tBank {}) 0x200000 (commitBytes (tBank {})) = false := by decide +kernel

/-! ### Witnesses: the fabric, dense state -/

/-- A program of four devices; the twin of rank 0 is rank 1. -/
def tFabProg : Program := { tProg with nD := 4, twinRank := some 1 }
/-- A job of that program, this device rank 0, with window 0 of 4 KiB at 0x8000 open to PUTs and mirror writes of every rank. -/
def tFab : State := { tRun with
  job := some { tJob with prog := tFabProg, placement := [0, 1, 2, 3] }
  xwin := [(0, (7 <<< 61 + 8 <<< 12, 1 <<< 12 + 0xFFC0000000000000))], ports := [(0, { st := .up }), (1, { st := .up }), (8, { st := .up })] }
/-- A PUT of `n` bytes to rank 1, DESC_ID 9, token 1 of core 0. -/
def tPut (n : Nat) : Desc := ⟨1 + 9 <<< 16 + 1 <<< 32, 0x1000, 0, BitVec.ofNat 64 n, 0, 0, 0, 1⟩
/-- A collective over axis 0 of `n` FP32 values, kind k. -/
def tColl (k n : Nat) : Desc := ⟨BitVec.ofNat 64 k + 1 <<< 4 + 9 <<< 16 + 1 <<< 32, 0x1000, 0x2000, BitVec.ofNat 64 n, 0, 0, 0, 0⟩
/-- An exchange operation of kind k that has written its outputs. -/
def tOp (k : Nat) (d : Desc) : XOp := ⟨0, 9, d, 0, 0, false, k, 0, 0, 0, [], [], [], 0, [], true, [], false, true, []⟩

theorem test_wit_ExchangeOperations :
    tFab.live = true ∧ tFab.stopped = false ∧ xopOf tFab 0 9 = none ∧
      ∀ kd ∈ [(1, tPut 64), (2, tColl 2 8), (3, tColl 3 8), (4, tColl 4 8)],
        arrives tFab 0 (some (0, false)) kd.2 false = true ∧ arrives tFab 0 (some (0, false)) kd.2 true = true ∧ xStray kd.2 = false ∧
          xStray { kd.2 with w7 := 1 <<< 63 } = true ∧ xchgFault tFab kd.1 false kd.2 = false ∧ xCount kd.2 ≠ 0 ∧ dId kd.2 = 9 ∧
          (descPlace tFab 0 (some (0, false)) kd.2).step = 0 ∧ xchgFault tFab (kd.1 + 1) false kd.2 = true := by decide +kernel

theorem test_wit_ExchangeOperations_empty :
    ∀ kd ∈ [(1, tPut 0), (2, tColl 2 0), (3, tColl 3 0), (4, tColl 4 0)],
      xStray kd.2 = false ∧ xchgFault tFab kd.1 false kd.2 = false ∧ xCount kd.2 = 0 ∧
        ((tFab.core (rCore kd.2)).token (rTok kd.2).toNat).toNat + 1 < 2 ^ 32 := by decide +kernel

theorem test_wit_ExchangeOperations_close :
    ∀ o ∈ [tOp 1 (tPut 64), tOp 2 (tColl 2 8)], let s := { tFab with xops := [o] }
      xopOf s o.step o.descId = some o ∧ o.written = true ∧ o.outbox = [] ∧ Arrives s 0 4 (tFrame 4 0 0 []) ∧
        Arrives s 0 5 (tFrame 5 0 0 []) ∧ haveLanded s (outputRange s o).1 (outputRange s o).2 = true ∧
        ((s.core (rCore o.desc)).token (rTok o.desc).toNat).toNat + 1 < 2 ^ 32 := by
  unfold Arrives
  decide +kernel

/-- A DATA packet of 16 bytes from rank 1 into window `tag`. -/
def tPkt (vc : BitVec 3) (tag : BitVec 15) : Packet :=
  ⟨tFrame 1 vc 0 (List.replicate 16 1) tag, ⟨0, 9, none, 0, 16, 0, 0, 0, 0, false, none⟩⟩
/-- A job of a torus with four devices on axis 0, this device rank 1. -/
def tTorus : State := { tFab with job := some { tJob with prog := { tFabProg with torus := true }, rank := 1 } }

theorem test_wit_FabricPackets :
    ∀ x ∈ [((0 : PortId), (2 : BitVec 3)), (8, 4)], let k := tPkt x.2 0
      tFab.live = true ∧ Arrives tFab x.1 1 k.frame ∧ classVc tFab x.1 k.tag = some k.frame.head.vc ∧ k.tag < 64 ∧
        windowOk tFab x.1 k = true ∧ k.body = List.replicate 16 1 ∧ tFab.errs = [] ∧ tFab.sramErrs = [] ∧
        ∀ v : VaultId, (tFab.vault v).inj.arm = false := by
  unfold Arrives
  decide +kernel

theorem test_wit_FabricPackets_transit :
    let s := tTorus
    let f := (⟨⟨1, 2, false, 0, 2, 0, 0, 0, 0, 0, 0⟩, List.replicate 16 1⟩ : Frame).sealed
    s.live = true ∧ (s.port 1).st = .up ∧ f.crcOk = true ∧ f.head.seq = (s.port 1).rxSeq ∧ f.malformed = false ∧
      (nextHop s 1 f.head).isSome = true := by decide +kernel

theorem test_wit_FabricPackets_control :
    (∀ t ∈ [(2 : BitVec 4), 3], Arrives tFab 0 t.toNat (tFrame t 0 0 [])) ∧ (tFab.port 0).st ≠ .quarantine ∧ (tFab.port 0).waiting = [] ∧
    (let l := tOpen [1] [] []
     let s := { tFab with job := some { tJob with prog := { tFabProg with tables := [tTable false], features := [tFeature] },
                                                  placement := [0, 1, 2, 3] }, lookups := [l], batches := [tBatch] }
     Arrives s 0 2 (tFrame 2 0 0 []) ∧ lookupOf s 0 9 = some l ∧ tableOf s (dTable l.desc) = some (tTable false) ∧ l.closed = false ∧
       l.waiting.contains 1 = true ∧ l.granted.contains 1 = false ∧ (freeTag s).isSome = true) := by
  unfold Arrives
  decide +kernel

theorem test_wit_FabricPackets_replay :
    ∀ n ∈ [6, 7], let e : ReplayEntry := ⟨5, 2, .ack 0 0, n⟩
      let p : ReplayEntry := ⟨4, 1, .ack 0 0, 0⟩
      let s := tFab.modPort 0 fun x => { x with replay := [p, e] }
      (s.port 0).st = .up ∧ (s.port 0).replay = [p] ++ e :: [] ∧ p.covers 5 = false ∧ e.covers 5 = true ∧ e.covers 6 = true ∧
        p.covers 6 = false := by decide +kernel

/-- The device of tFab with port 0 in a state. -/
def tPort (p : Port) : State := { tFab with ports := [(0, p)] }
/-- A link frame of HELLO or AUTH. -/
def tLink (typ : BitVec 4) : Frame := (⟨⟨typ, 0, false, 0, 0, 0, 0, 0, 0, 0, 0⟩, List.replicate 32 0⟩ : Frame).sealed
/-- The HELLO of rank 1 of a job. -/
def tHello (job : Word) : HelloPkt := ⟨3, 1, 3, job, 1, 0, 0⟩

theorem test_wit_LinkStates :
    (let s := tFab
     s.live = true ∧ s.xops = [] ∧ s.lookups = [] ∧ s.mirror.ckpt = none ∧ s.mirror.waitingSnaps = [] ∧ (s.job.bind (·.startAt)) = none ∧
       (s.port 2).st = .down ∧ (s.port 2).en = true) ∧
    (let x := (tPort { st := .train }).port 0
     x.st = .train ∧ max (max (widthOf 0 (failedGroups 0 (1 ||| x.dropped))) (2 : BitVec 2).toNat) (maxWidth 0 x) < 3 ∧
       3 ≤ max (max (widthOf 0 (failedGroups 0 (0xFFF ||| x.dropped))) (2 : BitVec 2).toNat) (maxWidth 0 x)) ∧
    (let s := { tPort { st := .train } with cycle := 800000000 }
     (s.port 0).st = .train ∧ (s.port 0).since + 800000000 ≤ s.cycle) ∧
    (let s := tPort { st := .hello, laneGen := 3 }
     let f := tLink 8
     (s.port 0).st = .hello ∧ f.crcOk = true ∧ f.head.typ.toNat = 8 ∧ f.malformed = false ∧
       (s.port 0).laneGen.toNat ≤ min (ownGen s 0).toNat (tHello 7).gen ∧
       ¬ (s.port 0).laneGen.toNat ≤ min (ownGen s 0).toNat { tHello 7 with gen := 2 }.gen) ∧
    ((tPort { st := .held }).port 0).st = .held ∧ ((tPort { st := .foreign, peerKey := some 1 }).port 0).peerKey.isSome = true := by
  decide +kernel

theorem test_wit_LinkStates_auth :
    let s := tPort { st := .auth, peerHello := some (tHello 7) }
    let f := tLink 9
    (s.port 0).st = .auth ∧ (s.port 0).peerHello = some (tHello 7) ∧ f.crcOk = true ∧ f.head.typ.toNat = 9 ∧ f.malformed = false ∧
      (s.port 0).peerKey = none ∧ (s.port 0).discRetrain = false ∧ sameJob s (tHello 7) = true ∧ placedPeer s 0 1 = true ∧
      placedPeer s 0 2 = false ∧ sameJob s (tHello 8) = false := by decide +kernel

theorem test_wit_LinkStates_timeouts :
    (let s := { tPort { st := .up, credTmo := 1, stalled := [(subchannel 2 false, 1)], waiting := [(subchannel 2 false, .ack 0 0)] } with
       cycle := 800000 }
     let x := s.port 0
     s.stopped = false ∧ x.st = .up ∧ mget 0 x.stalled (subchannel 2 false) = 1 ∧
       (x.waiting.any fun y => y.1 == subchannel 2 false) = true ∧ 1 - 1 + 800000 * x.credTmo.toNat ≤ s.cycle) ∧
    (let j : Job := { tJob with prog := tFabProg, started := false, startAt := some 0 }
     let s := { tPort {} with job := some j, cycle := 48000000000 }
     s.job = some j ∧ j.startAt = some 0 ∧ (cabledTo j.prog j.rank 0).isSome = true ∧ (s.port 0).st ≠ .up ∧ (s.port 0).upTmo ≠ 0 ∧
       0 + 800000000 * (s.port 0).upTmo.toNat ≤ s.cycle) := by decide +kernel

/-- A SNAP of step 0 with the bits of CKPT, DIG and HOSTCK. -/
def tSnap (bits : Word) : Desc := ⟨9 + 9 <<< 16 + 1 <<< 32 + bits, 0, 0, 0, 0, 0, 0, 0⟩
/-- A program of one replica region of one page, a checkpoint set of one page and a mirror region. -/
def tDenseProg : Program := { tProg with
  replicas := [⟨0x8000, 1, 1⟩], ckptSet := [⟨0x8000, 0x1000⟩], mirror := some ⟨0x40000, 0x10000⟩, twinRank := some 1 }
/-- The state with that program and mirror engine. -/
def tDense (m : Mirror) : State := { tRun with job := some { tJob with prog := tDenseProg }, mirror := m, ports := [(8, { st := .up })] }

theorem test_wit_SnapshotsAndCheckpoints_snap :
    let s := tDense { dirty := [(8, true)] }
    s.live = true ∧ s.stopped = false ∧ s.prog = some tDenseProg ∧ s.mirror.ckpt = none ∧ s.mirror.waitingSnaps = [] ∧
      (∀ x ∈ [1 <<< 44, 1 <<< 43, 5 <<< 43], arrives s 0 none (tSnap x) true = true ∧ arrives s 0 none (tSnap x) false = true ∧
        snapReserved (tSnap x) = false ∧ ((s.core (rCore (tSnap x))).token (rTok (tSnap x)).toNat).toNat + 1 < 2 ^ 32) ∧
      snDig (tSnap (1 <<< 44)) = true ∧ snCkpt (tSnap (1 <<< 44)) = false ∧ snCkpt (tSnap (1 <<< 43)) = true ∧
      (tDenseProg.mirror.isSome && (s.port twinPort).st == .up) = true ∧ snHost (tSnap (5 <<< 43)) = true ∧ s.ckptDest.isSome = false ∧
      snapReserved { tSnap 0 with w7 := 1 } = true ∧ (tDense { ckpt := some ⟨0, 2, [8], 0, false, none⟩ }).mirror.ckpt.isSome = true := by
  decide +kernel

theorem test_wit_SnapshotsAndCheckpoints_digests :
    (let s := tDense { digests := [⟨0, [], [0], [], false, 0⟩], digPend := [(8, true)] }
     s.mirror.digests ≠ [] ∧ mget false s.mirror.digPend 8 = true) ∧
    (let g : Digest := ⟨0, [], [0], [], false, 0⟩
     let s := tDense { digests := [g] }
     (s.mirror.digests.zipIdx.find? fun (y, i) => y.left.contains 0 && regionReady s i 0) = some (g, 0) ∧ g.left.erase 0 = [] ∧
       ∃ x, x ∈ [regionDigest s 0 (crcsOf s 0 g) + 1] ∧ x ≠ regionDigest s 0 (crcsOf s 0 g)) :=
  ⟨by decide +kernel, by decide +kernel, by decide +kernel, _, List.mem_singleton.2 rfl, by decide +kernel⟩

theorem test_wit_SnapshotsAndCheckpoints_twin :
    (let k : Ckpt := ⟨0, 2, [8], 0, false, none⟩
     let s := tDense { ckpt := some k }
     s.live = true ∧ s.stopped = false ∧ s.prog = some tDenseProg ∧ s.mirror.ckpt = some k ∧ k.pages[k.sent]? = some 8 ∧ k.form ≠ 3 ∧
       (s.mirror.copies.find? fun y => y.page == 8) = none ∧ (s.port twinPort).st = .up) ∧
    (let k : Ckpt := ⟨0, 2, [8], 1, true, some (0, 1)⟩
     let s := tDense { ckpt := some k }
     s.mirror.ckpt = some k ∧ k.headerSent = true ∧ s.mirror.waitingSnaps = [] ∧ ((s.core 0).token (1 : BitVec 6).toNat).toNat + 1 < 2 ^ 32) ∧
    (let s := { tDense {} with mem := [(0x40000 + offJstate, 2), (0x40000 + offJcount, 1)] }
     tDenseProg.mirror = some ⟨0x40000, 0x10000⟩ ∧ ErrorFree s ∧ readN s (0x40000 + offJstate) 8 = 2 ∧
       readN s (0x40000 + offJcount) 8 = 1 ∧ readN s (0x40000 + offIndex) 8 = 0 ∧ 1 ≤ tDenseProg.journalPages ∧
       0x40000 + offImage tDenseProg.journalPages + 4096 * 0 + 4096 ≤ Config.dramEnd ∧ readN (tDense {}) (0x40000 + offJstate) 8 ≠ 2) := by
  unfold ErrorFree
  decide +kernel

theorem test_wit_SnapshotsAndCheckpoints_host :
    let dest : BitVec 32 × BitVec 8 × Nat := (1, 2, 0)
    let with_ := fun (k : Ckpt) => { tDense { ckpt := some k } with
      ckptDest := some dest, sessions := [(1, { st := .attached, bufs := [(2, some ⟨4, 0, 65536, 5⟩)] })] }
    let k : Ckpt := ⟨0, 3, [8], 0, false, none⟩
    let s := with_ k
    (∀ k' ∈ [k, { k with sent := 1 }], (with_ k').mirror.ckpt = some k' ∧ k'.form = 3 ∧ (with_ k').ckptDest = some dest ∧
      ckptRoom (with_ k') 1 2 0 (k'.pages.length * 4112 + 64) = true) ∧
      k.pages[k.sent]? = some 8 ∧ ({ k with sent := 1 } : Ckpt).pages[1]? = none ∧ (takePage s 8).2.any (·.2) = false ∧
      (takePage { s with marks := [(0x8000 / 64, true)] } 8).2.any (·.2) = true ∧
      ckptRoom { s with sessions := [] } 1 2 0 (k.pages.length * 4112 + 64) = false := by decide +kernel

/-! ### Witnesses: the host link -/

/-- Whether a message is served, as a Bool. -/
def servesB (s : State) (h : ShlHead) (ty v l : Nat) : Bool :=
  let x := s.session h.sid
  s.live && portOpen s h.port.val && h.ok ty && h.ver.toNat == x.version && x.st == .attached && x.port == h.port.val && h.seq == x.rxSeq &&
    decide (v ≤ x.version) && decide (l ≤ x.level)

theorem serves_of_servesB (s : State) (h : ShlHead) (ty v l : Nat) (e : servesB s h ty v l = true) : Serves s h ty v l := by
  simp only [servesB, Bool.and_eq_true, beq_iff_eq, decide_eq_true_eq] at e
  obtain ⟨⟨⟨⟨⟨⟨⟨⟨h1, h2⟩, h3⟩, h4⟩, h5⟩, h6⟩, h7⟩, h8⟩, h9⟩ := e
  exact ⟨h1, h2, h3, h4, h5, h6, h7, h8, h9⟩

/-- A message of type ty on session `sid` with SEQ 5, or 0 for HELLO, TAG 77 and a body. -/
def tMsg (ty : Nat) (ver : BitVec 8) (sid : BitVec 32) (body : List Byte := []) : ShlHead :=
  (⟨0, ver, 0, 0, 0, if sid = 0 then 0 else 5, sid, 77, 0, body⟩ : ShlHead).sealed ty
/-- A device at ready with host port 0 up, no job, session 2 as given and session 3 opening in version 2. -/
def tHost (x : Session) : State := { State.reset with
  plt := { stage := .ready, romStarted := true }, hports := [(0, { link := 2 })], flash := { roots := [1] }
  sessions := [(2, { x with rxSeq := 5 }), (3, { st := .opening, version := 2, rxSeq := 5 })] }
/-- An attached session of version 3 and level 2. -/
def tSess : Session := { st := .attached, version := 3, level := 2 }

theorem test_wit_Sessions_open :
    let s := tHost tSess
    s.live = true ∧ portOpen s 0 = true ∧ (tMsg 1 1 0).seq = 0 ∧ (tMsg 1 1 0).ok 1 = true ∧ commonVersion 4 (s.hport 0).vmask = 3 ∧
      (s.sessions.filter fun z => z.2.port == 0).length < 16 ∧ commonVersion 0 (s.hport 0).vmask = 0 ∧
      (let h := tMsg 2 2 3
       h.ok 2 = true ∧ (s.session 3).st = .opening ∧ (s.session 3).port = h.port.val ∧ h.seq = (s.session 3).rxSeq ∧
         h.ver.toNat = (s.session 3).version) ∧
      (true && !s.flash.roots.isEmpty && !s.plt.noid) = true := by decide +kernel

theorem test_wit_Sessions_attach :
    let s := tHost { tSess with st := .detached, ticket := 9, version := 2 }
    let h := tMsg 3 2 3
    h.ok 3 = true ∧ (s.session 3).st = .opening ∧ (s.session 3).port = h.port.val ∧ h.seq = (s.session 3).rxSeq ∧
      h.ver.toNat = (s.session 3).version ∧ 2 ≤ (s.session 3).version ∧ (s.session 2).st = .detached ∧ (s.session 2).ticket = 9 ∧
      (s.session 2).version = (s.session 3).version ∧ (s.session 2).ticket ≠ 8 := by decide +kernel

theorem test_wit_Sessions_end :
    (let s := tHost tSess
     servesB s (tMsg 4 3 2) 4 1 0 = true ∧ (s.session 3).st = .opening ∧ (s.session 2).st = .attached ∧ (s.session 2).version ≠ 1 ∧
       (s.hport (s.session 2).port).grace ≠ 0 ∧ ({ s with hports := [(0, { grace := 0 })] } : State).hport 0 = { grace := 0 } ∧
       (s.hport 0).link = 2 ∧ (s.hport 1).en = true ∧ (s.hport 1).link ≠ 2 ∧ (s.page (0x1A + 1)).disabled = false) ∧
    ((tHost { tSess with version := 1 }).session 2).version = 1 ∧
    (let s := { tHost { tSess with st := .detached } with cycle := 480000000000 }
     (s.session 2).st = .detached ∧ (s.session 2).detachedAt + (s.hport (s.session 2).port).grace.toNat * 800000000 ≤ s.cycle) ∧
    (let s := { tHost tSess with hports := [(0, { link := 2, pfc := true })] }
     portOpen s 0 = true ∧ (s.hport 0).pfc = true) := by decide +kernel

/-- A session with buffers 1 (device-in), 2 (device-out), 3 (host source), 4 (host destination) and ring 0 of eight slots. -/
def tBufs : Session := { tSess with
  bufs := [(1, some ⟨1, 0x10000, 0x10000, 5⟩), (2, some ⟨2, 0x20000, 0x10000, 0⟩), (3, some ⟨3, 0, 0x100000, 6⟩),
    (4, some ⟨4, 0, 0x100000, 7⟩)]
  rings := [(0, some { base := 0x10000, n := 8, qp := 7 })]
  evt := some { buf := 4, off := 0, n := 8, prod := 2 } }
/-- The body of a BUF_OPEN. -/
def tBufBody (buf kind addr size : Nat) : List Byte := toBytes 1 buf ++ toBytes 1 kind ++ toBytes 6 0 ++ toBytes 8 addr ++ toBytes 8 size ++ toBytes 4 0

theorem test_wit_BuffersAndRings_open :
    let s := { tHost tBufs with job := some { tJob with prog := { tProg with hostWindows := [⟨0x30000, 0x10000⟩] } } }
    let x := s.session 2
    let body := tBufBody 9 1 0x30000 0x10000
    let b := bufBody body
    servesB s (tMsg 0x10 3 2 body) 0x10 1 1 = true ∧ b.kind = 1 ∧ b.rsvdOk = true ∧ 1 ≤ b.size ∧ b.size ≤ 2 ^ 48 ∧
      x.buffer b.buf.toNat = none ∧ b.rkey = 0 ∧ hostRegion s b.addr.toNat b.size = true ∧ inDram b.addr.toNat b.size = true ∧
      (bufBody (tBufBody 9 7 0x30000 0x10000)).kind = 7 ∧ servesB s (tMsg 0x10 3 2 (tBufBody 9 7 0x30000 0x10000)) 0x10 1 1 = true ∧
      servesB s (tMsg 0x11 3 2) 0x11 1 1 = true ∧ (x.buffer 3).isSome = true := by decide +kernel

theorem test_wit_BuffersAndRings_rings :
    let s := tHost tBufs
    let x := s.session 2
    servesB s (tMsg 0x12 3 2) 0x12 1 1 = true ∧ powerBetween 8 4096 8 = true ∧ powerBetween 8 4096 9 = false ∧
      bufferFault s 2 1 1 64 (64 * 8) = 0 ∧ bufferFault s 2 1 1 0xFFC0 (64 * 8) = 0x76 ∧ bufferFault s 2 9 1 0 64 = 0x77 ∧
      x.ring 63 = none ∧ x.ring 0 = some { base := 0x10000, n := 8, qp := 7 } ∧ x.buffer 1 = some ⟨1, 0x10000, 0x10000, 5⟩ ∧
      servesB s (tMsg 0x13 3 2) 0x13 1 1 = true ∧ servesB s (tMsg 0x14 3 2) 0x14 1 0 = true ∧ powerBetween 8 65536 8 = true ∧
      bufferFault s 2 4 4 0 (256 * 8) = 0 ∧ bufferFault s 2 4 4 0x100000 (256 * 8) ≠ 0 := by decide +kernel

theorem test_wit_BuffersAndRings_accesses :
    let s := tHost tBufs
    let y := s.session 2
    let ev : EvtRing := { buf := 4, off := 0, n := 8, prod := 2 }
    s.live = true ∧ y.st = .attached ∧ portOpen s y.port = true ∧ (y.ring 0).any (fun g => !g.closing && decide ((8 - g.cons).toNat ≤ g.n)) = true ∧
      (8 : Word).extractLsb' 0 32 = 8 ∧ y.ring 1 = none ∧ y.evt = some ev ∧ ev.cons + (2 - BitVec.ofNat 32 ev.cons).toNat ≤ ev.prod ∧
      s.stopped = false ∧ bufferFault s 2 1 1 0xFFFF 1 = 0 ∧ bufferFault s 2 1 1 0xFFFF 2 ≠ 0 ∧
      y.buffer 1 = some ⟨1, 0x10000, 0x10000, 5⟩ ∧ groupTableHit s (0x10000 + 0xFFFF) 1 = false := by decide +kernel

/-- A transfer of 64 bytes from buffer a to buffer b. -/
def tXfer (a b : BitVec 8) : XferBody := ⟨8, a, 0, b, 0, 64, 7⟩

theorem test_wit_HostTransfers_start :
    let s := tHost tBufs
    let x := s.session 2
    servesB s (tMsg 0x20 3 2) 0x20 1 1 = true ∧ (tXfer 3 1).qp ≤ 7 ∧ (x.xfers.any fun t => t.xid == 8) = false ∧ x.xfers.length < 64 ∧
      (x.xfers.all fun t => t.started || t.inDoubt) = true ∧ bufferFault s 2 3 3 0 64 = 0 ∧ bufferFault s 2 1 1 0 64 = 0 ∧
      x.buffer 1 = some ⟨1, 0x10000, 0x10000, 5⟩ ∧ mayProceed s 2 = true ∧ bufferFault s 2 2 2 0 64 = 0 ∧ bufferFault s 2 4 4 0 64 = 0 ∧
      x.buffer 2 = some ⟨2, 0x20000, 0x10000, 0⟩ ∧
      (poisonedGranules (fetchRange { s with marks := [(0x20000 / 64, true)] } 0x20000 64) 0x20000 64).head?.isSome = true := by
  decide +kernel

theorem test_wit_HostTransfers_move :
    let f : Xfer := ⟨8, false, 0, 0x10000, 3, 0, 2, true, 0, none, false⟩
    (let s := tHost { tBufs with xfers := [f] }
     s.live = true ∧ (s.session 2).st = .attached ∧ ((s.session 2).xfers.find? fun t => t.xid == 8) = some f ∧ f.started = true ∧
       f.inDoubt = false ∧ f.out = false ∧ s.stopped = false ∧ [(1 : Byte), 2].length = f.segment ∧
       groupTableHit s (f.dev + f.moved) 2 = false ∧ f.moved + 2 = f.len) ∧
    ((tHost { tBufs with xfers := [{ f with out := true }] }).session 2).xfers = [{ f with out := true }] ∧
    (let s := tHost { tBufs with xfers := [{ f with inDoubt := true }] }
     servesB s (tMsg 0x21 3 2) 0x21 2 1 = true ∧
       ((s.session 2).xfers.find? fun t => t.xid == 8 && t.inDoubt) = some { f with inDoubt := true } ∧
       ((s.session 2).xfers.find? fun t => t.xid == 9 && t.inDoubt) = none) := by decide +kernel

theorem test_wit_HostTransfers_places :
    let s := { tHost tBufs with job := some (tTabJob true) }
    let t := tTable true
    servesB s (tMsg 0x22 3 2) 0x22 3 1 = true ∧ tableOf s 0 = some t ∧ 128 % 64 = 0 ∧ tRec t ≤ 128 ∧ tTier t = true ∧ 0 ≤ 7 ∧ 7 < tLrows t ∧
      (s.tierSources.any fun y => recordsOverlap y 0 0 7) = false ∧ bufferFault s 2 3 3 0 ((7 - 0) * 128 + tRec t) = 0 ∧
      servesB s (tMsg 0x23 3 2) 0x23 3 1 = true ∧ bufferFault s 2 4 4 0 0 = 0 ∧ bufferFault s 2 3 4 0 0 ≠ 0 := by decide +kernel

/-- A program that a LOAD takes: no images, no tables and one slot. -/
def tLoadProg : Program := { tProg with nD := 2, images := [], windows := [], depth := 1, slots := [⟨4, none⟩] }
/-- The LOAD of it. -/
def tLoad : LoadBody := ⟨3, 0, 64, 64, 96, 5, false, tLoadProg, [0, 1], 0⟩

theorem test_wit_JobsAndRegisters_load :
    let s := tHost tBufs
    let s1 := s.modSession 2 fun y => { y with rxSeq := y.rxSeq + 1 }
    s.stopped = false ∧ servesB s (tMsg 0x30 3 2) 0x30 2 2 = true ∧ bufferFault s 2 3 3 0 64 = 0 ∧ bufferFault s 2 3 3 64 96 = 0 ∧
      deviceFault s = 0 ∧ tLoad.program.grade = s.grade ∧ ownRanks s tLoad.placement = [0] ∧
      tLoad.plLen = 48 * programSize tLoad.program ∧ tLoad.placement.length = programSize tLoad.program ∧
      (programFault (fetchBlocks (placeJob s1 tLoad 0)) tLoad.program 0 (tLoad.det || tLoad.program.detReq)).1 = 0 ∧
      (loadResult s1 { tLoad with placement := [1, 1] }).1.1 ≠ 0 ∧ bufferFault s 2 9 3 0 64 ≠ 0 := by decide +kernel

theorem test_wit_JobsAndRegisters_start :
    (let j : Job := { tJob with started := false }
     let s := { tHost tBufs with job := some j }
     servesB s (tMsg 0x31 3 2) 0x31 2 2 = true ∧ s.job = some j ∧ s.jobRuns = false ∧ j.stopped = false ∧ j.halted = false ∧
       j.startAt = none ∧ tiersCovered s j.prog = true ∧ cabledUp s = true) ∧
    (cabledUp { tHost tBufs with job := some { tJob with prog := tFabProg, started := false } } = false) ∧
    ({ tHost tBufs with job := some tJob } : State).jobRuns = true ∧ (tHost tBufs).job = none ∧
    tiersCovered { tHost tBufs with job := some (tTabJob true) } (tTabJob true).prog = false := by decide +kernel

theorem test_wit_JobsAndRegisters_registers :
    let s := tHost tBufs
    let s1 := s.modSession 2 fun y => { y with rxSeq := y.rxSeq + 1 }
    servesB s (tMsg 0x38 3 2) 0x38 1 0 = true ∧ pagePresent 0x20 = true ∧ pagePresent 0xFFF = false ∧ 0xFFF8 % 8 = 0 ∧ 0xFFF8 + 8 * 1 ≤ 2 ^ 16 ∧
      servesB s (tMsg 0x39 3 2) 0x39 1 0 = true ∧ mayWriteReg s (.session 2) 0x20 0x30 = true ∧
      regWrFault s1 (.session 2) 0xFFF 0 1 = 0x07 ∧ regWrFault (tHost { tSess with level := 0 }) (.session 2) 0x20 0x30 1 = 0x72 := by
  decide +kernel

/-- The bytes of a ready ring entry of step 0 whose image of 128 bytes lies in buffer 1. -/
def tEntryBytes : List Byte :=
  let e := toBytes 2 1 ++ [1, 0] ++ toBytes 4 0 ++ [1] ++ List.replicate 7 0 ++ toBytes 8 0 ++ toBytes 8 128 ++ toBytes 4 9 ++
    List.replicate 24 0
  e ++ toBytes 4 (crc32c e).toNat
/-- A started job with ring 0 advanced to one entry, and the entry in memory. -/
def tIngest (g : Ring) (m : SMap Byte) : State :=
  { tHost { tBufs with rings := [(0, some g)] } with job := some tJob, mem := m }
/-- The ring with the producer one ahead. -/
def tRing : Ring := { base := 0x10000, n := 8, qp := 0, prod := 1 }

theorem test_wit_IngestRings :
    (let s := tIngest tRing ((tEntryBytes.zipIdx.filter fun x => x.1 != 0).map fun x => (0x10000 + x.2, x.1))
     let e := readB (fetchRange s 0x10000 64) 0x10000 64
     s.live = true ∧ (s.session 2).ring 0 = some tRing ∧ ringReads s 2 tRing = true ∧ tRing.rereadAt = none ∧ entryReady tRing e = true ∧
       poisonedIn (fetchRange s 0x10000 64) 0x10000 64 = false ∧ entryFault s 2 e = 0 ∧ beyondDepth s (entryField e 4 4) = false ∧
       (s.session 2).buffer (entryField e 8 1) = some ⟨1, 0x10000, 0x10000, 5⟩) ∧
    (let g := { tRing with rereadAt := some 0, rereads := 6 }
     let s := tIngest g []
     ringReads s 2 g = true ∧ g.rereadAt = some 0 ∧ 0 ≤ s.cycle ∧ entryReady g (readB s 0x10000 64) = false ∧ g.rereads < 8) := by
  decide +kernel

theorem test_wit_IngestRings_images :
    let g := { tRing with cons := 1, image := [(0, 9, 0, 0x11000, 128)] }
    let s := fetchRange (tIngest g [(0x11008, 128), (0x11010, 128), (0x11018, 128)]) 0x11000 128
    s.stopped = false ∧ s.job = some tJob ∧ (checkImage s tJob 0x11000 128 0).offences = [] ∧
      (checkImage s tJob 0x11000 128 1).offences ≠ [] := by decide +kernel

/-! ### Witnesses: resets, registers, platform, memory -/

theorem test_wit_CoreAndJobResets :
    let s := State.reset
    s.live = true ∧ (s.core 0).winStart = none ∧ mayWrite s .management 1 = true ∧ resetWaits s = false ∧
      ({ s with cores := [(0, { winStart := some 0 })] } : State).core 0 = { winStart := some 0 } ∧
      (let p := { s with plt := { romStarted := true }, tns := { stop := true }, pins := { s.pins with coolOk := false } }
       resetWaits p = true ∧ p.live = true) := by decide +kernel

theorem test_wit_WarmAndColdResets :
    let s := State.reset
    let g : BootFinds := ⟨true, true, true, false, false⟩
    s.flash.base.valid = true ∧ s.flash.nextBase = none ∧ (selector s.flash).tries.toNat < 2 ∧ (selector s.flash).sseq.toNat + 1 < 2 ^ 32 ∧
      s.integ.actions = [] ∧ s.plt.update = none ∧ s.clocked = true ∧ resetWaits s = false ∧
      s.flash.image (selector s.flash).slot = some ⟨1, true, true⟩ ∧
      imageFault (some ⟨1, true, true⟩) (slotIntact g (selector s.flash).slot) s.flash.base.fwmin = 0 ∧
      slotHangs g (selector s.flash).slot = false ∧ mayWrite s .management 1 = true ∧ s.plt.finds = g ∧ s.plt.romStarted = false := by
  decide +kernel

theorem test_wit_WarmAndColdResets_supplies :
    let s := State.reset
    s.pins.powered = true ∧ s.pins.coolOk = true ∧ s.pins.thermtripN = true ∧ s.pins.coreclk = true ∧ s.pins.rstN = true ∧
      (8 : PortId).val / 4 = (2 : Fin 4).val ∧ (2 : Fin 4).val ≠ 3 ∧ (s.port 8).st ≠ .quarantine ∧ s.xops = [] ∧ s.lookups = [] ∧
      (let t := { s with pins := { coreclk := false } }
       t.pins.coreclk = false ∧ t.pins.rstN = true ∧ t.pins.powered = true ∧ t.pins.coolOk = true ∧ t.pins.thermtripN = true) ∧
      ({ s with pins := { powered := false } } : State).pins.powered = false := by decide +kernel

theorem test_wit_WarmAndColdResets_watchdog :
    let g : BootFinds := ⟨true, true, true, true, false⟩
    let s := { State.reset with cycle := 8000000000, plt := { stage := .osStart, bootStart := some 0, finds := g } }
    s.clocked = true ∧ s.stopped = false ∧ s.plt.stage = .osStart ∧ s.plt.bootStart = some 0 ∧ 0 + 8000000000 ≤ s.cycle ∧
      s.flash.image (selector s.flash).slot = some ⟨1, true, true⟩ ∧ slotHangs s.plt.finds (selector s.flash).slot = true ∧
      imageFault (some ⟨1, true, true⟩) (slotIntact g (selector s.flash).slot) s.flash.base.fwmin = 0 := by decide +kernel

theorem test_wit_FirmwareAndAttestation :
    (let s := tHost tBufs
     let val : Word := 3 <<< 56 + 1 <<< 48 + 4096 <<< 16
     s.live = true ∧ s.plt.update = none ∧ mayWrite s (.session 2) 1 = true ∧
       bufferFault s 2 (fld val 56 8) 3 s.plt.fwuSrc.toNat (fld val 16 32) = 0 ∧ fld val 48 8 = 1) ∧
    (let up : Update := ⟨.image ⟨2, true, true⟩, 4096, none⟩
     let s := { tHost tBufs with plt := { stage := .ready, romStarted := true, update := some up } }
     s.live = true ∧ s.plt.update = some up ∧ mayWrite s .management 1 = true ∧
       imageFault (some ⟨2, true, true⟩) true s.flash.base.fwmin = 0 ∧ (selector s.flash).sseq.toNat + 1 < 2 ^ 32 ∧
       s.flash.base.valid = true ∧ s.flash.base.fwmin.toNat ≤ s.flash.base.fwmin.toNat) ∧
    (let s := tHost tBufs
     let val : Word := 2 <<< 56 + 64 <<< 8
     s.plt.noid = false ∧ mayWrite s (.session 2) 1 = true ∧ (s.session 2).buffer (fld val 56 8) = some ⟨2, 0x20000, 0x10000, 0⟩ ∧
       bufferFault s 2 (fld val 56 8) 2 (fld val 8 48) 4096 = 0 ∧ fld val 8 48 % 64 = 0 ∧
       groupTableHit s (0x20000 + fld val 8 48) 4096 = false) := by decide +kernel

theorem test_wit_TapInstructions :
    State.reset.pins.powered = true ∧ State.reset.plt.jtagUnlock = false ∧
      (let s := { State.reset with plt := { jtagUnlock := true } }
       s.pins.powered = true ∧ s.plt.jtagUnlock = true ∧ s.clocked = true ∧ pagePresent 0x7F = true ∧ 0xFFF8 % 8 = 0 ∧ 0xFFF8 < 2 ^ 16) := by
  decide +kernel

theorem test_wit_RegisterPages :
    let s := State.reset
    s.clocked = true ∧ (∀ off ∈ [0x18, 0x20, 0x28, 0x30, 0x38], writeFault s .platformM 0x40 off = 0) ∧
      codeAllocated (fld (0x14 : Word) 0 8) = true ∧ (s.page 0x40).errEn.getLsbD (kindOf 0x14) = true ∧
      (s.page 0x40).active = false ∧ mayRead s .management = true ∧ pagePresent 0x40 = true ∧ 0x40 = 0x40 + (0 : VaultId).val := by
  decide +kernel

theorem test_wit_PlatformAccesses_uncached :
    let s := { State.reset with plt := { windows := [(0, 0x3000000000, 0x3B)] } }
    let x : PlatAccess := ⟨7, 3, .load, 0x2FFFFFFFFF, 1, [5]⟩
    s.live = true ∧ s.plt.cpus.getLsbD x.cpu.val = true ∧ s.plt.cpuHalted.getLsbD x.cpu.val = false ∧ x.data.length = x.len ∧
      windowAllows s x = true ∧ cached s x = false ∧ 0 < x.len ∧ inDram x.addr x.len = true ∧
      windowAllows s { x with op := .store } = true ∧ cached s { x with op := .store } = false ∧
      windowAllows s { x with op := .clean } = true ∧ cached s { x with op := .clean } = false ∧
      poisonedIn (fetchRange s x.addr x.len) x.addr x.len = false ∧
      poisonedIn (fetchRange { s with marks := [(0x2FFFFFFFFF / 64, true)] } x.addr x.len) x.addr x.len = true ∧
      groupTableHit s x.addr x.len = false ∧ windowAllows s { x with addr := 0x3000000000 } = false ∧
      (let y : PlatAccess := { x with addr := Config.pageBase + 0x40 * 2 ^ 16 + 0x100, len := 8 }
       let t := { s with plt := { windows := bootWindows } }
       windowAllows t y = true ∧ cached t y = false ∧ pagePresent 0x40 = true) := by decide +kernel

theorem test_wit_PlatformAccesses_cached :
    let l : CacheLine := ⟨List.replicate 64 1, false, true, 0⟩
    let s := { State.reset with plt := { windows := [(0, 0x3000000000, 0x3F)], cache := [(1, some l)] } }
    ErrorFree s ∧ s.line 1 = some l ∧ l.dirty = true ∧ l.bytes.length = 64 ∧ s.plt.cache.length + 1 ≤ sharedLines ∧
      ∀ op ∈ [PlatOp.load, .store, .clean, .inval, .flush], let x : PlatAccess := ⟨7, 3, op, 64, 1, [5]⟩
        windowAllows s x = true ∧ cached s x = true ∧ granulesOf x.addr x.len = [1] := by
  unfold ErrorFree
  decide +kernel

theorem test_wit_MemoryKeepsItsForm :
    ∃ t, opBundle (.sst 0 1 3 0) ≠ none ∧ ({ tRun with pending := [.sst 0 1 3 0] } : State).pending = .sst 0 1 3 0 :: [] ∧
      Memory.wf tRun.mem = true ∧ step { tRun with pending := [.sst 0 1 3 0] } = .next t ∧ t.byte (tileAddr 0 0x40) = 5 :=
  ⟨_, by decide, rfl, by decide, rfl, by decide +kernel⟩

theorem test_wit_ScalarRegisters :
    (∀ i ∈ [Instr.add 0 1 2 3, .sub 0 1 2 3, .mul 0 1 2 3], Issues tRun i) ∧ State.reset.live = true ∧
      (State.reset.core 0).winStart = none ∧ resetWaits State.reset = false :=
  ⟨allIssue _ _ (by decide +kernel), by decide +kernel, by decide +kernel, by decide +kernel⟩

/-! ### Well-formedness: a command refused for each check, beside one accepted -/

theorem test_wf_scalar_fields :
    (Instr.addi 0 1 2 7).wf = true ∧ (Instr.movi 0 1 7).wf = true ∧ (Instr.shli 0 1 2 63).wf = true ∧ (Instr.shli 0 1 2 64).wf = false ∧
      (Instr.shri 0 1 2 64).wf = false ∧ (Instr.phase 0 255).wf = true ∧ (Instr.phase 0 256).wf = false := by decide +kernel
theorem test_wf_matrix_fields :
    (Instr.pass 0 tPass).wf = true ∧ (Instr.pass 0 { tPass with tgt := 3 }).wf = false ∧ (Instr.pass 0 { tPass with shape := 3 }).wf = false ∧
      (Instr.pass 0 { tPass with offA := 3 }).wf = false ∧ (Instr.pass 0 { tPass with offW := 3 }).wf = false ∧
      (Instr.pass 0 { tPass with keep := 1 }).wf = false ∧ (Instr.pass 0 { tPass with rsvd := 1 }).wf = false := by decide +kernel
theorem test_wf_vector_fields :
    (Instr.fadd 0 ⟨3, 1, 2, 0, 0, 0, 0, 0, 0, 0⟩).wf = true ∧ (Instr.fadd 0 ⟨3, 1, 2, 0, 0, 3, 0, 0, 0, 0⟩).wf = false ∧
      (Instr.fadd 0 ⟨3, 1, 2, 0, 0, 0, 6, 0, 0, 0⟩).wf = false ∧ (Instr.fadd 0 ⟨3, 1, 2, 1, 0, 0, 0, 0, 0, 0⟩).wf = false ∧
      (Instr.fadd 0 ⟨3, 1, 2, 0, 0, 1, 7, 0, 0, 0⟩).wf = false ∧ (Instr.fadd 0 ⟨3, 1, 2, 0, 0, 0, 0, 1, 0, 0⟩).wf = false ∧
      (Instr.fadd 0 ⟨3, 1, 2, 0, 0, 0, 0, 0, 1, 0⟩).wf = false ∧ (Instr.fcmp 0 ⟨3, 1, 2, 0, 0, 0, 0, 0, 0, 6⟩).wf = false ∧
      (Instr.rsum 0 ⟨3, 1, 0, 0, 0, 0, 7, 0, 0, 9⟩).wf = false ∧ (Instr.vst 0 ⟨3, 1, 2, 0, 1, 0, 0, 0, 0, 0⟩).wf = false ∧
      (Instr.cvt 0 ⟨3, 1, 0, 0, 0, 0, 0, 0, 0, 1⟩).wf = false := by decide +kernel
theorem test_wf_move_and_sync_fields :
    (Instr.copy 0 ⟨0, 1, 2, 3, 0, 1, 5, 0⟩).wf = true ∧ (Instr.copy 0 ⟨0, 1, 2, 3, 0, 0, 5, 0⟩).wf = false ∧
      (Instr.copy 0 ⟨0, 1, 2, 3, 1, 0, 0, 0⟩).wf = false ∧ (Instr.copy 0 ⟨0, 1, 2, 3, 0, 0, 0, 1⟩).wf = false ∧
      (Instr.signal 0 1 2 1).wf = true ∧ (Instr.signal 0 1 2 0).wf = false ∧ (Instr.wait 0 1 true true 31).wf = true ∧
      (Instr.wait 0 1 true true 32).wf = false := by decide +kernel
theorem test_wf_memory_and_readings :
    (Instr.vaultRead 64 ⟨[], 0, false⟩ ⟨[], 0, false⟩).wf = true ∧ (Instr.vaultRead 65 ⟨[], 0, false⟩ ⟨[], 0, false⟩).wf = false ∧
      (Instr.vaultWrite 0 [] false false ⟨[], 0, false⟩).wf = false ∧ (Instr.dramTempSample 0 []).wf = false ∧
      (Instr.logicTempSample []).wf = false ∧ (Instr.tansyPeriod ⟨0, [], [], []⟩).wf = false ∧
      (Instr.digestPageCrc (2 ^ 40)).wf = false ∧ (Instr.helloPacket ⟨0, tLink 8⟩ ⟨3, 1, 3, 7, 1, 9, 0⟩).wf = false := by decide +kernel
theorem test_wf_registers :
    (Instr.registerWrite .management 0 8 1).wf = true ∧ (Instr.registerWrite .management 0 4 1).wf = false ∧
      (Instr.registerWrite .management 0x1000 8 1).wf = false ∧ (Instr.regRd (tMsg 0x38 3 2) 0 0 65).wf = false ∧
      (Instr.bufOpen (tMsg 0x10 3 2) ⟨0, 0, 0, 0, 0, true⟩).wf = false ∧
      (Instr.regWr (tMsg 0x39 3 2) 0 0 []).wf = false ∧ (Instr.operatorRootWrite (List.replicate 9 0)).wf = false ∧
      (Instr.jtagSamplePreload (List.replicate 4097 true)).wf = false := by decide +kernel

theorem test_wf_messages :
    (Instr.countMessage ⟨9, 0, 1, 0, 0, 1, 1, 0⟩).wf = true ∧ (Instr.countMessage ⟨9, 0, 1, 0, 4096, 1, 1, 0⟩).wf = false ∧
      (Instr.contributionMessage ⟨9, 0, 1, 0, false, 0, []⟩).wf = true ∧ (Instr.contributionMessage ⟨9, 0, 1, 0, false, 4, []⟩).wf = false ∧
      (PayloadMsg.fits ⟨9, 0, 1, 1, 1, [2], [⟨0, 0, 0⟩], []⟩) = true ∧ (PayloadMsg.fits ⟨9, 0, 1, 1, 1, [2], [⟨0, 2 ^ 16, 0⟩], []⟩) = false := by
  decide +kernel

/-! ### Bundle words written out from the layouts of R140, R146, R149, R151, R156 and R159 -/

theorem test_word_nop : decodeBundle 0x60 = scalarBundle nopScalar := by decide +kernel
theorem test_word_add : decodeBundle (0x60 + (0x02 * 2 ^ 35 + 3 * 2 ^ 30 + 4 * 2 ^ 25 + 5 * 2 ^ 20) * 2 ^ 8) = scalarBundle ⟨0x02, 3, 4, 5 <<< 20⟩ := by
  decide +kernel
theorem test_word_iadd : decodeBundle (0x60 + (0x01 * 2 ^ 58 + 1 * 2 ^ 53 + 2 * 2 ^ 48 + 3 * 2 ^ 43 + 6 * 2 ^ 28) * 2 ^ 112) =
    vectorBundle ⟨0x01, 1, 2, 3, 0, 0, 0, 6, 0, 0, 0⟩ := by decide +kernel
theorem test_word_copy : decodeBundle (0x60 + (1 * 2 ^ 44 + 2 * 2 ^ 42 + 3 * 2 ^ 37 + 4 * 2 ^ 32 + 5 * 2 ^ 27) * 2 ^ 176) =
    moveBundle ⟨1, 2, 3, 4, 5, 0, 0, 0, 0⟩ := by decide +kernel
theorem test_word_tset : decodeBundle (0x60 + (4 * 2 ^ 28 + 7 * 2 ^ 22 + 9) * 2 ^ 224) = syncBundle ⟨4, 7 * 2 ^ 22 + 9⟩ := by decide +kernel
/-- Chapter 05, worked example: encoding a pass. -/
theorem test_word_pass : decodeBundle (0x60 + 0x1800208530FFC000 * 2 ^ 48) =
    matrixBundle ⟨1, 2, 0, 0, 0, 0, 0, 0, 1, 0, 0, 4, 5, 6, 255, 3, 0⟩ := by decide +kernel
/-- A CLAIM carries the V mark (R166, R167); without it the encoding breaks the rule. -/
theorem test_word_vmark : vmarkBad (decodeBundle (0x60 + 5 * 2 ^ 252)) = true ∧ vmarkBad (decodeBundle (0x61 + 5 * 2 ^ 252)) = false := by
  decide +kernel
/-- HVER is 0b011 (R141). -/
theorem test_word_hver : reservedEncoding (decodeBundle 0x40) = some (1, 5) ∧ reservedEncoding (decodeBundle 0x60) = none := by decide +kernel

/-! ### Worked examples of the spec -/

/-- R68, case A. -/
theorem test_sorrel_case_a : sorrel (0x2A * 2 ^ 64 + 1) 0 = [0xA60D0650, 0x0BBA34AA, 0x6AE22833, 0xC34E8059] := by decide +kernel
/-- R68, case B. -/
theorem test_sorrel_case_b : sorrel (0x2A * 2 ^ 64 + 1) (2 ^ 96) = [0x7C813726, 0x1B749D01, 0x02B7F2E1, 0xDF959E76] := by decide +kernel
/-- Chapter 02, worked stochastic roundings: 0x3F80_5A00 under draw 0x34AA rounds up to bfloat16 0x3F81. -/
theorem test_stochastic_bf16 : (fBF16.encode .sr 0x34AA (fFP32.decode 0x3F805A00)).bits = 0x3F81 := by decide +kernel
/-- The same table: −1234.40625 with draw 0xAB54 gives −1,234; 5.5 with draw 0x8000 gives 5. -/
theorem test_stochastic_integer : (toIntN 64 0 .sr 0xAB54 (.fin true 39501 (-5))).bits = 0xFFFFFFFFFFFFFB2E ∧
    (toIntN 64 0 .sr 0x8000 (.fin false 11 (-1))).bits = 5 := by decide +kernel
/-- Chapter 02, the example of R42: 3.3 (as 3379/1024) gives X = 128 and q = 106; 3.99 (as 4086/1024) gives X = 129 and q = 64. -/
theorem test_sb8_blocks :
    (toSB 0x09 none .rne (fun _ => 0) [.fin false 3379 (-10)]).x = 128 ∧ (toSB 0x09 none .rne (fun _ => 0) [.fin false 3379 (-10)]).elems = [106] ∧
      (toSB 0x09 none .rne (fun _ => 0) [.fin false 4086 (-10)]).x = 129 ∧
      (toSB 0x09 none .rne (fun _ => 0) [.fin false 4086 (-10)]).elems = [64] := by decide +kernel
/-- Chapter 02, worked example of split operands: a = 217/128 alone has Q = 13,888, so q_hi = 108 and q_lo = 64. -/
theorem test_split2 : (splitBlock false .rne (fun _ => 0) [.fin false 217 (-7)]).hi = [108] ∧
    (splitBlock false .rne (fun _ => 0) [.fin false 217 (-7)]).lo = [64] := by decide +kernel
/-- Chapter 04, the example of R124: lanes 2^60, 1, −2^60 and 1 with m = 2 give +0. -/
theorem test_reduction_tree : (treeReduce addZ56 2 [.fin false 1 60, .fin false 1 0, .fin true 1 60, .fin false 1 0]).map toZ56 = [0] := by
  decide +kernel
/-- Chapter 03, a fold that rounds: 300,001 then 2^−23 twice then 1.25 gives 300,002.25. -/
theorem test_fold : toZ56 ([XNum.fin false 131072 (-40), .fin false 131072 (-40), .fin false 5 (-2)].foldl addZ56 (.fin false 300001 0)) =
    toZ56 (.fin false 1200009 (-2)) := by decide +kernel
/-- Chapter 06, the example of R181: address 0x0012_3456_7880. -/
theorem test_address : nbits 0x001234567880 10 4 = 14 ∧ dieOf 0x001234567880 = 1 ∧ vaultOf 0x001234567880 = 25 ∧
    bankOf 0x001234567880 = 5 ∧ pageOf 0x001234567880 = 2330 := by decide +kernel
/-- Chapter 09, the example of R324: from rank 5 to rank 1,000 of a torus of 8 × 4 × 4 × 8 in six hops, + on D and P, − on T and S. -/
theorem test_route : (route { tProg with nD := 8, nP := 4, nT := 4, nS := 8, torus := true } 5 1000).map (·.exit) = [0, 0, 0, 2, 5, 7] := by decide +kernel
/-- Chapter 11: COUNT = 10 over a group of 4 gives chunks from 0, 2, 5 and 7. -/
theorem test_chunks : (List.range 4).map (fun r => chunkOf { tProg with nD := 4 } [0] r 10) = [(0, 2), (2, 3), (5, 2), (7, 3)] := by
  decide +kernel
/-- Chapter 07, the example of two devices: the payload for device 1 has 104 bytes; its third position entry is position 4, bag 2, ordinal 1. -/
theorem test_payload_image :
    let m : PayloadMsg := ⟨9, 0, 0, 2, 3, [1, 2], [⟨0, 0, 0⟩, ⟨0, 0, 2⟩, ⟨1, 2, 4⟩], []⟩
    m.fits = true ∧ m.image.length = 104 ∧ m.image.drop 96 = toBytes 8 (1 + 2 * 2 ^ 20 + 4 * 2 ^ 36) := by decide +kernel
/-- R243: word 1 of a count message holds the requester in [9:0], the owner in [19:10] and the table in [31:20]. -/
theorem test_count_image :
    let m : CountMsg := ⟨9, 0, 0, 1, 5, 2, 3, 2⟩
    m.image.length = 64 ∧ (m.image.drop 8).take 8 = toBytes 8 (1 * 2 ^ 10 + 5 * 2 ^ 20) ∧ (m.image.drop 16).take 8 = toBytes 8 (2 + 3 * 2 ^ 32) := by
  decide +kernel

end Sys2Proof.Tests
end

/-! ## Folds, and the frames of the operations on the stores -/

namespace Sys2Proof.Machine

/-! ### Folds over units of the state -/

/-- A fold of steps that a reflexive and transitive relation covers is covered by it. -/
theorem foldl_rel {σ β : Type} {R : σ → σ → Prop} (refl : ∀ s, R s s) (trans : ∀ {s t u}, R s t → R t u → R s u)
    (f : σ → β → σ) (hf : ∀ s x, R s (f s x)) (l : List β) (s : σ) : R s (l.foldl f s) := by
  induction l generalizing s with
  | nil => exact refl s
  | cons x l ih => exact trans (hf s x) (ih (f s x))

/-- What every step of a fold leaves, the fold leaves. -/
theorem foldl_keeps {σ β γ : Type} (g : σ → γ) (f : σ → β → σ) (hf : ∀ s x, g (f s x) = g s) (l : List β) (s : σ) :
    g (l.foldl f s) = g s :=
  foldl_rel (R := fun s t => g t = g s) (fun _ => rfl) (fun h h' => Eq.trans h' h) f hf l s

/-- A fold whose step counts at one element of a list without repetitions takes that step. -/
theorem foldl_at {σ : Type} (g : σ → σ) (c : Nat) (l : List Nat) (hl : l.Nodup) (s : σ) :
    l.foldl (fun s d => if d = c then g s else s) s = if c ∈ l then g s else s := by
  induction l generalizing s with
  | nil => rfl
  | cons x l ih =>
    obtain ⟨hx, hl⟩ := List.nodup_cons.1 hl
    rw [List.foldl_cons, ih hl]
    by_cases h : x = c
    · subst h; simp [hx]
    · simp [h, Ne.symm h]

/-- An update of each core of a list without repetitions is seen at each of them. -/
theorem core_foldl_modCore (f : Core → Core) (l : List Nat) (hl : l.Nodup) (s : State) (d : Nat) :
    (l.foldl (fun s c => s.modCore c f) s).core d = if d ∈ l then f (s.core d) else s.core d := by
  induction l generalizing s with
  | nil => rfl
  | cons c l ih =>
    obtain ⟨hc, hl⟩ := List.nodup_cons.1 hl
    rw [List.foldl_cons, ih hl, core_modCore]
    by_cases hd : d = c
    · subst hd; simp [hc]
    · simp [hd]

/-! ### Frames of the operations on the stores (R111, R186 to R199, R444, R452) -/

/-- State t is s but for the stored bytes with their marks and errors, the entries, the vaults, the checkpoint engine, the history and the
records: what reads and writes of the stores can change. The lemmas of the namespace say it of each of them. -/
def StoreFrame (s t : State) : Prop :=
  t = { s with
    mem := t.mem, marks := t.marks, errs := t.errs, metaErrs := t.metaErrs, sramErrs := t.sramErrs, acc := t.acc, vaults := t.vaults
    integ := t.integ, mirror := t.mirror, errRing := t.errRing, rseq := t.rseq, fresh := t.fresh }

namespace StoreFrame

theorem refl (s : State) : StoreFrame s s := rfl

theorem trans {s t u : State} (h : StoreFrame s t) (h' : StoreFrame t u) : StoreFrame s u := by
  unfold StoreFrame at h'
  rw [h] at h'
  exact h'

theorem foldl {β : Type} (f : State → β → State) (hf : ∀ s x, StoreFrame s (f s x)) (l : List β) (s : State) :
    StoreFrame s (l.foldl f s) := foldl_rel refl trans f hf l s

theorem cores {s t : State} (h : StoreFrame s t) : t.cores = s.cores := by
  unfold StoreFrame at h
  rw [h]

theorem flash {s t : State} (h : StoreFrame s t) : t.flash = s.flash := by
  unfold StoreFrame at h
  rw [h]

theorem emit (s : State) (i : RecInfo) : StoreFrame s (s.emit i) := rfl

theorem modVault (s : State) (v : Nat) (f : Vault → Vault) : StoreFrame s (s.modVault v f) := rfl

theorem writeP (s : State) (a : Nat) (bs : List PByte) : StoreFrame s (writeP s a bs) := rfl

theorem setMark (s : State) (g : Nat) : StoreFrame s (setMark s g) := rfl

theorem setEntry (s : State) (ph n z : Nat) (p : Bool) : StoreFrame s (s.setEntry ph n z p) := rfl

theorem noteEvent (s : State) (k : Nat) (u : BitVec 16) (c l : Nat) : StoreFrame s (s.noteEvent k u c l) := by
  unfold State.noteEvent
  dsimp only
  split <;> rfl

theorem sramFlip (s : State) (k : Nat) (e : BitVec 72) : StoreFrame s (sramFlip s k e) := by
  unfold Machine.sramFlip
  dsimp only
  split
  · rfl
  · split <;> rfl

theorem sramRead (s : State) (k : Nat) : StoreFrame s (sramRead s k).1 := by
  unfold Machine.sramRead
  dsimp only
  split
  · exact refl s
  · dsimp only
    refine trans ?_ (noteEvent _ _ _ _ _)
    split
    · exact (sramFlip s k _).trans (modVault _ _ _)
    · exact sramFlip s k _
  · exact emit s _

theorem fetchTile (s : State) (a n : Nat) : StoreFrame s (fetchTile s a n) := by
  refine foldl _ (fun t w => ?_) _ s
  dsimp only
  split
  · exact (sramRead t w).trans (setMark _ _)
  · exact sramRead t w

theorem flushDetections (s : State) (v : Nat) : StoreFrame s (flushDetections s v) := by
  unfold Machine.flushDetections
  dsimp only
  split <;> rfl

theorem detectAt (s : State) (v die a code : Nat) : StoreFrame s (detectAt s v die a code) := by
  unfold Machine.detectAt
  extract_lets w s' u inst
  have hs : StoreFrame s s' := by
    dsimp only [s']
    split
    · exact refl s
    · exact (flushDetections s v).trans (modVault _ _ _)
  refine hs.trans ?_
  split <;> rfl

theorem readGranule (s : State) (g : Nat) (x y : Disturb) : StoreFrame s (readGranule s g x y) := by
  unfold Machine.readGranule
  extract_lets a v stored data unit storedMeta good bad decoded
  have corrected : ∀ b m v f, StoreFrame s ((rewriteGranule s g b m).modVault v f) := fun _ _ _ _ => rfl
  have hgood : ∀ d fix r, StoreFrame s (good d s fix r) := by
    intro d fix r
    dsimp only [good]
    split
    · exact (corrected _ _ _ _).trans (noteEvent _ _ _ _ _)
    · exact corrected _ _ _ _
  have hbad : ∀ d, StoreFrame s (bad d s) := fun d => (corrected _ _ _ _).trans (detectAt _ _ _ _ _)
  split
  · split
    · exact refl s
    · exact hgood _ _ _
  · exact hgood _ _ _
  · split
    · exact hgood _ _ _
    · exact hgood _ _ _
    · exact hbad _

theorem fetchRange (s : State) (a n : Nat) : StoreFrame s (fetchRange s a n) :=
  (foldl _ (fun t g => readGranule t g quiet quiet) _ s).trans (fetchTile _ _ _)

theorem copyBefore (s : State) (p : Nat) : StoreFrame s (copyBefore s p) := by
  unfold Machine.copyBefore
  dsimp only
  split
  · exact trans (fetchRange s _ _) rfl
  · exact refl s

theorem injectAt (s : State) (g : Nat) : StoreFrame s (injectAt s g) := by
  unfold Machine.injectAt
  extract_lets v i n named pat t t'
  have ht : StoreFrame s t' := by
    dsimp only [t']
    split <;> rfl
  split
  · split
    · exact trans ht rfl
    · split
      · exact trans ht rfl
      · exact ht
  · exact refl s

theorem writeDram (s : State) (a : Nat) (bs : List PByte) : StoreFrame s (writeDram s a bs) := by
  unfold Machine.writeDram
  extract_lets n gs whole s1 s2 s3 s4
  have h1 : StoreFrame s s1 := foldl _ (fun t g => by split; exacts [refl t, fetchRange t _ _]) _ s
  have h2 : StoreFrame s1 s2 := foldl _ copyBefore _ s1
  have h4 : StoreFrame s3 s4 := foldl _ (fun t g => show StoreFrame t (clearErrors t g) from rfl) _ s3
  have h5 : StoreFrame s4 (setDirty s4 a n) := rfl
  exact ((h1.trans h2).trans (writeP s2 a bs)).trans ((h4.trans h5).trans (foldl _ injectAt _ _))

theorem store (s : State) (a : Nat) (bs : List PByte) : StoreFrame s (store s a bs) := by
  unfold Machine.store
  split
  · exact refl s
  · split
    · exact writeDram s a bs
    · exact writeP s a bs

theorem readEntry (s : State) (ph n : Nat) : StoreFrame s (readEntry s ph n) := by
  unfold Machine.readEntry
  extract_lets r s'
  have hs : StoreFrame s s' := by
    dsimp only [s']
    split
    · exact (sramRead s _).trans (setEntry _ _ _ _ _)
    · exact sramRead s _
  refine hs.trans ?_
  split
  · exact refl s'
  · exact emit s' _

theorem markRecord (s : State) (v slot : Nat) (e : HotEntry) : StoreFrame s (markRecord s v slot e) := by
  unfold Machine.markRecord
  split
  · exact refl s
  · exact store s _ _

theorem badSlot (s : State) (v slot : Nat) : StoreFrame s (badSlot s v slot) := by
  unfold Machine.badSlot
  dsimp only
  split
  · exact refl s
  · split
    · exact modVault s _ _
    · exact ((setMark s _).trans (setMark _ _)).trans (markRecord _ _ _ _)

theorem fetchSlot (s : State) (v slot : Nat) : StoreFrame s (fetchSlot s v slot) := by
  refine foldl _ (fun t i => ?_) _ s
  dsimp only
  split
  · exact (sramRead t _).trans (badSlot _ _ _)
  · exact sramRead t _

theorem transferFetch (s : State) (c a n : Nat) : StoreFrame s (transferFetch s c a n) := by
  unfold Machine.transferFetch
  split
  · refine foldl _ (fun t i => ?_) _ s
    dsimp only
    split
    · exact readEntry t _ _
    · exact refl t
  · split
    · exact foldl _ (fun t i => fetchSlot t _ _) _ s
    · exact fetchRange s a n

theorem transferWrite (s : State) (c a : Nat) (bs : List PByte) : StoreFrame s (transferWrite s c a bs) := by
  unfold Machine.transferWrite
  split
  · refine foldl _ (fun t i => ?_) _ s
    dsimp only
    split
    · exact setEntry t _ _ _ _
    · exact refl t
  · exact store s a bs

theorem copyRows (s : State) (c : Nat) (segs : List (Nat × Nat × Nat)) : StoreFrame s (copyRows s c segs) :=
  (foldl _ (fun t (x : Nat × Nat × Nat) => transferFetch t c x.1 x.2.2) _ s).trans
    (foldl _ (fun t (x : Nat × Nat × Nat) => transferWrite t c x.2.1 _) _ _)

theorem fetchHeads (s : State) (t : Transfer) : StoreFrame s (fetchHeads s t) := by
  unfold Machine.fetchHeads
  split
  · exact refl s
  · refine foldl _ (fun u x => ?_) _ s
    dsimp only
    split
    · exact fetchRange u _ _
    · exact refl u

theorem writeResult (s0 : State) (ph c : Nat) (p : PassParams) (w : Weights) (f : Option ArrayFault) (gp cp : Nat → Bool) (s : State)
    (g col : Nat) : StoreFrame s (writeResult s0 ph c p w f gp cp s g col) := by
  unfold Machine.writeResult
  dsimp only
  split
  · exact (readEntry s _ _).trans (setEntry _ _ _ _ _)
  · exact setEntry s _ _ _ _

theorem runPass (s : State) (c ph : Nat) (p : Pass) (w : Weights) (f : Option ArrayFault) : StoreFrame s (runPass s c ph p w f).1 := by
  unfold Machine.runPass
  extract_lets par s' k acts ws gPsn cPsn failed stands t n first
  have hs : StoreFrame s s' := (fetchRange s _ _).trans (fetchRange _ _ _)
  have ht : StoreFrame s' t := by
    refine foldl _ (fun t g => foldl _ (fun t col => ?_) _ t) _ s'
    split
    · exact writeResult s' ph c par w f gPsn cPsn t g col
    · exact refl t
  refine (hs.trans ht).trans ?_
  dsimp only
  split
  · exact refl t
  · exact emit t _

theorem mismatchRecord (s : State) (c ph : Nat) (p : Pass) (k : Nat) (f : ArrayFault) : StoreFrame s (mismatchRecord s c ph p k f) :=
  emit s _

end StoreFrame

end Sys2Proof.Machine

/-! ## Core and job resets (O48) -/

namespace Sys2Proof.Machine

/-! ### What the completion of issued work leaves (R511, R512) -/

/-- Between s and t the scalar and vector registers of every core and the flash have stayed. The lemmas of the namespace say it of
passes, transfers and signals that complete. -/
structure KeepsRegs (s t : State) : Prop where
  flash : t.flash = s.flash
  sregs : ∀ d, (t.core d).sregs = (s.core d).sregs
  vregs : ∀ d, (t.core d).vregs = (s.core d).vregs

namespace KeepsRegs

theorem refl (s : State) : KeepsRegs s s := ⟨rfl, fun _ => rfl, fun _ => rfl⟩

theorem trans {s t u : State} (h : KeepsRegs s t) (h' : KeepsRegs t u) : KeepsRegs s u :=
  ⟨h'.flash.trans h.flash, fun d => (h'.sregs d).trans (h.sregs d), fun d => (h'.vregs d).trans (h.vregs d)⟩

theorem foldl {β : Type} (f : State → β → State) (hf : ∀ s x, KeepsRegs s (f s x)) (l : List β) (s : State) :
    KeepsRegs s (l.foldl f s) := foldl_rel refl trans f hf l s

theorem of_storeFrame {s t : State} (h : StoreFrame s t) : KeepsRegs s t :=
  ⟨h.flash, fun d => by rw [State.core, h.cores, State.core], fun d => by rw [State.core, h.cores, State.core]⟩

theorem modCore (s : State) (c : Nat) (f : Core → Core) (hs : ∀ k, (f k).sregs = k.sregs) (hv : ∀ k, (f k).vregs = k.vregs) :
    KeepsRegs s (s.modCore c f) := by
  refine ⟨rfl, fun d => ?_, fun d => ?_⟩ <;> rw [core_modCore] <;> split
  · exact hs _
  · rfl
  · exact hv _
  · rfl

theorem modHalf (s : State) (c a h : Nat) (f : HalfUnit → HalfUnit) : KeepsRegs s (s.modHalf c a h f) :=
  modCore s c _ (fun _ => rfl) fun _ => rfl

theorem drainHeld (n : Nat) (s : State) (c : Nat) : KeepsRegs s (drainHeld n s c) := by
  induction n generalizing s with
  | zero => exact refl s
  | succ n ih =>
    unfold Machine.drainHeld
    split
    · exact refl s
    · split
      · exact refl s
      · refine trans (trans ?_ (of_storeFrame (StoreFrame.writeP _ _ _))) (ih _)
        exact modCore s c _ (fun _ => rfl) fun _ => rfl

theorem drain (s : State) (c : Nat) : KeepsRegs s (s.drain c) := drainHeld _ s c

theorem haltCore (s : State) (c cause slot detail : Nat) (b pc : BitVec 32) : KeepsRegs s (s.haltCore c cause slot detail b pc) := by
  unfold State.haltCore
  dsimp only
  split
  · exact refl s
  · exact (of_storeFrame (StoreFrame.emit s _)).trans (modCore _ _ _ (fun _ => rfl) fun _ => rfl)

theorem addToken (s : State) (c t n : Nat) : KeepsRegs s (s.addToken c t n) := by
  unfold State.addToken
  dsimp only
  split
  · split
    · exact modCore s c _ (fun _ => rfl) fun _ => rfl
    · exact haltCore s c _ _ _ _ _
  · exact modCore s c _ (fun _ => rfl) fun _ => rfl

/-! Passes -/

theorem admitVector (k : Core) (c a b : Nat) :
    (k.admitVector c a b).sregs = k.sregs ∧ (k.admitVector c a b).vregs = k.vregs := by
  unfold Core.admitVector
  dsimp only
  split <;> split <;> exact ⟨rfl, rfl⟩

theorem launch (s : State) (c a h : Nat) (p : Pass) : KeepsRegs s (launch s c a h p) :=
  modCore s c _ (fun k => (admitVector k c a s.cycle).1) fun k => (admitVector k c a s.cycle).2

theorem finishPass (s : State) (c a h q : Nat) (st : PassStatus) : KeepsRegs s (finishPass s c a h q st) := modHalf s c a h _

theorem retireChain (s : State) (c a h : Nat) : KeepsRegs s (retireChain s c a h) := by
  unfold Machine.retireChain
  dsimp only
  split
  · exact (modHalf s c a h _).trans (drain _ c)
  · exact refl s

theorem failTargets (s : State) (c a h : Nat) (p : Pass) (f : ArrayFault) : KeepsRegs s (failTargets s c a h p f) := by
  refine foldl _ (fun t g => ?_) _ s
  split
  · split
    · exact modHalf t c a g _
    · exact refl t
  · exact refl t

theorem passComplete (c a h : Nat) (fault : Option ArrayFault) (s : State) : KeepsRegs s (passComplete c a h fault s) := by
  unfold Machine.passComplete
  dsimp only
  split
  · rename_i p ph _ _
    refine iteInduction (fun _ => refl s) fun _ => ?_
    have hlaunch : KeepsRegs s (if p.started then s else Machine.launch s c a h p) :=
      iteInduction (fun _ => refl s) fun _ => launch s c a h p
    have hswap : ∀ t : State, KeepsRegs t (if p.par.keep then t else t.modCore c fun k => k.modArray a fun x => swapStages x h) :=
      fun t => iteInduction (fun _ => refl t) fun _ => modCore t c _ (fun _ => rfl) fun _ => rfl
    have hrun := fun w => (hlaunch.trans (hswap _)).trans (of_storeFrame (StoreFrame.runPass _ c ph p w fault))
    split
    · exact ((hrun _).trans (of_storeFrame (StoreFrame.mismatchRecord _ _ _ _ _ _))).trans (failTargets _ _ _ _ _ _)
    · exact ((hrun _).trans (finishPass _ _ _ _ _ _)).trans (retireChain _ _ _ _)
  · exact refl s

theorem finishPasses (s : State) (c : Nat) : KeepsRegs s (finishPasses s c) := by
  refine foldl _ (fun s a => foldl _ (fun s h => ?_) _ s) _ s
  split
  · split
    · exact passComplete c a h none s
    · exact refl s
  · exact refl s

theorem dropPasses (s : State) (c : Nat) : KeepsRegs s (dropPasses s c) := by
  refine trans ?_ (drain _ c)
  exact modCore s c _ (fun _ => rfl) fun _ => rfl

/-! Transfers -/

theorem setQueue (s : State) (c q : Nat) (f : Core → List Transfer) : KeepsRegs s (s.modCore c fun k => k.setQueue q (f k)) :=
  modCore s c _ (fun _ => rfl) fun _ => rfl

theorem popTransfer (s : State) (c q : Nat) (t : Transfer) : KeepsRegs s (popTransfer s c q t) := by
  unfold Machine.popTransfer
  dsimp only
  split
  · exact (setQueue s c q _).trans (addToken _ _ _ _)
  · exact setQueue s c q _

theorem transferComplete (c q : Nat) (s : State) : KeepsRegs s (transferComplete c q s) := by
  unfold Machine.transferComplete
  split
  · exact refl s
  · rename_i t _ _
    have hheads : KeepsRegs s (fetchHeads s t) := of_storeFrame (StoreFrame.fetchHeads s t)
    have hrefused := fun b p => (hheads.trans (setQueue _ c q fun k => (k.queue q).drop 1)).trans (haltCore _ c 0x09 5 0 b p)
    have hmoved := ((hheads.trans (of_storeFrame (StoreFrame.copyRows _ c t.segs))).trans (popTransfer _ c q t)).trans (drain _ c)
    have hcopy : ∀ {p b : Prop} [Decidable p] [Decidable b] (x y),
        KeepsRegs s (if p then s else if b then (failTransfer (fetchHeads s t) c q).haltCore c 0x09 5 0 x y
          else (Machine.popTransfer (copyRows (fetchHeads s t) c t.segs) c q t).drain c) := by
      intro p b _ _ x y
      split
      · exact refl s
      · split
        · exact hrefused _ _
        · exact hmoved
    split
    · exact hcopy _ _
    · exact hcopy _ _
    · split
      · exact popTransfer s c q t
      · exact refl s

theorem versionFault (s : State) (c q : Nat) (t : Transfer) (code head shard : Nat) :
    KeepsRegs s (versionFault s c q t code head shard) :=
  (setQueue s c q _).trans (of_storeFrame (StoreFrame.emit _ _))

theorem ranTransfer (s : State) (c q : Nat) : KeepsRegs s (ranTransfer s c q) := setQueue s c q _

/-- A head is read, then its transfer fails or its new head is written (R359, R360). -/
theorem headStep (s : State) (c q : Nat) (t : Transfer) (a v g st h : Nat) (bad good : Prop) [Decidable bad] [Decidable good] :
    KeepsRegs s (
      if bad then Machine.versionFault (fetchRange s a 64) c q t 0x65 h 0
      else if good then Machine.ranTransfer (writeHead (fetchRange s a 64) a v g st) c q
      else Machine.versionFault (fetchRange s a 64) c q t 0x62 h 0) := by
  have hread : KeepsRegs s (fetchRange s a 64) := of_storeFrame (StoreFrame.fetchRange s a 64)
  refine iteInduction (fun _ => ?_) fun _ => iteInduction (fun _ => ?_) fun _ => ?_
  · exact hread.trans (versionFault _ c q t _ _ _)
  · exact (hread.trans (of_storeFrame (StoreFrame.store _ _ _))).trans (ranTransfer _ c q)
  · exact hread.trans (versionFault _ c q t _ _ _)

theorem openVersion (c q : Nat) (s : State) : KeepsRegs s (openVersion c q s) := by
  unfold Machine.openVersion
  split
  · refine iteInduction (fun _ => ?_) fun _ => refl s
    dsimp only
    split
    · exact refl s
    · exact headStep s c q _ _ _ _ _ _ _ _
  · exact refl s

theorem publishVersion (c q : Nat) (s : State) : KeepsRegs s (publishVersion c q s) := by
  unfold Machine.publishVersion
  split
  · refine iteInduction (fun _ => ?_) fun _ => refl s
    dsimp only
    split
    · exact refl s
    · exact headStep s c q _ _ _ _ _ _ _ _
  · exact refl s

theorem gatherRun (c q : Nat) (s : State) : KeepsRegs s (gatherRun c q s) := by
  unfold Machine.gatherRun
  split
  · refine iteInduction (fun _ => ?_) fun _ => refl s
    dsimp only
    split
    · exact refl s
    · have hheads : ∀ l : List Nat, KeepsRegs s (l.foldl (fun s a => fetchRange s a 64) s) :=
        fun l => of_storeFrame (StoreFrame.foldl _ (fun t a => StoreFrame.fetchRange t a 64) l s)
      have hbytes : ∀ (l : List Nat) (f : Nat → Nat) (t : State), KeepsRegs t (l.foldl (fun s i => fetchRange s (f i) 1) t) :=
        fun l f t => of_storeFrame (StoreFrame.foldl _ (fun t i => StoreFrame.fetchRange t (f i) 1) l t)
      split
      · exact (hheads _).trans (versionFault _ c q _ _ _ _)
      · exact (((hheads _).trans (hbytes _ _ _)).trans (of_storeFrame (StoreFrame.store _ _ _))).trans
          ((ranTransfer _ c q).trans (drain _ c))
  · exact refl s

theorem runFront (c : Nat) (s : State) (q : Nat) : KeepsRegs s (runFront c s q) :=
  (((openVersion c q s).trans (publishVersion c q _)).trans (gatherRun c q _)).trans (transferComplete c q _)

theorem runTransfers (c n : Nat) (s : State) : KeepsRegs s (runTransfers c n s) := by
  induction n generalizing s with
  | zero => exact refl s
  | succ n ih => exact iteInduction (fun _ => refl s) fun _ => (foldl _ (runFront c) _ s).trans (ih _)

/-! Signals -/

theorem signalLeave (c : Nat) (s : State) : KeepsRegs s (signalLeave c s) := by
  unfold Machine.signalLeave
  dsimp only
  split
  · exact refl s
  · refine iteInduction (fun _ => ?_) fun _ => refl s
    refine trans ?_ (addToken _ _ _ _)
    exact modCore s c _ (fun _ => rfl) fun _ => rfl

theorem runSignals (c : Nat) (s : State) : KeepsRegs s (runSignals c s) := foldl _ (fun t _ => signalLeave c t) _ s

theorem finishCore (c : Nat) (s : State) : KeepsRegs s (finishCore c s) :=
  ((finishPasses s c).trans (dropPasses _ c)).trans ((runTransfers c _ _).trans (runSignals c _))

end KeepsRegs

/-! ### Core resets (R511, R513, R516) -/

/-- A core reset outside a window takes place at once (R511). -/
theorem coreReset_outside_window (c : Nat) (s : State) (h : (s.core c).winStart = none) : coreReset c s = coreResetNow c s := by
  simp [coreReset, h]

/-- A core reset inside a window waits for its end (R513). -/
theorem coreReset_in_window (c : Nat) (s : State) (h : (s.core c).winStart ≠ none) :
    coreReset c s = { s with waitingReset := { s.waitingReset with cores := s.waitingReset.cores ||| BitVec.ofNat 32 (2 ^ c) } } := by
  have hw : (s.core c).winStart.isSome = true := Option.isSome_iff_ne_none.2 h
  simp [coreReset, hw]

/-- The core of a reset that takes place is the core after its issued work, with its fields at their reset values (R511). -/
theorem coreResetNow_core_self (c : Nat) (s : State) : (coreResetNow c s).core c = ((finishCore c s).core c).toReset :=
  core_modCore_self _ _ _

/-- The reset values do not name the vector registers (R511). -/
@[simp] theorem toReset_vregs (k : Core) : k.toReset.vregs = k.vregs := rfl

/-- A core reset leaves the scalar registers of the other cores. -/
theorem coreResetNow_sregs_ne (c d : Nat) (s : State) (h : d ≠ c) : ((coreResetNow c s).core d).sregs = (s.core d).sregs := by
  rw [coreResetNow, core_modCore_ne _ _ _ h]
  exact (KeepsRegs.finishCore c s).sregs d

theorem coreResetNow_flash (c : Nat) (s : State) : (coreResetNow c s).flash = s.flash := by
  rw [coreResetNow, modCore_flash, (KeepsRegs.finishCore c s).flash]

/-- PLT_RST.CORES with the bit of one core is the reset of that core (R516). -/
theorem pltRstCores_one (a : Agent) (c : CoreId) (s : State) (h : mayWrite s a 1 = true) :
    pltRstCores a (BitVec.ofNat 32 (2 ^ c.val)) s = coreReset c s := by
  have hbit : ∀ d ∈ List.range 32, (BitVec.ofNat 32 (2 ^ c.val)).getLsbD d = decide (d = c.val) := by
    intro d hd
    have hd : d < 32 := List.mem_range.1 hd
    rw [BitVec.getLsbD_ofNat, Nat.testBit_two_pow]
    simp [hd, eq_comm]
  rw [pltRstCores, if_pos h]
  calc (List.range 32).foldl (fun s d => if (BitVec.ofNat 32 (2 ^ c.val)).getLsbD d then coreReset d s else s) s
      = (List.range 32).foldl (fun s d => if d = c.val then coreReset c s else s) s := by
        refine List.foldl_ext _ _ _ fun t d hd => ?_
        rw [hbit d hd]
        by_cases hdc : d = c.val <;> simp [hdc]
    _ = coreReset c s := by
        rw [foldl_at _ _ _ List.nodup_range, if_pos (List.mem_range.2 c.isLt)]

/-! ### What a job reset leaves of the part record (R498, R511, R512) -/

/-- The part record of the flash is the same in s and t. -/
def KeepsBase (s t : State) : Prop := t.flash.base = s.flash.base

namespace KeepsBase

theorem refl (s : State) : KeepsBase s s := rfl

theorem trans {s t u : State} (h : KeepsBase s t) (h' : KeepsBase t u) : KeepsBase s u := Eq.trans h' h

theorem foldl {β : Type} (f : State → β → State) (hf : ∀ s x, KeepsBase s (f s x)) (l : List β) (s : State) :
    KeepsBase s (l.foldl f s) := foldl_rel refl trans f hf l s

theorem of_flash {s t : State} (h : t.flash = s.flash) : KeepsBase s t := congrArg Flash.base h

theorem modVault (s : State) (v : Nat) (f : Vault → Vault) : KeepsBase s (s.modVault v f) := rfl

theorem clearStop (s : State) : KeepsBase s (clearStop s) := by
  unfold Machine.clearStop
  refine trans ?_ (foldl _ (fun t v => modVault t v _) _ _)
  rfl

theorem leaveWindow (s : State) (c : Nat) : KeepsBase s (leaveWindow s c) := by
  unfold Machine.leaveWindow
  dsimp only
  split <;> rfl

theorem waitedCoreReset (s : State) (c : Nat) : KeepsBase s (waitedCoreReset s c) := by
  unfold Machine.waitedCoreReset
  split
  · exact of_flash (by rw [coreResetNow_flash])
  · exact refl s

theorem modPair (s : State) (p : Nat) (f : Pair → Pair) : KeepsBase s (s.modPair p f) := rfl

theorem abandonWindows (s : State) : KeepsBase s (abandonWindows s) := by
  refine foldl _ (fun t p => iteInduction (fun _ => ?_) fun _ => refl t) _ s
  exact (foldl _ (fun u c => (leaveWindow u c).trans (waitedCoreReset _ c)) (pairCores p) t).trans (modPair _ p _)

theorem finishGranted (s : State) : KeepsBase s (finishGranted s) :=
  (abandonWindows s).trans (foldl _ (fun t c =>
    of_flash ((KeepsRegs.finishPasses t c).trans (KeepsRegs.dropPasses _ c)).flash) _ _)

/-! Actions that wait (R449) -/

theorem writeAmendment (s : State) (kind : Nat) (grade : BitVec 8) (m : List Byte) : KeepsBase s (writeAmendment s kind grade m) :=
  iteInduction (fun _ => refl s) fun _ => rfl

theorem withdrawPart (s : State) : KeepsBase s (withdrawPart s) :=
  iteInduction (fun _ => refl s) fun _ => trans (t := { s.emit _ with integ := _ }) rfl (writeAmendment _ _ _ _)

theorem amendArray (s : State) (p : Nat) : KeepsBase s (amendArray s p) := by
  have hw : KeepsBase s (withdrawArray s p) := withdrawPart { s with amap := setAt s.amap p 0 }
  unfold Machine.amendArray
  extract_lets bad
  refine iteInduction (fun _ => refl s) fun _ => iteInduction (fun _ => rfl) fun _ => iteInduction (fun _ => hw) fun _ =>
    iteInduction (fun _ => ?_) fun _ => ?_
  · split
    · exact writeAmendment _ _ _ _
    · exact hw
  · split
    · exact writeAmendment _ _ _ _
    · exact hw

theorem remapCopy (s : State) (v die bank page : Nat) : KeepsBase s (remapCopy s v die bank page) :=
  of_flash (StoreFrame.foldl _ (fun t g => StoreFrame.fetchRange t (64 * g) 64) _ s).flash

theorem addRemap (s : State) (v die bank page source : Nat) : KeepsBase s (addRemap s v die bank page source).1 := by
  unfold Machine.addRemap
  dsimp only
  split
  · rfl
  · split
    · rfl
    · split <;> rfl

theorem addAction (s : State) (a : Action) : KeepsBase s (s.addAction a) := iteInduction (fun _ => refl s) fun _ => rfl

theorem pageLeft (s : State) (v die a : Nat) : KeepsBase s (pageLeft s v die a) :=
  iteInduction (fun _ => addAction _ _) fun _ => rfl

theorem remapAction (s : State) (v die bank page : Nat) : KeepsBase s (remapAction s v die bank page) := by
  have h : KeepsBase s (Machine.addRemap (Machine.remapCopy s v die bank page) v die bank page 3).1 :=
    (remapCopy s v die bank page).trans (addRemap _ _ _ _ _ _)
  unfold Machine.remapAction
  dsimp only
  split
  · exact h.trans (of_flash (StoreFrame.noteEvent _ _ _ _ _).flash)
  · exact h.trans (pageLeft _ _ _ _)

theorem applyAction (s : State) (a : Action) : KeepsBase s (applyAction s a) := by
  cases a with
  | amendArray p => exact amendArray s p
  | withdraw => exact withdrawPart s
  | remapPage v die bank page => exact remapAction s v die bank page
  | sliceOff v => rfl
  | spareRow unit => rfl
  | hostPortOff p => rfl
  | cpuOff k => exact iteInduction (fun _ => withdrawPart _) fun _ => rfl

theorem runAction (s : State) (a : Action) : KeepsBase s (runAction s a) :=
  applyAction { s with integ := { s.integ with actions := s.integ.actions.filter (· != a) } } a

theorem applyActions (s : State) (job : Bool) : KeepsBase s (applyActions s job) := foldl _ runAction _ s

end KeepsBase

/-! ### Messages to sessions (R414 to R416) -/

/-- State t is s but for the sessions and what has gone to the host. -/
def SessionFrame (s t : State) : Prop := t = { s with sessions := t.sessions, hostOut := t.hostOut }

namespace SessionFrame

theorem refl (s : State) : SessionFrame s s := rfl

theorem trans {s t u : State} (h : SessionFrame s t) (h' : SessionFrame t u) : SessionFrame s u := by
  unfold SessionFrame at h'
  rw [h] at h'
  exact h'

theorem foldl {β : Type} (f : State → β → State) (hf : ∀ s x, SessionFrame s (f s x)) (l : List β) (s : State) :
    SessionFrame s (l.foldl f s) := foldl_rel refl trans f hf l s

theorem writeEvents (s : State) (sid n : Nat) : SessionFrame s (writeEvents s sid n) := by
  induction n generalizing s with
  | zero => exact refl s
  | succ n ih =>
    unfold Machine.writeEvents
    dsimp only
    split
    · split
      · refine trans ?_ (ih _)
        rfl
      · exact refl s
    · exact refl s

theorem postTo (s : State) (sid status : Nat) (body : EventBody) : SessionFrame s (s.postTo sid status body) := by
  unfold State.postTo
  dsimp only
  split
  · exact refl s
  · refine trans ?_ (writeEvents _ _ _)
    rfl

theorem jobEvent (s : State) (kind : Nat) : SessionFrame s (s.jobEvent kind) :=
  foldl _ (fun t sid => postTo t sid 0 _) _ s

theorem resetSession (s : State) (sid : Nat) : SessionFrame s (resetSession s sid) := by
  unfold Machine.resetSession
  extract_lets x s'
  have h : SessionFrame s s' := foldl _ (fun t (y : Xfer) => postTo t sid 0x78 (.xfer y.xid y.moved none)) _ s
  refine h.trans ?_
  rfl

end SessionFrame

/-! ### The job reset (R19, R482, R511, R512) -/

/-- The cores and the flash are the same in s and t. -/
structure KeepsCores (s t : State) : Prop where
  cores : t.cores = s.cores
  flash : t.flash = s.flash

namespace KeepsCores

theorem refl (s : State) : KeepsCores s s := ⟨rfl, rfl⟩

theorem trans {s t u : State} (h : KeepsCores s t) (h' : KeepsCores t u) : KeepsCores s u :=
  ⟨h'.cores.trans h.cores, h'.flash.trans h.flash⟩

theorem foldl {β : Type} (f : State → β → State) (hf : ∀ s x, KeepsCores s (f s x)) (l : List β) (s : State) :
    KeepsCores s (l.foldl f s) := foldl_rel refl trans f hf l s

theorem of_sessionFrame {s t : State} (h : SessionFrame s t) : KeepsCores s t := by
  unfold SessionFrame at h
  rw [h]
  exact ⟨rfl, rfl⟩

theorem core {s t : State} (h : KeepsCores s t) (d : Nat) : t.core d = s.core d := by rw [State.core, h.cores, State.core]

theorem resetMirror (s : State) : KeepsCores s (resetMirror s) := by
  unfold Machine.resetMirror
  dsimp only
  split <;> exact ⟨rfl, rfl⟩

theorem resetPort (s : State) (p : Nat) : KeepsCores s (resetPort s p) := ⟨rfl, rfl⟩

theorem modVault (s : State) (v : Nat) (f : Vault → Vault) : KeepsCores s (s.modVault v f) := ⟨rfl, rfl⟩

end KeepsCores

/-- What the unloading of a job leaves (R511): no job, batch, lookup, exchange, barrier or work counter, every core at its reset values, the
flash as it was. -/
structure Unloaded (s t : State) : Prop where
  job : t.job = none
  batches : t.batches = []
  lookups : t.lookups = []
  xops : t.xops = []
  barriers : t.barriers = []
  workCtrs : t.workCtrs = []
  cores : ∀ d : CoreId, t.core d = (s.core d).toJobReset
  flash : t.flash = s.flash

/-- The unloading of a job is one (R511). -/
theorem unloaded_unloadJob (s : State) : Unloaded s (unloadJob s) := by
  unfold unloadJob
  extract_lets s1 s2 s3 s4 s5
  have h1 : KeepsCores s s1 := KeepsCores.resetMirror s
  have h2 : ∀ d : CoreId, s2.core d = (s1.core d).toJobReset := fun d => by
    rw [core_foldl_modCore _ _ List.nodup_range, if_pos (List.mem_range.2 d.isLt)]
  have h2f : s2.flash = s1.flash := foldl_keeps State.flash _ (fun t c => modCore_flash t c _) _ s1
  have h3 : KeepsCores s2 s3 := KeepsCores.foldl _ KeepsCores.resetPort _ s2
  have h4 : KeepsCores s3 s4 := KeepsCores.foldl _ (fun t v => KeepsCores.modVault t v _) _ s3
  have h5 : KeepsCores s4 s5 := KeepsCores.of_sessionFrame (SessionFrame.foldl _ SessionFrame.resetSession _ s4)
  have h : KeepsCores s2 s5 := (h3.trans h4).trans h5
  refine ⟨rfl, rfl, rfl, rfl, rfl, rfl, fun d => ?_, ?_⟩
  · calc s5.core d = s2.core d := h.core d
      _ = (s.core d).toJobReset := by rw [h2 d, h1.core d]
  · exact h.flash.trans (h2f.trans h1.flash)

/-- What is unloaded stays unloaded when only sessions are told. -/
theorem Unloaded.sessionFrame {s t u : State} (h : Unloaded s t) (h' : SessionFrame t u) : Unloaded s u := by
  unfold SessionFrame at h'
  rw [h']
  exact ⟨h.job, h.batches, h.lookups, h.xops, h.barriers, h.workCtrs, h.cores, h.flash⟩

/-- A job reset unloads the job, with the part record as it was (R511, R512). -/
theorem unloaded_jobResetNow (s : State) : ∃ t, KeepsBase s t ∧ Unloaded t (jobResetNow s) := by
  unfold jobResetNow
  extract_lets s1
  have h1 : KeepsBase s s1 := iteInduction (fun _ => KeepsBase.clearStop s) fun _ => KeepsBase.refl s
  exact ⟨_, (h1.trans (KeepsBase.finishGranted s1)).trans (KeepsBase.applyActions _ true),
    (unloaded_unloadJob _).sessionFrame (SessionFrame.jobEvent _ 4)⟩

/-- A job reset that nothing holds back unloads the job, with the part record as it was (R482, R511). -/
theorem unloaded_jobReset (s : State) (h : resetWaits s = false) : ∃ t, KeepsBase s t ∧ Unloaded t (jobReset s) := by
  rw [jobReset, h]
  exact unloaded_jobResetNow { s with waitingReset := {} }

/-- Settles O48: a core reset is the completion of the core's issued work, which leaves the registers, and then the reset values; a job reset
ends in the unloading of the job. -/
theorem coreAndJobResets : Obligations.CoreAndJobResets := by
  unfold Obligations.CoreAndJobResets
  intro s c a bit hlive
  refine ⟨fun hwin => ?_, fun hwin => ?_, fun hgo => ?_, fun hwait => ?_⟩
  · intro resets
    have hreset : ∀ i, exec i s = .next (coreResetNow c s) → resets i := by
      intro i hi
      refine ⟨_, hi, ?_⟩
      rw [coreResetNow_core_self]
      exact ⟨rfl, rfl, rfl, rfl, rfl, rfl, rfl, (toReset_vregs _).trans ((KeepsRegs.finishCore c s).vregs c),
        fun d hd => coreResetNow_sregs_ne c d s fun h => hd (Fin.ext h)⟩
    have hnow : coreReset c s = coreResetNow c s := coreReset_outside_window c s hwin
    exact ⟨hreset _ (congrArg Host.Outcome.next ((if_pos hlive).trans hnow)),
      fun hw => hreset _ (congrArg Host.Outcome.next ((if_pos hlive).trans ((pltRstCores_one a c s hw).trans hnow)))⟩
  · exact congrArg Host.Outcome.next ((if_pos hlive).trans (coreReset_in_window c s hwin))
  · intro unloads
    have hunloads : ∀ i, exec i s = .next (jobReset s) → unloads i := by
      intro i hi
      obtain ⟨t, hbase, h⟩ := unloaded_jobReset s hgo
      refine ⟨_, hi, h.job, h.batches, h.lookups, h.xops, h.barriers, h.workCtrs, fun d => ?_, ?_⟩
      · rw [h.cores d]
        exact ⟨rfl, rfl, rfl⟩
      · rw [h.flash]
        exact hbase
    exact ⟨hunloads _ (congrArg Host.Outcome.next (if_pos hlive)),
      fun hw => hunloads _ (congrArg Host.Outcome.next ((if_pos hlive).trans (if_pos hw)))⟩
  · exact congrArg Host.Outcome.next ((if_pos hlive).trans (if_pos hwait))

end Sys2Proof.Machine

/-! ## Register pages (O52) -/

namespace Sys2Proof.Machine

/-! ### Reads of register pages (R16, R521, R531, R532) -/

/-- A read that an agent may make of a register: the value goes to the agent, and the read has its effect (R521). -/
theorem agentRead_allowed (s : State) (a : Agent) (n off : Nat) (hr : mayRead s a = true) (hp : pagePresent n = true)
    (h8 : off % 8 = 0) (ho : off < 2 ^ 16) :
    agentRead a n off s =
      { afterRead s a n off with mgmtOut := (afterRead s a n off).mgmtOut ++ [.regValue a n off (regValue s a n off)] } := by
  have h : regRead s a n off = (0, regValue s a n off, afterRead s a n off) := by
    rw [regRead, hr, hp, h8]
    simpa using ho
  rw [agentRead, h]
  rfl

/-- A read of word 0 of ERR_REC latches words 1 to 7 for its agent (R531). -/
theorem afterRead_errRec (s : State) (a : Agent) (n : Nat) :
    afterRead s a n 0x40 = { s with snaps := mmod {} s.snaps (snapKey a n) fun x => { x with errRec := (s.page n).errRec.drop 1 } } :=
  rfl

/-- A read of PROG latches the counts for its agent (R532). -/
theorem afterRead_prog (s : State) (a : Agent) (n : Nat) :
    afterRead s a n 0x80 = { s with snaps := mmod {} s.snaps (snapKey a n) fun x =>
      { x with pos := BitVec.ofNat 64 ((s.page n).asOf s.nowNs).pos, tot := BitVec.ofNat 64 (s.page n).tot } } :=
  rfl

/-- A read of VLT_ECC clears its counts (R16, R216). -/
theorem afterRead_vltEcc (s : State) (a : Agent) (v : VaultId) :
    afterRead s a (0x40 + v.val) 0xC0 = s.modVault v fun u => { u with retry := 0, ue := 0, ce := 0 } := by
  have htype : pageType (0x40 + v.val) = 0xB := by
    have hv := v.isLt
    simp only [pageType]
    repeat rw [if_neg (by omega)]
  have hpage : 0x40 + v.val - 0x40 = v.val := Nat.add_sub_cancel_left _ _
  show clearOnRead s (0x40 + v.val) 0xC0 = _
  unfold clearOnRead
  rw [htype]
  exact congrArg (fun u => s.modVault u _) hpage

/-- Words 1 to 7 of ERR_REC come from the agent's snapshot (R531). -/
theorem regValue_errRec (s : State) (a : Agent) (n k : Nat) (hk : k < 7) :
    regValue s a n (0x48 + 8 * k) = nth (mget {} s.snaps (snapKey a n)).errRec k 0 := by
  have hbelow : 0x48 + 8 * k < 0x80 := by omega
  have hindex : (0x48 + 8 * k - 0x48) / 8 = k := by omega
  have habove : ∀ m ≤ 0x40, 0x48 + 8 * k ≠ m := by omega
  simp only [regValue, hbelow, hindex, habove, if_true, if_false, Nat.le_refl, Nat.reduceLeDiff]

/-- ERR_REC_READ answers word 0, and words 1 to 7 are then those of the record (R531). -/
theorem errRecRead_latches (s : State) (a : Agent) (n : Nat) (hr : mayRead s a = true) (hp : pagePresent n = true) :
    (agentRead a n 0x40 s).mgmtOut = s.mgmtOut ++ [.regValue a n 0x40 (regValue s a n 0x40)] ∧
      ∀ k < 7, regValue (agentRead a n 0x40 s) a n (0x48 + 8 * k) = nth (s.page n).errRec (k + 1) 0 := by
  rw [agentRead_allowed s a n 0x40 hr hp rfl (by decide), afterRead_errRec]
  refine ⟨rfl, fun k hk => ?_⟩
  rw [regValue_errRec _ _ _ _ hk]
  simp [mmod, nth]

/-- PROG_READ answers PROG, and PROG_POS and PROG_TOT are then the counts of that moment (R532). -/
theorem progRead_latches (s : State) (a : Agent) (n : Nat) (hr : mayRead s a = true) (hp : pagePresent n = true) :
    (agentRead a n 0x80 s).mgmtOut = s.mgmtOut ++ [.regValue a n 0x80 (regValue s a n 0x80)] ∧
      regValue (agentRead a n 0x80 s) a n 0x88 = BitVec.ofNat 64 ((s.page n).asOf s.nowNs).pos ∧
      regValue (agentRead a n 0x80 s) a n 0x90 = BitVec.ofNat 64 (s.page n).tot := by
  have hpos : ∀ t, regValue t a n 0x88 = (mget {} t.snaps (snapKey a n)).pos := fun _ => rfl
  have htot : ∀ t, regValue t a n 0x90 = (mget {} t.snaps (snapKey a n)).tot := fun _ => rfl
  rw [agentRead_allowed s a n 0x80 hr hp rfl (by decide), afterRead_prog, hpos, htot]
  simp [mmod]

/-- READ_CLEAR of VLT_ECC answers the counts and clears them; VLT_HR stays (R16, R216). -/
theorem vltEccRead_clears (s : State) (a : Agent) (v : VaultId) (hr : mayRead s a = true) (hp : pagePresent (0x40 + v.val) = true) :
    (agentRead a (0x40 + v.val) 0xC0 s).mgmtOut = s.mgmtOut ++ [.regValue a (0x40 + v.val) 0xC0 (regValue s a (0x40 + v.val) 0xC0)] ∧
      (agentRead a (0x40 + v.val) 0xC0 s).vault v = { s.vault v with retry := 0, ue := 0, ce := 0 } := by
  rw [agentRead_allowed s a _ 0xC0 hr hp rfl (by decide), afterRead_vltEcc]
  exact ⟨rfl, vault_modVault_self s v fun u => { u with retry := 0, ue := 0, ce := 0 }⟩

/-! ### Writes of register pages (R19, R521 to R523, R528 to R530) -/

/-- A write of ERR_STAT clears the bits written as one; a bit set in the same cycle ends set (R19, R523, R529). -/
theorem errStatWrite_bit (n : Nat) (val : Word) (setSame : BitVec 9) (s : State) (k : Nat) (hk : k < 7) :
    ((errStatWrite n val setSame s).page n).errStat.getLsbD k =
      (setSame.getLsbD k || (s.page n).errStat.getLsbD k && !val.getLsbD k) := by
  have hk9 : k < 9 := by omega
  have hbits : ∀ k < 7, (0x17F#9).getLsbD k = true := by decide
  have hmask : (0x17F#9)[k] = true := (BitVec.getLsbD_eq_getElem hk9).symm.trans (hbits k hk)
  rw [errStatWrite, page_modPage_self]
  simp [hmask, hk9, Bool.or_comm]

/-- KIND is a number of three bits, and at most 6 (R455). -/
theorem kindOf_le (code : Nat) : kindOf code ≤ 6 := by
  unfold kindOf
  split
  · decide
  · split
    · decide
    · split <;> decide

/-- KIND as a field of a record is KIND (R452). -/
theorem kindOf_toNat (code : Nat) : (BitVec.ofNat 3 (kindOf code)).toNat = kindOf code := by
  have h := kindOf_le code
  simp only [BitVec.toNat_ofNat]
  omega

/-- Bit KIND of the status bit of KIND is set (R529). -/
theorem kindBit_self (k : BitVec 3) : (kindBit k).getLsbD k.toNat = true := by
  revert k
  decide

/-- A record that enters a page sets its enabled status bit (R529). -/
theorem enter_errStat (p : Page) (r : Rec) (h : p.errEn.getLsbD r.kind.toNat = true) :
    (p.enter r).errStat.getLsbD r.kind.toNat = true := by
  simp [Page.enter, h, kindBit_self]

/-- ERR_FORCE with GO and an allocated code enters the forced record in its page (R530). -/
theorem errForceWrite_go (n : Nat) (val : Word) (s : State) (h : codeAllocated (fld val 0 8) = true) :
    errForceWrite n (val ||| BitVec.ofNat 64 (2 ^ 63)) s =
      s.modPage n fun g => { g with forceCode := BitVec.ofNat 8 (fld val 0 8) }.enter (forcedRecord s n (fld val 0 8)) := by
  have hgo : (val ||| BitVec.ofNat 64 (2 ^ 63)).getLsbD 63 = true := by simp
  have hcode : fld (val ||| BitVec.ofNat 64 (2 ^ 63)) 0 8 = fld val 0 8 := by
    simp only [fld, nbits, BitVec.toNat_or, Nat.pow_zero, Nat.div_one, Nat.or_mod_two_pow]
    simp
  simp only [errForceWrite, hcode, hgo, h, if_true]

/-- CTRL.PCLR clears the progress of an idle page and leaves its record (R528). -/
theorem progClear_idle (n : Nat) (s : State) (h : (s.page n).active = false) :
    (progClear n s).page n = { s.page n with op := 0, failed := false, done := false, pos := 0, tot := 0, t0 := 0 } := by
  rw [progClear, page_modPage_self, if_neg (by simp [h])]

/-- Settles O52, by one rule for each access. -/
theorem registerPages : Obligations.RegisterPages := by
  unfold Obligations.RegisterPages
  intro s a page val setSame v g code answers hclk
  refine ⟨fun hw => ?_, fun hw hcode => ?_, fun hw hidle => ?_, fun hr hp => ⟨?_, ?_, fun hv => ?_⟩, fun hw => ?_, fun hw => ?_⟩
  · exact ⟨errStatWrite page val setSame s, congrArg Host.Outcome.next (if_pos (by simp [hclk, hw])),
      fun n hn => errStatWrite_bit page val setSame s n hn, rfl, fun q hq => page_modPage_ne s page _ hq⟩
  · refine ⟨_, congrArg Host.Outcome.next (if_pos (by simp [hclk, hw])), ?_⟩
    rw [errForceWrite_go page val s hcode, page_modPage_self]
    refine ⟨rfl, rfl, rfl, fun hen => ?_⟩
    have hkind : (forcedRecord s page code).kind.toNat = kindOf code := kindOf_toNat code
    rw [← hkind] at hen ⊢
    exact enter_errStat _ _ hen
  · refine ⟨_, congrArg Host.Outcome.next (if_pos (by simp [hclk, hw])), ?_⟩
    rw [progClear_idle page s hidle]
    exact ⟨rfl, rfl, rfl, rfl, rfl⟩
  · obtain ⟨hout, hwords⟩ := errRecRead_latches s a page hr hp
    exact ⟨_, congrArg Host.Outcome.next (if_pos hclk), hout, hwords⟩
  · exact ⟨_, congrArg Host.Outcome.next (if_pos hclk), progRead_latches s a page hr hp⟩
  · subst hv
    obtain ⟨hout, hvault⟩ := vltEccRead_clears s a v hr hp
    refine ⟨_, congrArg Host.Outcome.next (if_pos hclk), hout, ?_⟩
    rw [hvault]
    exact ⟨rfl, rfl, rfl, rfl⟩
  · refine ⟨s.modPage page fun g => { g with errEn := val.truncate 7 }, ?_, ?_⟩
    · show execRegisterWrite a page 0x30 val s = _
      simp [execRegisterWrite, hclk, regWrite, hw]
    · rw [page_modPage_self]
  · show execRegisterWrite a page 0x20 val s = _
    simp [execRegisterWrite, hclk, regWrite, hw]

end Sys2Proof.Machine

/-! ## Scalar loads and stores, and the idle step (O5, O2) -/

namespace Sys2Proof.Machine

/-! ### Scalar loads and stores (R14, R101, R146, R148) -/

/-- A scalar operation other than TESTWIN, TRAP and END that issues at once is its effect and the issue (R135, R146). -/
theorem scalar_exec (s : State) (i : Instr) (c : CoreId) (x : ScalarSlot) (hb : opBundle i = some (c, scalarBundle x)) (h : Issues s i)
    (h17 : x.op ≠ 0x17) (h18 : x.op ≠ 0x18) (h19 : x.op ≠ 0x19) :
    exec i s = .next (advance c (branchTarget (s.core c) x) (scalarApply c (s.core c).pc x s s)) := by
  unfold Issues at h
  rw [hb] at h
  rw [op_issue s i c _ hb, issues_effect s c _ h h17 (show (0 : BitVec 4) ≠ 3 by decide) (show (0 : BitVec 4) ≠ 3 by decide),
    scalar_effect s c x h18 h19]

/-- A core whose scalar register r receives a value that may be read from a cycle on (R148); s0 receives none (R145). -/
def Core.receive (k : Core) (r : BitVec 5) (v : Word) (ready : Nat) : Core :=
  if r = 0 then k.setSreg r v else { k.setSreg r v with sReady := mset 0 (k.setSreg r v).sReady r.toNat ready }

@[simp] theorem receive_sreg (k : Core) (r q : BitVec 5) (v : Word) (n : Nat) : (k.receive r v n).sreg q = (k.setSreg r v).sreg q := by
  unfold Core.receive
  split <;> rfl

@[simp] theorem receive_pc (k : Core) (r : BitVec 5) (v : Word) (n : Nat) : (k.receive r v n).pc = k.pc := by
  unfold Core.receive Core.setSreg
  split <;> rfl

theorem receive_sReady (k : Core) (r : BitVec 5) (v : Word) (n : Nat) (h : r ≠ 0) : mget 0 (k.receive r v n).sReady r.toNat = n := by
  rw [Core.receive, if_neg h]
  exact mget_mset_self 0 _ r.toNat n

/-- A bite record leaves the cores (R202). -/
@[simp] theorem bite_core (s : State) (uc ui : Nat) (op : Word) (a n d : Nat) : (s.bite uc ui op a n).core d = s.core d := rfl

/-- The effect of SLD: its register receives the eight bytes, eight cycles on; poison in them bites (R146, R148, R202). -/
theorem scalarApply_sld (c : Nat) (b : BitVec 32) (sd sa : BitVec 5) (imm : BitVec 25) (s : State) (a : Nat)
    (ha : tileAddr c (sldOffset (s.core c) ⟨0x0C, sd, sa, imm⟩) = a) :
    scalarApply c b ⟨0x0C, sd, sa, imm⟩ s s =
      let t := s.modCore c fun k => k.receive sd (BitVec.ofNat 64 (readN s a 8)) (s.cycle + 8)
      if poisonedIn s a 8 then t.bite 1 c (opidBundle c b) a 1 else t := by
  have hop : (0x0C : BitVec 5).toNat = 12 := rfl
  simp only [scalarApply, scalarResult, hop, ha, modCore_modCore, Core.receive]

/-- The effect of SST: the eight bytes of its register go to the tile store (R14, R146). -/
theorem scalarApply_sst (c : Nat) (b : BitVec 32) (sd sa : BitVec 5) (imm : BitVec 25) (s : State) :
    scalarApply c b ⟨0x0D, sd, sa, imm⟩ s s =
      tileWrite s c (s.core c).seqNo (tileAddr c ((s.core c).sreg sa + imm.signExtend 64).toNat)
        (clean (toBytes 8 ((s.core c).sreg sd).toNat)) := rfl

/-- SLD that issues at once: its register receives the eight bytes, a poisoned read leaves its record, and the core issues. -/
theorem sld_exec (s : State) (c : CoreId) (sd sa : BitVec 5) (imm : BitVec 25) (h : Issues s (.sld c sd sa imm)) (a : Nat)
    (ha : tileAddr c (sldOffset (s.core c) ⟨0x0C, sd, sa, imm⟩) = a) :
    exec (.sld c sd sa imm) s = .next (advance c none (
      let t := s.modCore c fun k => k.receive sd (BitVec.ofNat 64 (readN s a 8)) (s.cycle + 8)
      if poisonedIn s a 8 then t.bite 1 c (opidBundle c (s.core c).pc) a 1 else t)) := by
  rw [← scalarApply_sld c _ sd sa imm s a ha]
  exact scalar_exec s _ c ⟨0x0C, sd, sa, imm⟩ rfl h (show (0x0C : BitVec 5) ≠ 0x17 by decide)
    (show (0x0C : BitVec 5) ≠ 0x18 by decide) (show (0x0C : BitVec 5) ≠ 0x19 by decide)

/-- SST that issues at once is the write of the eight bytes and the issue. -/
theorem sst_exec (s : State) (c : CoreId) (sd sa : BitVec 5) (imm : BitVec 25) (h : Issues s (.sst c sd sa imm)) :
    exec (.sst c sd sa imm) s = .next (advance c none (tileWrite s c (s.core c).seqNo
      (tileAddr c ((s.core c).sreg sa + imm.signExtend 64).toNat) (clean (toBytes 8 ((s.core c).sreg sd).toNat)))) := by
  rw [scalar_exec s _ c ⟨0x0D, sd, sa, imm⟩ rfl h (show (0x0D : BitVec 5) ≠ 0x17 by decide) (show (0x0D : BitVec 5) ≠ 0x18 by decide)
    (show (0x0D : BitVec 5) ≠ 0x19 by decide), scalarApply_sst]
  rfl

/-- A write to the tile store that no pass, transfer or earlier write holds back takes place at once (R101, R115). -/
theorem tileWrite_now (s : State) (c q a : Nat) (bs : List PByte) (hw : (s.core c).writeWaits c q a bs.length = false)
    (hh : (s.core c).heldMeets q a bs.length = false) (hne : bs ≠ []) : tileWrite s c q a bs = writeP s a bs := by
  simp [tileWrite, hw, hh, hne]

/-- A byte of the written range. -/
theorem writeP_byte_inside (s : State) (a i : Nat) (bs : List PByte) (h : i < (bs.map (·.1)).length) :
    (writeP s a bs).byte (a + i) = (bs.map (·.1))[i] := memSet_inside s.mem a _ i h

/-- A byte outside the written range. -/
theorem writeP_byte_outside (s : State) (a x : Nat) (bs : List PByte) (h : x < a ∨ a + bs.length ≤ x) :
    (writeP s a bs).byte x = s.byte x := memSet_outside s.mem a _ x (by simpa using h)

@[simp] theorem map_fst_clean (bs : List Byte) : (clean bs).map (·.1) = bs := by simp [clean, Function.comp_def]

@[simp] theorem length_clean (bs : List Byte) : (clean bs).length = bs.length := by simp [clean]

@[simp] theorem length_toBytes (n x : Nat) : (toBytes n x).length = n := by
  induction n generalizing x with
  | zero => rfl
  | succ n ih => simp [toBytes, ih]

/-- Byte i of a number, the least significant first (R14). -/
theorem getElem_toBytes (n x i : Nat) (h : i < (toBytes n x).length) : (toBytes n x)[i] = BitVec.ofNat 8 (x / 2 ^ (8 * i)) := by
  induction n generalizing x i with
  | zero => simp [toBytes] at h
  | succ n ih =>
    cases i with
    | zero => exact BitVec.eq_of_toNat_eq (by simp [toBytes])
    | succ i =>
      simp only [toBytes, List.getElem_cons_succ]
      rw [ih, Nat.div_div_eq_div_mul, Nat.mul_succ, Nat.pow_add, Nat.mul_comm 256]

/-- Byte i of a word (R14). -/
theorem getElem_toBytes_word (w : Word) (i : Nat) (h : i < (toBytes 8 w.toNat).length) :
    (toBytes 8 w.toNat)[i] = w.extractLsb' (8 * i) 8 := by
  rw [getElem_toBytes]
  exact BitVec.eq_of_toNat_eq (by simp [Nat.shiftRight_eq_div_pow])

/-- SST that issues at once, with nothing that holds its write back, writes its eight bytes and issues (R101, R146). -/
theorem sst_exec_now (s : State) (c : CoreId) (sd sa : BitVec 5) (imm : BitVec 25) (h : Issues s (.sst c sd sa imm)) :
    let k := s.core c
    let a := tileAddr c (k.sreg sa + imm.signExtend 64).toNat
    k.writeWaits c k.seqNo a 8 = false → k.heldMeets k.seqNo a 8 = false →
      exec (.sst c sd sa imm) s = .next ((writeP s a (clean (toBytes 8 (k.sreg sd).toNat))).modCore c (·.retire s.cycle)) := by
  intro k a hw hh
  have hlen : (clean (toBytes 8 (k.sreg sd).toNat)).length = 8 := by simp
  have hne : clean (toBytes 8 (k.sreg sd).toNat) ≠ [] := List.ne_nil_of_length_pos (by omega)
  rw [sst_exec s c sd sa imm h, tileWrite_now s c k.seqNo a _ (by rwa [hlen]) (by rwa [hlen]) hne, advance_none]
  rfl

/-- Settles O5: the load is what its register receives, the store what the tile store then holds. -/
theorem scalarLoadAndStore : Obligations.ScalarLoadAndStore := by
  unfold Obligations.ScalarLoadAndStore
  constructor
  · intro s c sd sa imm h a v
    refine ⟨_, sld_exec s c sd sa imm h a rfl, ?_⟩
    rw [advance_none]
    cases hp : poisonedIn s a 8 with
    | false =>
      dsimp only
      rw [if_neg Bool.false_ne_true, modCore_modCore, core_modCore_self]
      exact ⟨fun r => receive_sreg (s.core c) sd r v _, congrArg (· + 1) (receive_pc (s.core c) sd v _),
        receive_sReady (s.core c) sd v _, rfl, rfl, rfl, fun _ => rfl, fun h => absurd h Bool.false_ne_true⟩
    | true =>
      dsimp only
      rw [if_pos rfl, core_modCore_self, bite_core, core_modCore_self]
      exact ⟨fun r => receive_sreg (s.core c) sd r v _, congrArg (· + 1) (receive_pc (s.core c) sd v _),
        receive_sReady (s.core c) sd v _, rfl, rfl, rfl, fun h => absurd h Bool.false_ne_true.symm, fun _ => ⟨_, rfl, rfl, rfl⟩⟩
  · intro s c sd sa imm k off h hw hh
    refine ⟨_, sst_exec_now s c sd sa imm h hw hh, fun i hi => ?_, fun x hx => ?_, ?_, fun d hd => ?_, rfl, rfl⟩
    · show (writeP s _ _).byte _ = _
      rw [writeP_byte_inside _ _ _ _ (by simpa using hi)]
      simp only [map_fst_clean]
      exact getElem_toBytes_word _ _ _
    · exact writeP_byte_outside s _ x _ (by rwa [length_clean, length_toBytes])
    · exact core_modCore_self _ _ _
    · exact core_modCore_ne _ _ _ fun h => hd (Fin.ext h)

/-! ### The idle step (R570) -/

/-- Settles O2: the idle step is a tick, and four ticks of 1.25 ns are 5 ns. -/
theorem idleStepPassesOneCycle : Obligations.IdleStepPassesOneCycle := by
  unfold Obligations.IdleStepPassesOneCycle
  intro s hs
  refine ⟨tick s, ?_, rfl, rfl, fun _ => ?_⟩
  · rw [step, hs]
  · show (s.cycle + 4) * 5 / 4 = s.cycle * 5 / 4 + 5
    omega

end Sys2Proof.Machine

/-! ## Passes and weights (O12) -/

namespace Sys2Proof.Machine

/-! ### PASS and WEIGHT_BROADCAST (R74, R75, R87, R90, R96) -/

/-- A PASS that issues at once is its entry in the queue of its target and the issue (R96, R135). -/
theorem pass_exec (s : State) (c : CoreId) (m : MatrixSlot) (h : Issues s (.pass c m)) :
    exec (.pass c m) s = .next (advance c none (passApply c (s.core c).pc { m with op := 1 } s s)) := by
  unfold Issues at h
  rw [op_issue s _ c _ rfl, issues_effect s c (matrixBundle { m with op := 1 }) h (show (0 : BitVec 5) ≠ 0x17 by decide)
    (show (0 : BitVec 4) ≠ 3 by decide) (show (0 : BitVec 4) ≠ 3 by decide), matrix_effect]

/-- A row of the next tile that nothing keeps back goes into the shadow registers and the pending set of its pass (R74, R75, R87). -/
theorem weightBroadcast_row (s : State) (c a h row : Nat) (p : Pass)
    (hold : oldest (s.half c a h) = some p ∨ ∃ o, oldest (s.half c a h) = some o ∧ o.started = true)
    (hnext : nextLoad (s.half c a h) = some p) (hready : tileReady (s.half c a h) p.par.wmode = false)
    (hfailed : (s.half c a h).failed = false) (hreads : passReadsReady s c p (((s.core c).array a).sources h) = true)
    (htoken : tokenAhead ((s.core c).array a) h p = false) :
    let q := p.par
    let rd := fetchRange (fetchRange s (tileAddr c (q.wSig + 128 * row)) 128) (tileAddr c (q.wExp + 128 * row)) 128
    weightBroadcast c a h row s = rd.modHalf c a h fun x =>
      { x with
        shadow := mset [] x.shadow row (cellRow q.wmode (sigRow rd c q.wSig q.wmode row))
        pend := x.pend.take (nextSet x) ++ [(nth x.pend (nextSet x) {}).enter rd c q.wSig q.wExp q.wmode row] } := by
  intro q rd
  unfold weightBroadcast
  extract_lets u s' x u'
  have hs : s' = s := by
    dsimp only [s']
    obtain ho | ⟨o, ho, hst⟩ := hold
    · simp [u, ho, hready]
    · simp [u, ho, hst]
  have hu : u' = s.half c a h := congrArg (State.half · c a h) hs
  have hx : x = (s.core c).array a := congrArg (fun t => (State.core t c).array a) hs
  clear_value s'
  subst hs
  rw [hu, hx, hnext]
  exact if_neg (by simp [hready, hfailed, hreads, htoken])

/-- Settles O12: a PASS is its entry in the queue and the issue, and the row of a broadcast is that of the tile of the next pass to load. -/
theorem passesAndWeights : Obligations.PassesAndWeights := by
  unfold Obligations.PassesAndWeights
  constructor
  · intro s c m p h
    rw [pass_exec s c m h, advance_none]
    refine congrArg Host.Outcome.next ?_
    rw [passApply, if_neg (show (1 : BitVec 4) ≠ 0 by decide), State.modHalf, modCore_modCore]
    exact modCore_congr _ _ _ _ rfl
  · intro s c a h row p arr u q rd hlive hnext hold hready hfailed hreads htoken
    refine congrArg Host.Outcome.next ((if_pos hlive).trans ?_)
    exact weightBroadcast_row s c a h row p hold hnext hready hfailed hreads htoken

end Sys2Proof.Machine

/-! ## Vector stores (O10) -/

namespace Sys2Proof.Machine

/-! ### What a fold leaves at one place -/

/-- What every step for an element of the list leaves, the fold leaves. -/
theorem foldl_keeps_mem {σ β γ : Type} (g : σ → γ) (f : σ → β → σ) (l : List β) (hf : ∀ s, ∀ x ∈ l, g (f s x) = g s) (s : σ) :
    g (l.foldl f s) = g s := by
  induction l generalizing s with
  | nil => rfl
  | cons x l ih =>
    rw [List.foldl_cons, ih fun s y hy => hf s y (List.mem_cons_of_mem _ hy), hf s x (by simp)]

/-- Where one element of a list without repetitions alone concerns a place, the fold leaves there what the step for it leaves: `g` reads
the place, `e` all that this step finds there. -/
theorem foldl_once {σ β γ ε : Type} (g : σ → γ) (e : σ → ε) (f : σ → β → σ) (l : List β) (b : β) (hl : l.Nodup) (hb : b ∈ l)
    (hstep : ∀ s t, e s = e t → g (f s b) = g (f t b)) (hg : ∀ s, ∀ x ∈ l, x ≠ b → g (f s x) = g s)
    (he : ∀ s, ∀ x ∈ l, x ≠ b → e (f s x) = e s) (s : σ) : g (l.foldl f s) = g (f s b) := by
  obtain ⟨l1, l2, rfl⟩ := List.append_of_mem hb
  obtain ⟨-, h2, hdis⟩ := List.nodup_append.1 hl
  have hb2 : b ∉ l2 := (List.nodup_cons.1 h2).1
  rw [List.foldl_append, List.foldl_cons, foldl_keeps_mem g f l2 fun s x hx => hg s x (by simp [hx]) fun e => hb2 (e ▸ hx)]
  exact hstep _ _ (foldl_keeps_mem e f l1 (fun s x hx => he s x (by simp [hx]) fun e => hdis x hx b (by simp) e) s)

/-! ### Several writes to the tile store (R101, R115) -/

/-- Memory after writes of bytes, in order. -/
def memSetAll (m : SMap Byte) (ws : List (Nat × List Byte)) : SMap Byte := ws.foldl (fun m w => memSet m w.1 w.2) m

/-- A byte outside every written range reads as before. -/
theorem memSetAll_outside (m : SMap Byte) (ws : List (Nat × List Byte)) (a : Nat)
    (h : ∀ w ∈ ws, a < w.1 ∨ w.1 + w.2.length ≤ a) : mget 0 (memSetAll m ws) a = mget 0 m a :=
  foldl_keeps_mem (mget 0 · a) _ ws (fun m w hw => memSet_outside m w.1 w.2 a (h w hw)) m

/-- Of ranges that are apart each holds its bytes. -/
theorem memSetAll_inside (m : SMap Byte) (ws : List (Nat × List Byte))
    (hd : ws.Pairwise fun x y => x.1 + x.2.length ≤ y.1 ∨ y.1 + y.2.length ≤ x.1) :
    ∀ w ∈ ws, ∀ n, ∀ h : n < w.2.length, mget 0 (memSetAll m ws) (w.1 + n) = w.2[n] := by
  induction ws generalizing m with
  | nil => simp
  | cons v ws ih =>
    obtain ⟨hv, hd⟩ := List.pairwise_cons.1 hd
    intro w hw n hn
    obtain rfl | hw := List.mem_cons.1 hw
    · show mget 0 (memSetAll (memSet m w.1 w.2) ws) (w.1 + n) = _
      rw [memSetAll_outside _ _ _ fun y hy => ?_, memSet_inside m w.1 w.2 n hn]
      have := hv y hy
      omega
    · exact ih _ hd w hw n hn

/-- Writes to the tile store that nothing holds back change the stored bytes with their marks and errors alone. -/
theorem foldl_tileWrite_now (c q : Nat) (l : List (Nat × List PByte)) (s : State)
    (h : ∀ e ∈ l, (s.core c).writeWaits c q e.1 e.2.length = false ∧ (s.core c).heldMeets q e.1 e.2.length = false) :
    let t := l.foldl (fun t e => tileWrite t c q e.1 e.2) s
    t = { s with mem := memSetAll s.mem (l.map fun e => (e.1, e.2.map (·.1))), marks := t.marks, metaErrs := t.metaErrs, sramErrs := t.sramErrs } := by
  induction l generalizing s with
  | nil => rfl
  | cons e l ih =>
    obtain ⟨hw, hh⟩ := h e (by simp)
    have hs : tileWrite s c q e.1 e.2 = writeP s e.1 e.2 := by
      by_cases hb : e.2 = []
      · rw [hb]; rfl
      · exact tileWrite_now s c q e.1 e.2 hw hh hb
    have := ih (writeP s e.1 e.2) fun x hx => h x (List.mem_cons_of_mem _ hx)
    intro t
    have ht : t = l.foldl (fun t e => tileWrite t c q e.1 e.2) (writeP s e.1 e.2) := congrArg (l.foldl _) hs
    rw [ht]
    exact this

/-! ### Keeping a product that writes the tile store (R119, R126) -/

/-- What a vector operation leaves of its core's waiting writes and issue number. -/
theorem keepCore_order (n : Nat) (x : VectorSlot) (o : VecOut) (k : Core) :
    (keepCore n x o k).heldWrites = k.heldWrites ∧ (keepCore n x o k).seqNo = k.seqNo := by
  cases hv : o.vdst <;> cases hm : o.mdst <;> cases hc : o.clearSa <;> cases ht : x.ntag.getLsbD 4 <;>
    simp only [keepCore, hv, hm, hc, ht, Core.setVreg, Core.setMreg] <;> (repeat' split) <;> simp

/-- A write waits after a vector operation as before it. -/
theorem keepCore_waits (n : Nat) (x : VectorSlot) (o : VecOut) (k : Core) (c q a m : Nat) :
    (keepCore n x o k).writeWaits c q a m = k.writeWaits c q a m ∧ (keepCore n x o k).heldMeets q a m = k.heldMeets q a m := by
  obtain ⟨-, -, -, -, hqueues, -, harrays, -⟩ := keepCore_keeps n x o k
  obtain ⟨hheld, -⟩ := keepCore_order n x o k
  constructor
  · simp only [Core.writeWaits, Core.readByPass, Core.readBySame, Core.passes, Core.array, Core.queue, harrays, hqueues]
  · simp only [Core.heldMeets, hheld]

/-- An operation that writes no entries stores its bytes where nothing holds them back, and changes its core. -/
theorem vecKeep_tile (c : Nat) (b : BitVec 32) (x : VectorSlot) (o : VecOut) (s : State) (haccs : o.accs = [])
    (hnow : ∀ e ∈ o.stores, (s.core c).writeWaits c (s.core c).seqNo e.1 e.2.length = false ∧
      (s.core c).heldMeets (s.core c).seqNo e.1 e.2.length = false) :
    (vecKeep c b x o s).mem = memSetAll s.mem (o.stores.map fun e => (e.1, e.2.map (·.1))) ∧ (vecKeep c b x o s).acc = s.acc ∧
      ∀ d, (vecKeep c b x o s).core d = (s.modCore c (keepCore s.cycle x o)).core d := by
  have hcore : (s.modCore c (keepCore s.cycle x o)).core c = keepCore s.cycle x o (s.core c) := core_modCore_self _ _ _
  have hfold := foldl_tileWrite_now c (s.core c).seqNo o.stores (s.modCore c (keepCore s.cycle x o)) fun e he => by
    obtain ⟨hw, hh⟩ := keepCore_waits s.cycle x o (s.core c) c (s.core c).seqNo e.1 e.2.length
    rw [hcore, hw, hh]
    exact hnow e he
  have hbite : vecKeep c b x o s = keepBite c b x o
      (o.stores.foldl (fun t e => tileWrite t c (s.core c).seqNo e.1 e.2) (s.modCore c (keepCore s.cycle x o))) := by
    unfold vecKeep
    rw [haccs]
    rfl
  rw [hbite]
  obtain e | ⟨i, e⟩ := keepBite_state c b x o
      (o.stores.foldl (fun t e => tileWrite t c (s.core c).seqNo e.1 e.2) (s.modCore c (keepCore s.cycle x o))) <;>
    rw [e, hfold] <;> exact ⟨rfl, rfl, fun _ => rfl⟩

/-- An operation that writes the tile store alone makes its command write it. -/
theorem writesTile_of (s : State) (i : Instr) (c : CoreId) (f : VFields) (op : BitVec 6) (ws : List (Nat × List Byte))
    (hb : opBundle i = some (c, vectorBundle (f.slot op))) (hx : op ≠ 0) (o : VecOut) (ho : vecOut s c (s.core c) (f.slot op) = o)
    (haccs : o.accs = []) (hvdst : o.vdst = none) (hmdst : o.mdst = none)
    (hstores : o.stores.map (fun e => (e.1, e.2.map (·.1))) = ws.map fun w => (tileAddr c w.1, w.2)) : WritesTile s c i ws := by
  intro h hnow hd
  have hnow' : ∀ e ∈ o.stores, (s.core c).writeWaits c (s.core c).seqNo e.1 e.2.length = false ∧
      (s.core c).heldMeets (s.core c).seqNo e.1 e.2.length = false := by
    intro e he
    have hmem : (e.1, e.2.map (·.1)) ∈ ws.map fun w => (tileAddr c w.1, w.2) :=
      hstores ▸ List.mem_map_of_mem (f := fun e : Nat × List PByte => (e.1, e.2.map (·.1))) he
    obtain ⟨w, hw, hwe⟩ := List.mem_map.1 hmem
    obtain ⟨ha, hbs⟩ := Prod.mk.inj hwe
    have hlen : e.2.length = w.2.length := by rw [hbs, List.length_map]
    rw [← ha, hlen]
    exact hnow w hw
  obtain ⟨hmem, hacc, hcores⟩ := vecKeep_tile c (s.core c).pc (f.slot op) o s haccs hnow'
  have hself := (hcores c).trans (core_modCore_self _ _ _)
  obtain ⟨hsregs, htokens, hstep, hphase, hqueues, hdescs, harrays, hpc⟩ := keepCore_keeps s.cycle (f.slot op) o (s.core c)
  have hvregs := keepCore_vregs s.cycle (f.slot op) o (s.core c)
  have hmasks := keepCore_masks s.cycle (f.slot op) o (s.core c)
  rw [hvdst] at hvregs
  rw [hmdst] at hmasks
  have hd' : (ws.map fun w => (tileAddr c w.1, w.2)).Pairwise fun x y => x.1 + x.2.length ≤ y.1 ∨ y.1 + y.2.length ≤ x.1 :=
    List.pairwise_map.2 (hd.imp fun h => by simp only [tileAddr]; omega)
  refine ⟨_, vec_exec s i c _ hb h hx, ?_⟩
  rw [ho, core_modCore_self, hself]
  refine ⟨⟨hsregs, htokens, hstep, hphase, hqueues, hdescs, harrays, congrArg (· + 1) hpc⟩, hvregs, hmasks, hacc, fun d hd => ?_,
    fun w hw n hn => ?_, fun a ha => ?_⟩
  · have hne : (d : Nat) ≠ c := fun h => hd (Fin.ext h)
    rw [core_modCore_ne _ _ _ hne, hcores, core_modCore_ne _ _ _ hne]
  · rw [State.byte, modCore_mem, hmem, hstores]
    exact memSetAll_inside s.mem _ hd' (tileAddr c w.1, w.2) (List.mem_map_of_mem (f := fun w => (tileAddr c w.1, w.2)) hw) n hn
  · rw [State.byte, modCore_mem, hmem, hstores]
    refine memSetAll_outside s.mem _ a fun w hw => ?_
    obtain ⟨v, hv, rfl⟩ := List.mem_map.1 hw
    exact ha v hv

/-! ### The operations (R122, R123, R126, R128) -/

@[simp] theorem map_fst_marked (p : Bool) (bs : List Byte) : (marked p bs).map (·.1) = bs := by simp [marked, Function.comp_def]

/-- The bytes that a narrowing store writes, without their marks (R122). -/
theorem storeElems_stores (s : State) (c : Nat) (k : Core) (x : VectorSlot) (src : Nat → XNum × Bool) :
    (storeElems s c k x src).stores.map (fun e => (e.1, e.2.map (·.1))) = [(tileAddr c (vecOffset k x),
      (List.range 256).flatMap fun i => toBytes (elemBytes x.fmt.toNat) (encodeElem x.fmt.toNat 0 (classMode x)
        (if classMode x = .sr then drawElem (vecDraw s k x) ((k.sreg x.d).toNat + i) else 0) (src i).1).bits)] := by
  simp [storeElems, List.map_flatMap, List.flatMap_map]

/-- The bytes that a pack writes into its two planes, without their marks (R123); `taken` is the exponent that PACKX takes for a block. -/
theorem vecPack_stores (s : State) (c : Nat) (k : Core) (x : VectorSlot) (taken : Nat → Option Nat)
    (htaken : ∀ b, (if x.op == 0x2D then
      some (fld (laneAt (k.vreg (BitVec.ofNat 5 (x.imm.toNat / 2 ^ 16))) (32 * b)).val 0 8) else none) = taken b) :
    let lane := if x.imm.getLsbD 15 then 7 else 0
    let w := blockWidth x.fmt.toNat
    let block := fun (b : Nat) => toBlock x.fmt.toNat (taken b) (classMode x)
      (fun i => if classMode x = .sr then drawElem (vecDraw s k x) ((k.sreg x.d).toNat + (32 * b + i)) else 0)
      ((List.range 32).map fun i => laneNum lane (laneAt (k.vreg x.a) (32 * b + i)))
    (vecPack s c k x).stores.map (fun e => (e.1, e.2.map (·.1))) =
      [(tileAddr c (packOffsets k x).1, (List.range 8).flatMap fun b => toBytes (4 * w) (packElems w (block b).elems)),
        (tileAddr c (packOffsets k x).2, (List.range 8).flatMap fun b => [BitVec.ofNat 8 (block b).x])] := by
  simp only [vecPack, List.map_cons, List.map_nil, List.map_flatMap, List.flatMap_map, map_fst_marked, htaken, Nat.add_assoc]

/-! ### Accumulator entries after a write (R81, R82) -/

/-- Two entries have one key when their bank and their number modulo 65,536 agree. -/
theorem accKey_eq_iff (q m ph n : Nat) : accKey q m = accKey ph n ↔ q = ph ∧ m % 65536 = n % 65536 := by
  unfold accKey
  omega

/-- An entry after a write of an entry (R82). -/
theorem entry_setEntry (s : State) (ph n z : Nat) (p : Bool) (q m : Nat) :
    (s.setEntry ph n z p).entry q m = if accKey q m = accKey ph n then mkEntry z p else s.entry q m :=
  mget_mset 0 s.acc (accKey ph n) (accKey q m) (mkEntry z p)

/-- Of 256 consecutive entries those that are named are written (R82). -/
theorem entry_foldl_setEntry (ph e : Nat) (z : Nat → Nat) (p : Nat → Bool) (on : List Nat) (hon : on.Nodup) (hlt : ∀ i ∈ on, i < 256)
    (s : State) (n : Nat) (hn : n < 256) :
    (on.foldl (fun t i => t.setEntry ph (e + i) (z i) (p i)) s).entry ph (e + n) =
      if n ∈ on then mkEntry (z n) (p n) else s.entry ph (e + n) := by
  have hother : ∀ t : State, ∀ i ∈ on, i ≠ n → (t.setEntry ph (e + i) (z i) (p i)).entry ph (e + n) = t.entry ph (e + n) := by
    intro t i hi hne
    have hi := hlt i hi
    rw [entry_setEntry, if_neg (by rw [accKey_eq_iff]; omega)]
  split
  next hmem =>
    have hself : ∀ t : State, (t.setEntry ph (e + n) (z n) (p n)).entry ph (e + n) = mkEntry (z n) (p n) :=
      fun t => by rw [entry_setEntry, if_pos rfl]
    rw [foldl_once (State.entry · ph (e + n)) (State.entry · ph (e + n)) _ on n hon hmem
      (fun t u _ => (hself t).trans (hself u).symm) hother hother s, hself]
  next hmem => exact foldl_keeps_mem (State.entry · ph (e + n)) _ on (fun t i hi => hother t i hi fun h => hmem (h ▸ hi)) s

/-- Every other entry stays. -/
theorem entry_foldl_setEntry_other (ph e : Nat) (z : Nat → Nat) (p : Nat → Bool) (on : List Nat) (s : State) (q m : Nat)
    (h : ∀ i ∈ on, accKey q m ≠ accKey ph (e + i)) :
    (on.foldl (fun t i => t.setEntry ph (e + i) (z i) (p i)) s).entry q m = s.entry q m :=
  foldl_keeps_mem (State.entry · q m) _ on (fun t i hi => by rw [entry_setEntry, if_neg (h i hi)]) s

/-- What a write of an entry leaves, several leave. -/
theorem foldl_setEntry_keeps {γ : Type} (g : State → γ) (hg : ∀ s ph n z p, g (State.setEntry s ph n z p) = g s)
    (l : List (Nat × Nat × Nat × Bool)) (s : State) : g (l.foldl (fun t e => t.setEntry e.1 e.2.1 e.2.2.1 e.2.2.2) s) = g s := by
  refine foldl_keeps g _ (fun t e => ?_) l s
  exact hg t _ _ _ _

/-- An operation that writes entries alone changes them, its core, and what their words carry. -/
theorem vecKeep_entries (c : Nat) (b : BitVec 32) (x : VectorSlot) (o : VecOut) (s : State) (hstores : o.stores = []) :
    (vecKeep c b x o s).acc =
      (o.accs.foldl (fun t e => t.setEntry e.1 e.2.1 e.2.2.1 e.2.2.2) (s.modCore c (keepCore s.cycle x o))).acc ∧
    (vecKeep c b x o s).mem = s.mem ∧ (vecKeep c b x o s).marks = s.marks ∧
    ∀ d, (vecKeep c b x o s).core d = (s.modCore c (keepCore s.cycle x o)).core d := by
  have hu : vecKeep c b x o s = keepBite c b x o
      (o.accs.foldl (fun t e => t.setEntry e.1 e.2.1 e.2.2.1 e.2.2.2) (s.modCore c (keepCore s.cycle x o))) := by
    unfold vecKeep
    rw [hstores]
    rfl
  have hkeeps := fun {γ : Type} (g : State → γ) hg => foldl_setEntry_keeps g hg o.accs (s.modCore c (keepCore s.cycle x o))
  have hmem := hkeeps State.mem fun _ _ _ _ _ => rfl
  have hmarks := hkeeps State.marks fun _ _ _ _ _ => rfl
  have hcore := fun d => hkeeps (State.core · d) fun _ _ _ _ _ => rfl
  rw [hu]
  obtain e | ⟨i, e⟩ := keepBite_state c b x o
      (o.accs.foldl (fun t e => t.setEntry e.1 e.2.1 e.2.2.1 e.2.2.2) (s.modCore c (keepCore s.cycle x o))) <;>
    rw [e] <;> exact ⟨rfl, hmem, hmarks, hcore⟩

/-- A command whose product is entries alone writes them, and leaves memory, registers and other cores. -/
theorem entries_exec (s : State) (i : Instr) (c : CoreId) (f : VFields) (op : BitVec 6) (hb : opBundle i = some (c, vectorBundle (f.slot op)))
    (h : Issues s i) (hx : op ≠ 0) (o : VecOut) (ho : vecOut s c (s.core c) (f.slot op) = o) (hstores : o.stores = [])
    (hvdst : o.vdst = none) (hmdst : o.mdst = none) :
    ∃ t u : State, exec i s = .next t ∧ VectorKeeps (s.core c) (t.core c) ∧ (t.core c).vregs = (s.core c).vregs ∧
      (t.core c).masks = (s.core c).masks ∧ t.mem = s.mem ∧ t.marks = s.marks ∧ (∀ d : CoreId, d ≠ c → t.core d = s.core d) ∧
      u.acc = s.acc ∧ t.acc = (o.accs.foldl (fun t e => t.setEntry e.1 e.2.1 e.2.2.1 e.2.2.2) u).acc := by
  obtain ⟨hacc, hmem, hmarks, hcores⟩ := vecKeep_entries c (s.core c).pc (f.slot op) o s hstores
  obtain ⟨hsregs, htokens, hstep, hphase, hqueues, hdescs, harrays, hpc⟩ := keepCore_keeps s.cycle (f.slot op) o (s.core c)
  have hvregs := keepCore_vregs s.cycle (f.slot op) o (s.core c)
  have hmasks := keepCore_masks s.cycle (f.slot op) o (s.core c)
  rw [hvdst] at hvregs
  rw [hmdst] at hmasks
  have hself := (hcores c).trans (core_modCore_self _ _ _)
  refine ⟨_, s.modCore c (keepCore s.cycle (f.slot op) o), vec_exec s i c _ hb h hx, ?_⟩
  rw [ho, core_modCore_self, hself]
  refine ⟨⟨hsregs, htokens, hstep, hphase, hqueues, hdescs, harrays, congrArg (· + 1) hpc⟩, hvregs, hmasks, hmem, hmarks, fun d hd => ?_,
    modCore_acc s c (keepCore s.cycle (f.slot op) o), hacc⟩
  have hne : (d : Nat) ≠ c := fun h => hd (Fin.ext h)
  rw [core_modCore_ne _ _ _ hne, hcores, core_modCore_ne _ _ _ hne]

/-- The product of ADRN on an enabled array: the entries narrowed (R82, R122, R128). -/
theorem adrn_out (s : State) (c : Nat) (f : VFields) (ph : Nat) (hph : s.physArray c (fld ((s.core c).sreg f.c) 16 2) = some ph) :
    let k := s.core c
    vecOut s c k (f.slot 0x3A) = storeElems s c k (f.slot 0x3A) fun i =>
      (laneNum 7 (entryLane (s.entry ph (fld (k.sreg f.c) 0 16 + i))), (entryLane (s.entry ph (fld (k.sreg f.c) 0 16 + i))).psn) := by
  intro k
  have ht : (accTarget k (f.slot 0x3A)).1 = fld (k.sreg f.c) 16 2 := rfl
  show vecAdrn s c k (f.slot 0x3A) = _
  unfold vecAdrn
  dsimp only
  rw [ht, hph]
  rfl

/-- The product of AWR on an enabled array: the entries of the lanes that the mask selects (R82, R128). -/
theorem awr_out (s : State) (c : Nat) (f : VFields) (ph : Nat) (hph : s.physArray c (fld ((s.core c).sreg f.c) 16 2) = some ph) :
    let k := s.core c
    let la := laneAt (k.vreg f.a)
    let on := (List.range 256).filter fun i => (k.mreg f.mask.toNat).getLsbD i
    vecOut s c k (f.slot 0x39) =
      { accs := on.map fun i => (ph, fld (k.sreg f.c) 0 16 + i, (la i).val.toNat, (la i).psn)
        tagged := on.map fun i => (i, laneNum 7 (la i), (la i).psn)
        kept := on.filter fun i => (la i).psn } := by
  intro k la on
  have ht : (accTarget k (f.slot 0x39)).1 = fld (k.sreg f.c) 16 2 := rfl
  show vecAwr s c k (f.slot 0x39) = _
  unfold vecAwr
  dsimp only
  rw [ht, hph]
  rfl

/-- Settles O10: each store writes the bytes of its product, and AWR the entries of the lanes that the mask selects. -/
theorem vectorStores : Obligations.VectorStores := by
  unfold Obligations.VectorStores
  constructor
  · intro s c f k fmt imm sb off w mode id draw la elems lane block planes xr
    refine ⟨?_, ?_, ?_, ?_, fun ph hph => ?_⟩
    · exact writesTile_of s _ c f 0x29 _ rfl (by decide) _ rfl rfl rfl rfl (storeElems_stores s c k (f.slot 0x29) _)
    · exact writesTile_of s _ c f 0x2C _ rfl (by decide) _ rfl rfl rfl rfl (vecPack_stores s c k (f.slot 0x2C) _ fun _ => rfl)
    · exact writesTile_of s _ c f 0x2D _ rfl (by decide) _ rfl rfl rfl rfl (vecPack_stores s c k (f.slot 0x2D) _ fun _ => rfl)
    · exact writesTile_of s _ c f 0x3C _ rfl (by decide) (vecSard c k (f.slot 0x3C)) rfl rfl rfl rfl
        (congrArg (fun l => [(_, l)]) (map_fst_marked _ _))
    · have hout := adrn_out s c f ph hph
      exact writesTile_of s _ c f 0x3A _ rfl (by decide) _ hout rfl rfl rfl (storeElems_stores s c k (f.slot 0x3A) _)
  · intro s c f ph k e m h hph
    obtain ⟨t, u, hexec, hkeeps, hvregs, hmasks, hmem, hmarks, hcores, hu, hacc⟩ :=
      entries_exec s _ c f 0x39 rfl h (by decide) _ (awr_out s c f ph hph) rfl rfl rfl
    rw [List.foldl_map] at hacc
    have hentry : ∀ q n, u.entry q n = s.entry q n := fun q n => congrArg (mget 0 · (accKey q n)) hu
    have hlt : ∀ i ∈ (List.range 256).filter fun i => m.getLsbD i, i < 256 := fun i hi => List.mem_range.1 (List.mem_of_mem_filter hi)
    refine ⟨t, hexec, hkeeps, hvregs, hmasks, hmem, hmarks, hcores, fun n hn => ?_, fun q n hn hout => ?_⟩
    · rw [State.entry, hacc, ← State.entry, entry_foldl_setEntry ph e _ _ _ (List.nodup_range.filter _) hlt u n hn, hentry]
      simp only [List.mem_filter, List.mem_range, hn, true_and]
      rfl
    · rw [State.entry, hacc, ← State.entry, entry_foldl_setEntry_other, hentry]
      intro i hi hkey
      obtain ⟨hq, hi'⟩ := (accKey_eq_iff ..).1 hkey
      have := hlt i hi
      obtain h | h := hout
      · exact h hq
      · exact h i this (by rw [← hi', Nat.mod_eq_of_lt hn])

end Sys2Proof.Machine

/-! ## What reads add to the error ring, and what they leave of the entries -/

namespace Sys2Proof.Machine

/-! ### Records are only added (R452, R457) -/

/-- Between s and t the error ring has only grown. -/
def RingGrows (s t : State) : Prop := s.errRing <+: t.errRing

namespace RingGrows

theorem refl (s : State) : RingGrows s s := List.prefix_rfl

theorem trans {s t u : State} (h : RingGrows s t) (h' : RingGrows t u) : RingGrows s u := List.IsPrefix.trans h h'

theorem of_eq {s t : State} (h : t.errRing = s.errRing) : RingGrows s t := by
  rw [RingGrows, h]

theorem foldl {β : Type} (f : State → β → State) (hf : ∀ s x, RingGrows s (f s x)) (l : List β) (s : State) :
    RingGrows s (l.foldl f s) := foldl_rel refl trans f hf l s

theorem emit (s : State) (i : RecInfo) : RingGrows s (s.emit i) := List.prefix_append _ _

end RingGrows

/-- Between s and t a record of a code has been written. -/
def Recorded (s t : State) (code : Nat) : Prop := ∃ (u : State) (i : RecInfo), i.code = code ∧ RingGrows s u ∧ RingGrows (u.emit i) t

namespace Recorded

theorem after {s s' t : State} {code : Nat} (h : RingGrows s s') : Recorded s' t code → Recorded s t code :=
  fun ⟨u, i, hi, hs, ht⟩ => ⟨u, i, hi, h.trans hs, ht⟩

theorem before {s t t' : State} {code : Nat} (h : RingGrows t t') : Recorded s t code → Recorded s t' code :=
  fun ⟨u, i, hi, hs, ht⟩ => ⟨u, i, hi, hs, ht.trans h⟩

/-- The record stands behind the ring of s. -/
theorem exists_rec {s t : State} {code : Nat} (h : Recorded s t code) :
    ∃ r ∈ t.errRing.drop s.errRing.length, r.code = BitVec.ofNat 8 code := by
  obtain ⟨u, i, rfl, ⟨l, hl⟩, ⟨l', hl'⟩⟩ := h
  refine ⟨u.record i, ?_, rfl⟩
  rw [← hl', emit_errRing, ← hl]
  simp

end Recorded

/-! ### Reads of ranges (R192, R193, R197) -/

/-- What a vault shows of its temperatures (R212, R213, R215). -/
def Vault.heat (u : Vault) : Nat × BitVec 11 × BitVec 3 × BitVec 2 := (u.row, u.temp, u.hotdie, u.rmode)

/-- What reads and writes of memory leave of a vault: its temperatures and its directory. -/
def Vault.standing (u : Vault) : (Nat × BitVec 11 × BitVec 3 × BitVec 2) × SMap HotEntry := (u.heat, u.dir)

/-- An update that keeps a vault's standing keeps that of every vault. -/
theorem standing_modVault (s : State) (v : Nat) (f : Vault → Vault) (hf : ∀ u, (f u).standing = u.standing) (i : Nat) :
    ((s.modVault v f).vault i).standing = (s.vault i).standing := by
  by_cases h : i = v
  · rw [h, vault_modVault_self, hf]
  · rw [vault_modVault_ne _ _ _ h]

/-- Between s and t records have only been added, and every accumulator entry and the standing of every vault have stayed: what reads and
writes of memory leave. -/
structure MemoryFrame (s t : State) : Prop where
  ring : RingGrows s t
  acc : t.acc = s.acc
  standing : ∀ v, (t.vault v).standing = (s.vault v).standing

namespace MemoryFrame

theorem refl (s : State) : MemoryFrame s s := ⟨RingGrows.refl s, rfl, fun _ => rfl⟩

theorem trans {s t u : State} (h : MemoryFrame s t) (h' : MemoryFrame t u) : MemoryFrame s u :=
  ⟨h.ring.trans h'.ring, h'.acc.trans h.acc, fun v => (h'.standing v).trans (h.standing v)⟩

theorem foldl {β : Type} (f : State → β → State) (hf : ∀ s x, MemoryFrame s (f s x)) (l : List β) (s : State) :
    MemoryFrame s (l.foldl f s) := foldl_rel refl trans f hf l s

theorem of_eq {s t : State} (h : t.errRing = s.errRing) (h' : t.acc = s.acc) (hv : t.vaults = s.vaults) : MemoryFrame s t :=
  ⟨RingGrows.of_eq h, h', fun v => by rw [State.vault, hv, State.vault]⟩

theorem emit (s : State) (i : RecInfo) : MemoryFrame s (s.emit i) := ⟨RingGrows.emit s i, rfl, fun _ => rfl⟩

theorem modVault (s : State) (v : Nat) (f : Vault → Vault) (hf : ∀ u, (f u).standing = u.standing) : MemoryFrame s (s.modVault v f) :=
  ⟨RingGrows.of_eq rfl, rfl, standing_modVault s v f hf⟩

theorem noteEvent (s : State) (k : Nat) (u : BitVec 16) (c l : Nat) : MemoryFrame s (s.noteEvent k u c l) := by
  unfold State.noteEvent
  dsimp only
  split <;> exact of_eq rfl rfl rfl

theorem flushDetections (s : State) (v : Nat) : MemoryFrame s (flushDetections s v) := by
  unfold Machine.flushDetections
  dsimp only
  split
  · exact (emit s _).trans (modVault _ _ _ fun _ => rfl)
  · exact modVault s _ _ fun _ => rfl

theorem detectAt (s : State) (v die a code : Nat) : MemoryFrame s (detectAt s v die a code) := by
  unfold Machine.detectAt
  extract_lets w s' u inst
  have hs : MemoryFrame s s' := by
    dsimp only [s']
    split
    · exact refl s
    · exact (flushDetections s v).trans (modVault _ _ _ fun _ => rfl)
  refine hs.trans ?_
  split
  · exact (emit s' _).trans (modVault _ _ _ fun _ => rfl)
  · exact modVault s' _ _ fun _ => rfl

theorem readGranule (s : State) (g : Nat) (x y : Disturb) : MemoryFrame s (readGranule s g x y) := by
  unfold Machine.readGranule
  extract_lets a v stored data unit storedMeta good bad decoded
  have rewritten : ∀ b m v ce ue r, MemoryFrame s ((rewriteGranule s g b m).modVault v fun u => u.ecc ce ue r) := fun b m v _ _ _ =>
    (of_eq rfl rfl rfl : MemoryFrame s (rewriteGranule s g b m)).trans (modVault _ v _ fun _ => rfl)
  have hgood : ∀ d fix r, MemoryFrame s (good d s fix r) := by
    intro d fix r
    dsimp only [good]
    split
    · exact (rewritten _ _ _ _ _ _).trans (noteEvent _ _ _ _ _)
    · exact rewritten _ _ _ _ _ _
  have hbad : ∀ d, MemoryFrame s (bad d s) := fun d => (rewritten _ _ _ _ _ _).trans (detectAt _ _ _ _ _)
  split
  · split
    · exact refl s
    · exact hgood _ _ _
  · exact hgood _ _ _
  · split
    · exact hgood _ _ _
    · exact hgood _ _ _
    · exact hbad _

end MemoryFrame

/-- Flips in a word write no record. -/
theorem sramFlip_errRing (s : State) (key : Nat) (e : BitVec 72) : (sramFlip s key e).errRing = s.errRing := by
  unfold sramFlip
  dsimp only
  split
  · rfl
  · split <;> rfl

/-- A read of a word of an SRAM at most adds a record (R197). -/
theorem RingGrows.sramRead (s : State) (key : Nat) : RingGrows s (sramRead s key).1 := by
  unfold Machine.sramRead
  dsimp only
  split
  · exact refl s
  · dsimp only
    refine trans ?_ (MemoryFrame.noteEvent _ _ _ _ _).ring
    split <;> exact of_eq (sramFlip_errRing s key _)
  · exact emit s _

/-- A read of a word of an SRAM leaves what the vaults show of their temperatures, and the directory. -/
theorem sramRead_standing (s : State) (key v : Nat) : ((sramRead s key).1.vault v).standing = (s.vault v).standing := by
  have hflip : ∀ e, (sramFlip s key e).vaults = s.vaults := fun e => by
    unfold sramFlip
    dsimp only
    split
    · rfl
    · split <;> rfl
  have hvault : ∀ e, (sramFlip s key e).vault v = s.vault v := fun e => by rw [State.vault, hflip, State.vault]
  unfold sramRead
  dsimp only
  split
  · rfl
  · dsimp only
    rw [(MemoryFrame.noteEvent _ _ _ _ _).standing]
    split
    · refine (standing_modVault _ _ _ ?_ v).trans (by rw [hvault])
      exact fun _ => rfl
    · rw [hvault]
  · rfl

/-- A read of a word of a tile store or a hot-row slot leaves the entries. -/
theorem sramRead_acc (s : State) (key : Nat) (h : key < accWords) : (sramRead s key).1.acc = s.acc := by
  have hflip : ∀ e, (sramFlip s key e).acc = s.acc := fun e => by
    unfold sramFlip
    dsimp only
    rw [if_pos h]
  unfold sramRead
  dsimp only
  split
  · rfl
  · dsimp only
    refine (MemoryFrame.noteEvent _ _ _ _ _).acc.trans ?_
    split <;> exact hflip _
  · rfl

/-- A fold of steps that a reflexive and transitive relation covers for the elements of the list is covered by it. -/
theorem foldl_rel_mem {σ β : Type} {R : σ → σ → Prop} (refl : ∀ s, R s s) (trans : ∀ {s t u}, R s t → R t u → R s u) (f : σ → β → σ)
    (l : List β) (hf : ∀ s, ∀ x ∈ l, R s (f s x)) (s : σ) : R s (l.foldl f s) := by
  induction l generalizing s with
  | nil => exact refl s
  | cons x l ih => exact trans (hf s x (by simp)) (ih (fun s y hy => hf s y (List.mem_cons_of_mem _ hy)) _)

namespace MemoryFrame

theorem fetchTile (s : State) (a n : Nat) : MemoryFrame s (fetchTile s a n) := by
  refine foldl_rel_mem refl trans _ _ (fun t w hw => ?_) s
  have hkey : w < accWords := by
    obtain ⟨-, hend⟩ := Bool.and_eq_true_iff.1 (List.mem_filter.1 hw).2
    have hend : 8 * w < Config.tileEnd := of_decide_eq_true hend
    simp only [Config.tileEnd, accWords] at hend ⊢
    omega
  have hread : MemoryFrame t (sramRead t w).1 := ⟨RingGrows.sramRead t w, sramRead_acc t w hkey, sramRead_standing t w⟩
  dsimp only
  split
  · exact hread.trans (of_eq rfl rfl rfl)
  · exact hread

theorem fetchRange (s : State) (a n : Nat) : MemoryFrame s (fetchRange s a n) :=
  (foldl _ (fun t g => readGranule t g quiet quiet) _ s).trans (fetchTile _ _ _)

end MemoryFrame

/-! ### Entries at their banks (R81, R82) -/

/-- What a read of the entry of a key finds: the entry, and the flips that stand in its code word. -/
def State.cell (s : State) (key : Nat) : Word × BitVec 72 := (mget 0 s.acc key, mget 0 s.sramErrs (accWords + key))

@[simp] theorem modVault_cell (s : State) (v : Nat) (f : Vault → Vault) (key : Nat) : (s.modVault v f).cell key = s.cell key := rfl

@[simp] theorem bankRecord_cell (s : State) (ph n key : Nat) : (bankRecord s ph n).cell key = s.cell key := rfl

/-- An entry is the first part of its cell. -/
theorem entry_eq_cell (s : State) (ph n : Nat) : s.entry ph n = (s.cell (accKey ph n)).1 := rfl

/-- A write of an entry leaves the cells of other entries. -/
theorem cell_setEntry_ne (s : State) (ph n z : Nat) (p : Bool) (key : Nat) (h : key ≠ accKey ph n) :
    (s.setEntry ph n z p).cell key = s.cell key := by
  have hkey : accWords + key ≠ accWords + accKey ph n := by omega
  unfold State.cell State.setEntry
  dsimp only
  rw [mget_mset_ne _ _ _ h, mget_mset_ne _ _ _ hkey]

/-- The history keeps no cell. -/
@[simp] theorem noteEvent_cell (s : State) (k : Nat) (u : BitVec 16) (c l key : Nat) : (s.noteEvent k u c l).cell key = s.cell key := by
  unfold State.noteEvent
  dsimp only
  split <;> rfl

/-- Flips in the word of one entry leave the cells of the others. -/
theorem sramFlip_cell_ne (s : State) (key : Nat) (e : BitVec 72) (m : Nat) (h : m ≠ key) :
    (sramFlip s (accWords + key) e).cell m = s.cell m := by
  have hlow : ¬ accWords + key < accWords := by omega
  have hkey : accWords + m ≠ accWords + key := by omega
  have hacc : m ≠ accWords + key - accWords := by omega
  unfold sramFlip State.cell
  dsimp only
  rw [if_neg hlow]
  split <;> simp only [mget_mset_ne _ _ _ hkey, mget_mset_ne _ _ _ hacc]

/-- Flips in the word of an entry make of its cell what they make of it in another state with the same cell. -/
theorem sramFlip_cell_congr (s t : State) (e : BitVec 72) (key : Nat) (h : s.cell key = t.cell key) :
    (sramFlip s (accWords + key) e).cell key = (sramFlip t (accWords + key) e).cell key := by
  have hlow : ¬ accWords + key < accWords := by omega
  obtain ⟨hentry, hflips⟩ := Prod.mk.inj h
  unfold sramFlip State.cell
  dsimp only
  rw [if_neg hlow, if_neg hlow]
  split
  · dsimp only
    rw [Nat.add_sub_cancel_left, mget_mset_self, mget_mset_self, mget_mset_self, mget_mset_self, hentry, hflips]
  · dsimp only
    rw [mget_mset_self, mget_mset_self, hentry, hflips]

/-- A read of the word of one entry leaves the cells of the others. -/
theorem sramRead_cell_ne (s : State) (key m : Nat) (h : m ≠ key) : (sramRead s (accWords + key)).1.cell m = s.cell m := by
  unfold sramRead
  dsimp only
  split
  · rfl
  · dsimp only
    split <;> simp [sramFlip_cell_ne s key _ m h]
  · rfl

/-- What a read of an entry's word tells, and the cell after it, follow from the cell before. -/
theorem sramRead_cell_congr (s t : State) (key : Nat) (h : s.cell key = t.cell key) :
    (sramRead s (accWords + key)).2 = (sramRead t (accWords + key)).2 ∧
      (sramRead s (accWords + key)).1.cell key = (sramRead t (accWords + key)).1.cell key := by
  obtain ⟨-, hflips⟩ := Prod.mk.inj h
  unfold sramRead
  dsimp only
  rw [← hflips]
  split
  · exact ⟨rfl, h⟩
  · refine ⟨rfl, ?_⟩
    dsimp only
    split <;> simp [sramFlip_cell_congr s t _ key h]
  · exact ⟨rfl, h⟩

/-- The entry after its read: with PSN when its word cannot be corrected (R82). -/
theorem readEntry_entry (s : State) (ph n : Nat) :
    (readEntry s ph n).entry ph n =
      let r := sramRead s (accWords + accKey ph n)
      if r.2 then mkEntry (r.1.entry ph n).toNat true else r.1.entry ph n := by
  unfold readEntry
  extract_lets r s'
  have hs : s'.entry ph n = if r.2 then mkEntry (r.1.entry ph n).toNat true else r.1.entry ph n := by
    dsimp only [s']
    split
    · rw [entry_setEntry, if_pos rfl]
    · rfl
  rw [← hs]
  clear_value s'
  split <;> rfl

/-- The entry after its read follows from its cell. -/
theorem readEntry_entry_congr (s t : State) (ph n : Nat) (h : s.cell (accKey ph n) = t.cell (accKey ph n)) :
    (readEntry s ph n).entry ph n = (readEntry t ph n).entry ph n := by
  obtain ⟨hbad, hcell⟩ := sramRead_cell_congr s t _ h
  rw [readEntry_entry, readEntry_entry]
  dsimp only
  rw [hbad, entry_eq_cell, entry_eq_cell, hcell]

/-- A read of an entry leaves the cells of the others. -/
theorem readEntry_cell_ne (s : State) (ph n key : Nat) (h : key ≠ accKey ph n) : (readEntry s ph n).cell key = s.cell key := by
  unfold readEntry
  extract_lets r s'
  have hs : s'.cell key = s.cell key := by
    dsimp only [s']
    split
    · exact (cell_setEntry_ne _ _ _ _ _ _ h).trans (sramRead_cell_ne s _ key h)
    · exact sramRead_cell_ne s _ key h
  rw [← hs]
  clear_value s'
  split <;> simp

/-- A read of an entry at most adds records (R82). -/
theorem RingGrows.readEntry (s : State) (ph n : Nat) : RingGrows s (readEntry s ph n) := by
  unfold Machine.readEntry
  extract_lets r s'
  have hs : RingGrows s s' := by
    dsimp only [s']
    split
    · exact (RingGrows.sramRead s _).trans (of_eq rfl)
    · exact RingGrows.sramRead s _
  refine hs.trans ?_
  clear_value s'
  split
  · exact refl s'
  · exact emit s' _

end Sys2Proof.Machine

/-! ## Results of a pass (O13) -/

namespace Sys2Proof.Machine

/-! ### Arrays and their targets after an update -/

@[simp] theorem array_modArray_self (k : Core) (a : Nat) (f : ArrayUnit → ArrayUnit) : (k.modArray a f).array a = f (k.array a) := by
  simp [Core.modArray, Core.array, mmod]

theorem array_modArray_ne (k : Core) (a : Nat) (f : ArrayUnit → ArrayUnit) {b : Nat} (hb : b ≠ a) : (k.modArray a f).array b = k.array b := by
  simp [Core.modArray, Core.array, mmod, mget_mset_ne _ _ _ hb]

@[simp] theorem unit_half_modHalf_self (u : ArrayUnit) (h : Nat) (f : HalfUnit → HalfUnit) : (u.modHalf h f).half h = f (u.half h) := by
  simp [ArrayUnit.modHalf, ArrayUnit.half, mmod]

theorem unit_half_modHalf_ne (u : ArrayUnit) (h : Nat) (f : HalfUnit → HalfUnit) {g : Nat} (hg : g ≠ h) : (u.modHalf h f).half g = u.half g := by
  simp [ArrayUnit.modHalf, ArrayUnit.half, mmod, mget_mset_ne _ _ _ hg]

@[simp] theorem half_modHalf_self (s : State) (c a h : Nat) (f : HalfUnit → HalfUnit) : (s.modHalf c a h f).half c a h = f (s.half c a h) := by
  simp [State.half, State.modHalf]

theorem half_modHalf_ne (s : State) (c a h : Nat) (f : HalfUnit → HalfUnit) {g : Nat} (hg : g ≠ h) :
    (s.modHalf c a h f).half c a g = s.half c a g := by
  simp [State.half, State.modHalf, unit_half_modHalf_ne _ _ _ hg]

@[simp] theorem array_modHalf_refuse (s : State) (c a h : Nat) (f : HalfUnit → HalfUnit) (b : Nat) :
    (((s.modHalf c a h f).core c).array b).refuse = ((s.core c).array b).refuse := by
  rw [State.modHalf, core_modCore_self]
  by_cases hb : b = a
  · subst hb
    rw [array_modArray_self]
    rfl
  · rw [array_modArray_ne _ _ _ hb]

/-- Where the cores agree, so do the targets of their arrays. -/
theorem half_congr {s t : State} (h : t.cores = s.cores) (c a g : Nat) : t.half c a g = s.half c a g := by
  simp only [State.half, State.core, h]

/-! ### Waiting writes that go, and chains that leave (R101) -/

/-- The writes of a core that go leave the entries, the records and its arrays. -/
theorem drainHeld_keeps (n : Nat) (s : State) (c : Nat) :
    (drainHeld n s c).acc = s.acc ∧ (drainHeld n s c).errRing = s.errRing ∧ ((drainHeld n s c).core c).arrays = (s.core c).arrays := by
  induction n generalizing s with
  | zero => exact ⟨rfl, rfl, rfl⟩
  | succ n ih =>
    unfold drainHeld
    split
    · exact ⟨rfl, rfl, rfl⟩
    · next w ws _ =>
      split
      · exact ⟨rfl, rfl, rfl⟩
      · obtain ⟨hacc, hring, harrays⟩ := ih (writeP (s.modCore c fun k => { k with heldWrites := ws }) w.addr w.bytes)
        refine ⟨hacc, hring, harrays.trans ?_⟩
        show ((s.modCore c fun k => { k with heldWrites := ws }).core c).arrays = _
        rw [core_modCore_self]

theorem drain_acc (s : State) (c : Nat) : (s.drain c).acc = s.acc := (drainHeld_keeps _ s c).1

theorem drain_errRing (s : State) (c : Nat) : (s.drain c).errRing = s.errRing := (drainHeld_keeps _ s c).2.1

theorem drain_array (s : State) (c a : Nat) : ((s.drain c).core c).array a = (s.core c).array a := by
  simp only [State.drain, Core.array, (drainHeld_keeps _ s c).2.2]

theorem drain_half (s : State) (c a h : Nat) : (s.drain c).half c a h = s.half c a h := congrArg (ArrayUnit.half · h) (drain_array s c a)

/-- A chain that leaves its target takes its passes along, and nothing else of the target (R101). -/
theorem retireChain_keeps (s : State) (c a h : Nat) :
    (retireChain s c a h).acc = s.acc ∧ (retireChain s c a h).errRing = s.errRing ∧
      (∃ l, (retireChain s c a h).half c a h = { s.half c a h with passes := l }) ∧
      (((retireChain s c a h).core c).array a).refuse = ((s.core c).array a).refuse := by
  unfold retireChain
  dsimp only
  split
  · refine ⟨drain_acc _ c, drain_errRing _ c, ⟨(s.half c a h).passes.drop (chainOf (s.half c a h).passes).length, ?_⟩, ?_⟩
    · rw [drain_half, half_modHalf_self]
    · rw [drain_array, array_modHalf_refuse]
  · exact ⟨rfl, rfl, ⟨_, rfl⟩, rfl⟩

/-! ### The span of a pass (R83) -/

/-- In a span of at most 65,536 entries each result has an entry of its own (R83). -/
theorem entryOf_injective (q : PassParams) (hcols : q.cols ≤ q.accStride) (hspan : q.span ≤ 65536) {g g' col col' : Nat} (hg : g < q.v)
    (hg' : g' < q.v) (hcol : col < q.cols) (hcol' : col' < q.cols) (h : q.entryOf g col = q.entryOf g' col') : g = g' ∧ col = col' := by
  unfold PassParams.entryOf at h
  unfold PassParams.span at hspan
  have hle : g * q.accStride ≤ (q.v - 1) * q.accStride := Nat.mul_le_mul_right _ (by omega)
  have hle' : g' * q.accStride ≤ (q.v - 1) * q.accStride := Nat.mul_le_mul_right _ (by omega)
  have hoff : col + q.accStride * g = col' + q.accStride * g' := by
    rw [Nat.mul_comm _ g, Nat.mul_comm _ g']
    omega
  have hpos : 0 < q.accStride := by omega
  have hmod := congrArg (· % q.accStride) hoff
  have hdiv := congrArg (· / q.accStride) hoff
  simp only [Nat.add_mul_mod_self_left, Nat.add_mul_div_left _ _ hpos, Nat.mod_eq_of_lt (hcol.trans_le hcols),
    Nat.mod_eq_of_lt (hcol'.trans_le hcols), Nat.div_eq_of_lt (hcol.trans_le hcols), Nat.div_eq_of_lt (hcol'.trans_le hcols)] at hmod hdiv
  exact ⟨by omega, hmod⟩

/-! ### The results of a pass (R77 to R79, R83, R105) -/

/-- The key of the entry of a result. -/
theorem accKey_entryOf (q : PassParams) (ph g col : Nat) : accKey ph (q.entryOf g col) = accKey ph (q.accBase + g * q.accStride + col) := by
  rw [accKey_eq_iff]
  exact ⟨rfl, Nat.mod_mod _ _⟩

/-- One result leaves the cells of other entries. -/
theorem writeResult_cell_ne (s0 : State) (ph c : Nat) (p : PassParams) (w : Weights) (f : Option ArrayFault) (gp cp : Nat → Bool) (s : State)
    (g col key : Nat) (h : key ≠ accKey ph (p.entryOf g col)) : (writeResult s0 ph c p w f gp cp s g col).cell key = s.cell key := by
  unfold writeResult
  dsimp only
  split
  · rw [cell_setEntry_ne _ _ _ _ _ _ h, readEntry_cell_ne _ _ _ _ h]
  · exact cell_setEntry_ne _ _ _ _ _ _ h

/-- The entry of a result: what the fold of its column gives, added to what the entry held for a middle or an end of a chain (R79). -/
theorem writeResult_entry (s0 : State) (ph c : Nat) (p : PassParams) (w : Weights) (f : Option ArrayFault) (gp cp : Nat → Bool) (s : State)
    (g col : Nat) :
    let part := foldColumn s0 c p w f g col (w.terms p col)
    let old := entryLane ((readEntry s ph (p.entryOf g col)).entry ph (p.entryOf g col))
    (writeResult s0 ph c p w f gp cp s g col).entry ph (p.entryOf g col) =
      if p.chain = 2 ∨ p.chain = 3 then mkEntry (toZ56 (rZ56 ((ofZ56 old.val.toNat).add part))) (gp g || cp col || old.psn)
      else mkEntry (toZ56 part) (gp g || cp col) := by
  unfold writeResult
  dsimp only
  split <;> rw [entry_setEntry, if_pos rfl]

/-- One result at most adds records (R82). -/
theorem RingGrows.writeResult (s0 : State) (ph c : Nat) (p : PassParams) (w : Weights) (f : Option ArrayFault) (gp cp : Nat → Bool) (s : State)
    (g col : Nat) : RingGrows s (writeResult s0 ph c p w f gp cp s g col) := by
  unfold Machine.writeResult
  dsimp only
  split
  · exact (RingGrows.readEntry s _ _).trans (of_eq rfl)
  · exact of_eq rfl

/-- A fold within a fold is one fold over the pairs. -/
theorem foldl_product {σ α β : Type} (f : σ → α → β → σ) (l : List α) (m : List β) (s : σ) :
    l.foldl (fun t a => m.foldl (fun t b => f t a b) t) s = (l ×ˢ m).foldl (fun t x => f t x.1 x.2) s := by
  induction l generalizing s with
  | nil => rfl
  | cons a l ih => rw [List.foldl_cons, ih, List.product_cons, List.foldl_append, List.foldl_map]

/-- Every result of a pass, in order. -/
def writeResults (s0 : State) (ph c : Nat) (q : PassParams) (w : Weights) (gp cp : Nat → Bool) : State :=
  (List.range q.v ×ˢ List.range q.cols).foldl (fun t x => writeResult s0 ph c q w none gp cp t x.1 x.2) s0

/-- In a span of at most 65,536 entries each result is as if it were written alone (R79, R83). -/
theorem writeResults_entry (s0 : State) (ph c : Nat) (q : PassParams) (w : Weights) (gp cp : Nat → Bool) (hcols : q.cols ≤ q.accStride)
    (hspan : q.span ≤ 65536) {g col : Nat} (hg : g < q.v) (hcol : col < q.cols) :
    (writeResults s0 ph c q w gp cp).entry ph (q.entryOf g col) =
      (writeResult s0 ph c q w none gp cp s0 g col).entry ph (q.entryOf g col) := by
  have hother : ∀ t : State, ∀ x ∈ List.range q.v ×ˢ List.range q.cols, x ≠ (g, col) →
      (writeResult s0 ph c q w none gp cp t x.1 x.2).cell (accKey ph (q.entryOf g col)) = t.cell (accKey ph (q.entryOf g col)) := by
    intro t x hx hne
    obtain ⟨hg', hcol'⟩ := List.mem_product.1 (show (x.1, x.2) ∈ _ from hx)
    refine writeResult_cell_ne _ _ _ _ _ _ _ _ _ _ _ _ fun hkey => hne ?_
    have hentry : q.entryOf g col = q.entryOf x.1 x.2 := by
      simpa [PassParams.entryOf] using ((accKey_eq_iff ..).1 hkey).2
    obtain ⟨h1, h2⟩ := entryOf_injective q hcols hspan hg (List.mem_range.1 hg') hcol (List.mem_range.1 hcol') hentry
    rw [h1, h2]
  refine foldl_once (State.entry · ph (q.entryOf g col)) (State.cell · (accKey ph (q.entryOf g col))) _ _ (g, col)
    (List.nodup_range.product List.nodup_range) (List.mem_product.2 ⟨List.mem_range.2 hg, List.mem_range.2 hcol⟩) (fun t u h => ?_)
    (fun t x hx hne => congrArg Prod.fst (hother t x hx hne)) hother s0
  show (writeResult _ _ _ _ _ _ _ _ t g col).entry _ _ = (writeResult _ _ _ _ _ _ _ _ u g col).entry _ _
  rw [writeResult_entry, writeResult_entry, readEntry_entry_congr t u _ _ h]

/-- Entries that no result of the pass has stay. -/
theorem writeResults_entry_other (s0 : State) (ph c : Nat) (q : PassParams) (w : Weights) (gp cp : Nat → Bool) (r n : Nat)
    (h : ∀ g < q.v, ∀ col < q.cols, accKey r n ≠ accKey ph (q.entryOf g col)) :
    (writeResults s0 ph c q w gp cp).entry r n = s0.entry r n := by
  refine foldl_keeps_mem (State.entry · r n) _ _ (fun t x hx => ?_) s0
  obtain ⟨hg, hcol⟩ := List.mem_product.1 (show (x.1, x.2) ∈ _ from hx)
  exact congrArg Prod.fst (writeResult_cell_ne _ _ _ _ _ _ _ _ _ _ _ _ (h _ (List.mem_range.1 hg) _ (List.mem_range.1 hcol)))

/-- Whether a vector has a poisoned block among those of its pass. -/
theorem poisonedActs_any (s : State) (c : Nat) (q : PassParams) (k g : Nat) (hg : g < q.v) :
    ((poisonedActs s c q k).any fun a => a.1 == g) = (List.range (q.segs * k)).any fun n => actPoison s c q g n := by
  rw [Bool.eq_iff_iff]
  simp only [poisonedActs, List.any_eq_true, List.mem_flatMap, List.mem_map, List.mem_filter, List.mem_range, beq_iff_eq]
  constructor
  · rintro ⟨_, ⟨g', _, n, ⟨hn, hp⟩, rfl⟩, rfl⟩
    exact ⟨n, hn, hp⟩
  · rintro ⟨n, hn, hp⟩
    exact ⟨(g, n), ⟨g, hg, n, ⟨hn, hp⟩, rfl⟩, rfl⟩

/-- Whether a column has a poisoned weight block in a fed segment. -/
theorem poisonedWeights_any (q : PassParams) (w : Weights) (col : Nat) (hcol : col < q.cols) :
    ((poisonedWeights q w).any fun x => x.1 == col) = (List.range q.segs).any fun seg => (List.range (w.slots q col)).any fun j =>
      weightPoison w (placeOf q col seg).2 j (placeOf q col seg).1 := by
  rw [Bool.eq_iff_iff]
  simp only [poisonedWeights, List.any_eq_true, List.mem_flatMap, List.mem_map, List.mem_filter, List.mem_range, beq_iff_eq]
  constructor
  · rintro ⟨_, ⟨seg, hseg, col', _, j, ⟨hj, hp⟩, rfl⟩, rfl⟩
    exact ⟨seg, hseg, j, hj, hp⟩
  · rintro ⟨seg, hseg, j, hj, hp⟩
    exact ⟨(col, seg, j), ⟨seg, hseg, col, hcol, j, ⟨hj, hp⟩, rfl⟩, rfl⟩

/-! ### A pass that runs (R85, R104, R105) -/

/-- The activations of a pass are read (R197). -/
def readActs (s : State) (c : Nat) (q : PassParams) : State := fetchRange (fetchRange s (tileAddr c q.aSig) q.sigSpan) (tileAddr c q.aExp) q.expSpan

theorem MemoryFrame.readActs (s : State) (c : Nat) (q : PassParams) : MemoryFrame s (readActs s c q) :=
  (fetchRange s _ _).trans (fetchRange _ _ _)

/-- Without a fault a pass writes every result. -/
theorem runPass_acc (s : State) (c ph : Nat) (p : Pass) (w : Weights) :
    (runPass s c ph p w none).1.acc = (writeResults (readActs s c p.par) ph c p.par w
      (fun g => (poisonedActs (readActs s c p.par) c p.par (w.blockSlots p.par)).any fun a => a.1 == g)
      fun col => (poisonedWeights p.par w).any fun x => x.1 == col).acc := by
  unfold writeResults
  rw [← foldl_product]
  unfold runPass
  dsimp only
  split <;> rfl

/-- A pass fails exactly on a fault that the checkers catch (R102, R104). -/
theorem runPass_status (s : State) (c ph : Nat) (p : Pass) (w : Weights) (f : Option ArrayFault) :
    (runPass s c ph p w f).2 = .residue ↔ ∃ x, f = some x ∧ caught (readActs s c p.par) c p.par w x = true := by
  have hstatus : (runPass s c ph p w f).2 = if (match f with | some x => caught (readActs s c p.par) c p.par w x | none => false) then .residue
      else if (poisonedActs (readActs s c p.par) c p.par (w.blockSlots p.par)).length + (poisonedWeights p.par w).length = 0 then .ok
      else .poison := rfl
  rw [hstatus]
  constructor
  · intro h
    cases f with
    | none => revert h; simp only [Bool.false_eq_true, if_false]; split <;> exact nofun
    | some x =>
      by_cases hc : caught (readActs s c p.par) c p.par w x = true
      · exact ⟨x, rfl, hc⟩
      · revert h; simp only [hc, Bool.false_eq_true, if_false]; split <;> exact nofun
  · rintro ⟨x, rfl, hc⟩
    exact if_pos hc

/-- A pass that runs at most adds records (R82, R202). -/
theorem RingGrows.runPass (s : State) (c ph : Nat) (p : Pass) (w : Weights) (f : Option ArrayFault) :
    RingGrows s (runPass s c ph p w f).1 := by
  unfold Machine.runPass
  extract_lets q s' k acts ws gp cp failed stands t n first
  have ht : RingGrows s' t := by
    refine foldl _ (fun t g => foldl _ (fun t col => ?_) _ t) _ s'
    split
    · exact RingGrows.writeResult s' ph c q w f gp cp t g col
    · exact refl t
  refine ((MemoryFrame.readActs s c q).ring.trans ht).trans ?_
  dsimp only
  split
  · exact refl t
  · exact emit t _

/-! ### The completion of a pass (R85, R96, R101, R104) -/

/-- Which passes of a target have completed. -/
def HalfUnit.fins (u : HalfUnit) : List Bool := u.passes.map (·.fin)

/-- A target has an oldest unfinished pass when one of its passes is unfinished. -/
theorem oldest_isSome (u : HalfUnit) : (oldest u).isSome = u.fins.any (!·) := by
  rw [oldest, HalfUnit.fins, List.any_map, List.isSome_find?]
  rfl

/-- An update of one target that leaves which passes have completed leaves it on every target. -/
theorem fins_modHalf (u : ArrayUnit) (h : Nat) (f : HalfUnit → HalfUnit) (hf : ∀ x, (f x).fins = x.fins) (g : Nat) :
    ((u.modHalf h f).half g).fins = (u.half g).fins := by
  by_cases hg : g = h
  · subst hg; rw [unit_half_modHalf_self, hf]
  · rw [unit_half_modHalf_ne _ _ _ hg]

/-- The swap of the cells completes no pass. -/
theorem swapCells_fins (u : ArrayUnit) (h : Nat) (p : Pass) (g : Nat) : ((swapCells u h p).half g).fins = (u.half g).fins := by
  unfold swapCells
  dsimp only
  refine (fins_modHalf _ _ _ ?_ g).trans ?_
  · exact fun _ => rfl
  · refine foldl_keeps (fun u : ArrayUnit => (u.half g).fins) _ (fun u x => fins_modHalf u x _ ?_ g) _ u
    exact fun _ => rfl

/-- The swap of the fold stages completes no pass. -/
theorem swapStages_fins (u : ArrayUnit) (h g : Nat) : ((swapStages u h).half g).fins = (u.half g).fins := by
  unfold swapStages
  dsimp only
  refine (fins_modHalf _ _ _ ?_ g).trans ?_
  · exact fun _ => rfl
  · refine foldl_keeps (fun u : ArrayUnit => (u.half g).fins) _ (fun u x => fins_modHalf u x _ ?_ g) _ u
    exact fun _ => rfl

/-- A vector that enters an array leaves its targets. -/
theorem admitVector_halves (k : Core) (c a b : Nat) : ((k.admitVector c a b).array a).halves = (k.array a).halves := by
  unfold Core.admitVector
  dsimp only
  rw [array_modArray_self]
  split <;> split <;> first | rfl | (unfold Core.rampArray; rw [array_modArray_self])

/-- The launch of a pass completes none. -/
theorem launch_fins (s : State) (c a h : Nat) (p : Pass) : ((launch s c a h p).half c a h).fins = (s.half c a h).fins := by
  unfold launch State.half
  dsimp only
  rw [core_modCore_self, array_modArray_self, unit_half_modHalf_self]
  have hunit : (((s.core c).admitVector c a s.cycle).array a).half h = ((s.core c).array a).half h := by
    unfold ArrayUnit.half
    rw [admitVector_halves]
  have hmap : ∀ (x : HalfUnit) (f : Pass → Pass), (∀ q, (f q).fin = q.fin) → (x.passes.map f).map (·.fin) = x.fins := by
    intro x f hf
    rw [List.map_map]
    exact List.map_congr_left fun q _ => hf q
  refine (hmap _ _ fun q => ?_).trans ?_
  · split <;> rfl
  · split
    · rw [hunit]
    · rw [swapCells_fins, hunit]

/-- The oldest pass of a target has entered: its token is launched, and it has passed the fold stages with a new tile (R75, R89). -/
def enterPass (s : State) (c a h : Nat) (p : Pass) : State :=
  let s1 := if p.started then s else launch s c a h p
  if p.par.keep then s1 else s1.modCore c fun k => k.modArray a fun x => swapStages x h

/-- The entry of a pass changes its core alone. -/
theorem enterPass_keeps (s : State) (c a h : Nat) (p : Pass) :
    (enterPass s c a h p).acc = s.acc ∧ (enterPass s c a h p).errRing = s.errRing ∧
      ((enterPass s c a h p).half c a h).fins = (s.half c a h).fins := by
  unfold enterPass
  extract_lets s1
  have h1 : s1.acc = s.acc ∧ s1.errRing = s.errRing ∧ (s1.half c a h).fins = (s.half c a h).fins := by
    dsimp only [s1]
    split
    · exact ⟨rfl, rfl, rfl⟩
    · exact ⟨rfl, rfl, launch_fins s c a h p⟩
  obtain ⟨hacc, hring, hfins⟩ := h1
  split
  · exact ⟨hacc, hring, hfins⟩
  · refine ⟨hacc, hring, Eq.trans ?_ hfins⟩
    unfold State.half
    rw [core_modCore_self, array_modArray_self, swapStages_fins]

/-- Nothing keeps the oldest pass of a target of an enabled array from its completion (R84, R92, R94, R114). -/
structure Completes (s : State) (c a h : Nat) (p : Pass) (ph : Nat) : Prop where
  oldest : oldest (s.half c a h) = some p
  phys : s.physArray c a = some ph
  sound : (s.half c a h).failed = false
  ready : p.started = true ∨
    (p.par.keep = true ∨ tileReady (s.half c a h) p.par.wmode = true) ∧ configReady ((s.core c).array a) p = true
  reads : passReadsReady s c p (if p.started then p.met else ((s.core c).array a).sources h) = true
  span : spanBlocked s c a h p = false

/-- A pass that nothing keeps back runs: it completes, or a fault that the checkers catch fails its target (R96, R101, R104). -/
theorem passComplete_runs (s : State) (c a h : Nat) (p : Pass) (ph : Nat) (f : Option ArrayFault) (hc : Completes s c a h p ph) :
    let t := enterPass s c a h p
    let w := ((t.core c).array a).weights
    let r := runPass t c ph p w f
    (r.2 ≠ .residue → passComplete c a h f s = retireChain (finishPass r.1 c a h p.seq r.2) c a h) ∧
      ∀ x, f = some x → r.2 = .residue →
        passComplete c a h f s = failTargets (mismatchRecord r.1 c ph p (w.slots p.par x.column) x) c a h p x := by
  obtain ⟨holdest, hphys, hsound, hready, hreads, hspan⟩ := hc
  have hready' : (p.started || (p.par.keep || tileReady (s.half c a h) p.par.wmode) && configReady ((s.core c).array a) p) = true := by
    simpa using hready
  intro t w r
  unfold passComplete
  dsimp only
  rw [holdest, hphys]
  simp only [hsound, hready', hreads, hspan, Bool.not_true, Bool.or_self, Bool.false_eq_true, if_false]
  constructor
  · intro hr
    split
    next hres => exact absurd hres hr
    next => rfl
  · intro x hf hr
    subst hf
    split
    next hf => cases hf; rfl
    next hnot => exact absurd rfl (hnot x hr)

/-- A target that fails holds for its replay (R104). -/
theorem failTarget_half (s : State) (c a h : Nat) (f : ArrayFault) :
    ((failTarget s c a h f).half c a h).failed = true ∧ ((failTarget s c a h f).half c a h).recurred = false ∧
      ((failTarget s c a h f).half c a h).fault = some f := by
  unfold failTarget
  rw [half_modHalf_self]
  exact ⟨rfl, rfl, rfl⟩

/-- What a fault of pass p of target h does to target g (R95). -/
def failOne (c a h : Nat) (p : Pass) (f : ArrayFault) (t : State) (g : Nat) : State :=
  match oldest (t.half c a g) with
  | some q => if g = h ∨ (q.started && failsWith f p.par q.par) then failTarget t c a g f else t
  | none => t

theorem failTargets_eq (s : State) (c a h : Nat) (p : Pass) (f : ArrayFault) :
    failTargets s c a h p f = targets.foldl (failOne c a h p f) s := rfl

/-- The other targets' faults leave target h. -/
theorem failOne_half_ne (s : State) (c a h : Nat) (p : Pass) (f : ArrayFault) (g : Nat) (hg : g ≠ h) :
    (failOne c a h p f s g).half c a h = s.half c a h := by
  unfold failOne
  split
  · split
    · exact half_modHalf_ne _ _ _ _ _ (Ne.symm hg)
    · rfl
  · rfl

/-- The target of the pass itself fails when it has an unfinished pass. -/
theorem failOne_half_self (s : State) (c a h : Nat) (p : Pass) (f : ArrayFault) :
    (failOne c a h p f s h).half c a h =
      if (oldest (s.half c a h)).isSome then (failTarget s c a h f).half c a h else s.half c a h := by
  unfold failOne
  cases oldest (s.half c a h) with
  | none => rfl
  | some q => exact congrArg (State.half · c a h) (if_pos (Or.inl rfl))

theorem half_mem_targets (h : HalfId) : (h : Nat) ∈ targets := by
  revert h
  decide

/-- The target of the pass that fails holds for its replay (R95, R104). -/
theorem failTargets_half (s : State) (c a : Nat) (h : HalfId) (p : Pass) (f : ArrayFault) (ho : (oldest (s.half c a h)).isSome = true) :
    (failTargets s c a h p f).half c a h = (failTarget s c a h f).half c a h := by
  have hother : ∀ t : State, ∀ g ∈ targets, g ≠ h → (failOne c a h p f t g).half c a h = t.half c a h :=
    fun t g _ hg => failOne_half_ne t c a h p f g hg
  rw [failTargets_eq, foldl_once (State.half · c a h) (State.half · c a h) _ targets h (by decide) (half_mem_targets h) (fun t u htu => ?_)
    hother hother s, failOne_half_self, if_pos ho]
  rw [failOne_half_self, failOne_half_self, failTarget, failTarget, half_modHalf_self, half_modHalf_self, htu]

/-- Targets that fail write no record. -/
theorem failTargets_errRing (s : State) (c a h : Nat) (p : Pass) (f : ArrayFault) : (failTargets s c a h p f).errRing = s.errRing := by
  refine foldl_keeps State.errRing (failOne c a h p f) (fun t g => ?_) _ s
  unfold failOne
  split
  · split <;> rfl
  · rfl

/-- The record of a mismatch is 0x10 (R104). -/
theorem mismatchRecord_emit (s : State) (c ph : Nat) (p : Pass) (k : Nat) (f : ArrayFault) :
    ∃ i : RecInfo, i.code = 0x10 ∧ mismatchRecord s c ph p k f = s.emit i := ⟨_, rfl, rfl⟩

/-- A pass that completes without a fault writes its results, and its target shows no mismatch (R79, R101, R105). -/
theorem passComplete_writes (s : State) (c a h : Nat) (p : Pass) (ph : Nat) (hc : Completes s c a h p ph) :
    let w := (((enterPass s c a h p).core c).array a).weights
    let rd := readActs (enterPass s c a h p) c p.par
    let t := passComplete c a h none s
    (t.half c a h).lastStatus ≠ .residue ∧ t.acc = (writeResults rd ph c p.par w
      (fun g => (poisonedActs rd c p.par (w.blockSlots p.par)).any fun a => a.1 == g)
      fun col => (poisonedWeights p.par w).any fun x => x.1 == col).acc := by
  intro w rd t
  obtain ⟨hdone, -⟩ := passComplete_runs s c a h p ph none hc
  have hstatus : (runPass (enterPass s c a h p) c ph p w none).2 ≠ .residue := by
    rw [Ne, runPass_status]
    rintro ⟨x, hx, -⟩
    cases hx
  obtain ⟨hacc, -, ⟨l, hhalf⟩, -⟩ :=
    retireChain_keeps (finishPass (runPass (enterPass s c a h p) c ph p w none).1 c a h p.seq (runPass (enterPass s c a h p) c ph p w none).2) c a h
  have ht : t = _ := hdone hstatus
  rw [ht]
  constructor
  · rw [hhalf, finishPass, half_modHalf_self]
    exact hstatus
  · exact hacc.trans (runPass_acc (enterPass s c a h p) c ph p w)

/-- A pass with a fault that the checkers catch fails its target, with record 0x10 (R104). -/
theorem passComplete_fails (s : State) (c a : Nat) (h : HalfId) (p : Pass) (ph : Nat) (f : ArrayFault) (hc : Completes s c a h p ph)
    (hcaught : caught (readActs (enterPass s c a h p) c p.par) c p.par (((enterPass s c a h p).core c).array a).weights f = true) :
    let t := passComplete c a h (some f) s
    (t.half c a h).failed = true ∧ (t.half c a h).recurred = false ∧ (t.half c a h).fault = some f ∧ Recorded s t 0x10 := by
  intro t
  obtain ⟨-, hring, hfins⟩ := enterPass_keeps s c a h p
  obtain ⟨-, hfails⟩ := passComplete_runs s c a h p ph (some f) hc
  have ht : t = _ := hfails f rfl ((runPass_status _ _ _ _ _ _).2 ⟨f, rfl, hcaught⟩)
  have hgrows : RingGrows s (runPass (enterPass s c a h p) c ph p (((enterPass s c a h p).core c).array a).weights (some f)).1 :=
    (RingGrows.of_eq hring).trans (RingGrows.runPass _ c ph p _ (some f))
  have hcores := (StoreFrame.runPass (enterPass s c a h p) c ph p (((enterPass s c a h p).core c).array a).weights (some f)).cores
  generalize (runPass (enterPass s c a h p) c ph p (((enterPass s c a h p).core c).array a).weights (some f)).1 = run at ht hgrows hcores
  obtain ⟨i, hcode, hemit⟩ := mismatchRecord_emit run c ph p
    ((((enterPass s c a h p).core c).array a).weights.slots p.par f.column) f
  rw [hemit] at ht
  have hold : (oldest ((run.emit i).half c a h)).isSome = true := by
    rw [show (run.emit i).half c a h = run.half c a h from rfl, half_congr hcores, oldest_isSome, hfins, ← oldest_isSome, hc.oldest]
    rfl
  obtain ⟨hfailed, hrecurred, hfault⟩ := failTarget_half (run.emit i) c a h f
  rw [ht, failTargets_half _ _ _ _ _ _ hold]
  exact ⟨hfailed, hrecurred, hfault, run, i, hcode, hgrows, RingGrows.of_eq (failTargets_errRing (run.emit i) c a h p f)⟩

/-- Settles O13: the results of the oldest pass are those of its columns, each as if written alone; a fault that the checkers catch fails
the target with its record. -/
theorem passResults : Obligations.PassResults := by
  unfold Obligations.PassResults
  intro s c a h p ph f arr u q s1 s2 w rd adds old part blocks hlive holdest hphys hsound hready hreads hspan
  have hc : Completes s c a h p ph := ⟨holdest, hphys, hsound, hready, hreads, hspan⟩
  have hentries : ∀ r n, (readActs (enterPass s c a h p) c p.par).entry r n = s.entry r n := fun r n => by
    rw [State.entry, (MemoryFrame.readActs _ c p.par).acc, (enterPass_keeps s c a h p).1, State.entry]
  refine ⟨fun hcols hspan' => ?_, fun hcaught => ?_⟩
  · obtain ⟨hstatus, hacc⟩ := passComplete_writes s c a h p ph hc
    refine ⟨_, congrArg Host.Outcome.next (if_pos hlive), hstatus, fun g hg col hcol => ?_, fun r n hn hout => ?_⟩
    · rw [State.entry, hacc, ← accKey_entryOf, ← State.entry, writeResults_entry _ _ _ _ _ _ _ hcols hspan' hg hcol, writeResult_entry,
        poisonedActs_any _ _ _ _ _ hg, poisonedWeights_any _ _ _ hcol]
      rfl
    · rw [State.entry, hacc, ← State.entry, writeResults_entry_other _ _ _ _ _ _ _ _ _ fun g hg col hcol hkey => ?_, hentries]
      obtain ⟨hr, hmod⟩ := (accKey_eq_iff ..).1 hkey
      rw [Nat.mod_eq_of_lt hn, PassParams.entryOf, Nat.mod_mod] at hmod
      exact hout.elim (· hr) fun hout => hout g hg col hcol hmod.symm
  · obtain ⟨hfailed, hrecurred, hfault, hrecord⟩ := passComplete_fails s c a h p ph f hc hcaught
    exact ⟨_, congrArg Host.Outcome.next (if_pos hlive), hfailed, hrecurred, hfault, hrecord.exists_rec⟩

end Sys2Proof.Machine

/-! ## Replay and arbitration (O14) -/

namespace Sys2Proof.Machine

/-! ### Poisoned entries (R81) -/

/-- PSN of an entry that is written with its poison. -/
theorem mkEntry_psn (z : Nat) : (mkEntry z true).getLsbD 61 = true := by
  have hres : entryRes (z % 2 ^ 56) < 15 := Nat.mod_lt _ (by decide)
  have hpar : entryPar (z % 2 ^ 56) < 2 := Nat.mod_lt _ (by decide)
  have hv : z % 2 ^ 56 < 2 ^ 56 := Nat.mod_lt _ (by decide)
  have hlow : z % 2 ^ 56 + entryRes (z % 2 ^ 56) * 2 ^ 56 + entryPar (z % 2 ^ 56) * 2 ^ 60 < 2 ^ 61 := by omega
  unfold mkEntry
  dsimp only
  rw [if_pos rfl, BitVec.getLsbD_ofNat, Nat.add_comm, Nat.testBit_two_pow_add_eq, Nat.testBit_lt_two_pow hlow]
  rfl

/-- What every step keeps, a fold keeps. -/
theorem foldl_holds {σ β : Type} (P : σ → Prop) (f : σ → β → σ) (hkeep : ∀ s x, P s → P (f s x)) (l : List β) (s : σ) :
    P s → P (l.foldl f s) :=
  foldl_rel (R := fun s t => P s → P t) (fun _ => id) (fun h h' => h' ∘ h) f hkeep l s

/-- What the step for one element establishes and every step keeps holds after the fold. -/
theorem foldl_establishes {σ β : Type} (P : σ → Prop) (f : σ → β → σ) (l : List β) (b : β) (hb : b ∈ l) (hstep : ∀ s, P (f s b))
    (hkeep : ∀ s x, P s → P (f s x)) (s : σ) : P (l.foldl f s) := by
  obtain ⟨l1, l2, rfl⟩ := List.append_of_mem hb
  rw [List.foldl_append, List.foldl_cons]
  exact foldl_holds P f hkeep l2 _ (hstep _)

/-- An entry has PSN (R81). -/
def EntryPsn (ph n : Nat) (s : State) : Prop := (s.entry ph n).getLsbD 61 = true

/-- A write of an entry with its poison leaves PSN where it stands. -/
theorem entryPsn_setEntry (ph n m z : Nat) (s : State) (h : EntryPsn ph n s) : EntryPsn ph n (s.setEntry ph m z true) := by
  unfold EntryPsn
  rw [entry_setEntry]
  split
  · exact mkEntry_psn z
  · exact h

/-- An entry that is written with its poison has PSN. -/
theorem entryPsn_setEntry_self (ph n z : Nat) (s : State) : EntryPsn ph n (s.setEntry ph n z true) := by
  unfold EntryPsn
  rw [entry_setEntry, if_pos rfl]
  exact mkEntry_psn z

/-- Every entry of a chain is written with its poison (R442). -/
def poisonChain (ph : Nat) (chain : List Pass) (s : State) : State :=
  chain.foldl (fun t p => (List.range p.par.v).foldl (fun t g => (List.range p.par.cols).foldl (fun t col =>
    t.setEntry ph (p.par.entryOf g col) (Config.faultyEntry s.fresh (p.par.entryOf g col)).toNat true) t) t) s.draw

/-- The entries of a poisoned chain have PSN. -/
theorem poisonChain_psn (ph : Nat) (chain : List Pass) (s : State) :
    ∀ p ∈ chain, ∀ g < p.par.v, ∀ col < p.par.cols, EntryPsn ph (p.par.entryOf g col) (poisonChain ph chain s) := by
  intro p hp g hg col hcol
  refine foldl_establishes _ _ chain p hp (fun t => ?_) (fun t q => foldl_holds _ _ (fun t g' => foldl_holds _ _ (fun t col' => ?_) _ t) _ t) _
  · refine foldl_establishes _ _ _ g (List.mem_range.2 hg) (fun t => ?_) (fun t g' => foldl_holds _ _ (fun t col' => ?_) _ t) t
    · exact foldl_establishes _ _ _ col (List.mem_range.2 hcol) (fun t => entryPsn_setEntry_self _ _ _ t)
        (fun t col' => entryPsn_setEntry _ _ _ _ t) t
    · exact entryPsn_setEntry _ _ _ _ t
  · exact entryPsn_setEntry _ _ _ _ t

/-- A poisoned chain changes entries and their code words alone. -/
theorem poisonChain_keeps (ph : Nat) (chain : List Pass) (s : State) :
    (poisonChain ph chain s).cores = s.cores ∧ (poisonChain ph chain s).errRing = s.errRing := by
  have hkeeps : ∀ {γ : Type} (g : State → γ), (∀ t n z, g (State.setEntry t ph n z true) = g t) → g (poisonChain ph chain s) = g s.draw := by
    intro γ g hg
    refine foldl_keeps g _ (fun t p => ?_) chain _
    refine foldl_keeps g _ (fun t i => ?_) _ t
    exact foldl_keeps g _ (fun t col => hg t _ _) _ t
  exact ⟨hkeeps State.cores fun _ _ _ => rfl, hkeeps State.errRing fun _ _ _ => rfl⟩

/-! ### The outcome of an arbitration (R442, R443, R448) -/

/-- The classification of an array whose job runs on changes neither cores nor entries, and at most adds records (R448, R451). -/
theorem classify_array (s : State) (uinst loc code : Nat) (hrun : runsOn code = true) (hcode : code ≠ 0x1E) :
    (classify s 2 uinst loc code).cores = s.cores ∧ MemoryFrame s (classify s 2 uinst loc code) := by
  have haction : ∀ (t : State) (x : Action), (t.addAction x).cores = t.cores ∧ MemoryFrame t (t.addAction x) := by
    intro t x
    unfold State.addAction
    split
    · exact ⟨rfl, MemoryFrame.refl t⟩
    · exact ⟨rfl, MemoryFrame.of_eq rfl rfl rfl⟩
  unfold classify
  extract_lets t _ t2 t3 atOnce t4 used
  have ht2 : t2.cores = s.cores ∧ MemoryFrame s t2 := ⟨rfl, (MemoryFrame.emit s _).trans (MemoryFrame.of_eq rfl rfl rfl)⟩
  have ht4 : t4.cores = s.cores ∧ MemoryFrame s t4 := by
    obtain ⟨hcores, hkeeps⟩ := haction t2 (.amendArray (uinst / 4))
    exact ⟨hcores.trans ht2.1, ht2.2.trans hkeeps⟩
  rw [if_neg fun h => hcode h.1, if_pos (Or.inl hrun)]
  exact ht4

/-- An outcome of arbitration: its record, and an array that accepts no further pass; the targets and entries stay (R442, R443). -/
theorem arrayOutcome_spec (s : State) (c a h ph code : Nat) (u : HalfUnit) (hrun : runsOn code = true) (hcode : code ≠ 0x1E) :
    let t := arrayOutcome s c a h ph code u
    Recorded s t code ∧ t.acc = s.acc ∧ ((t.core c).array a).refuse = true ∧ ∀ g, t.half c a g = s.half c a g := by
  intro t
  let i : RecInfo := { code := code, uclass := 2, uinst := 4 * ph + h, addr := faultPlace u, opid := chainOpid c u }
  obtain ⟨hcores, hkeeps⟩ := classify_array (s.emit i) (4 * ph + h) (faultPlace u) code hrun hcode
  have ht : t = (classify (s.emit i) 2 (4 * ph + h) (faultPlace u) code).modCore c fun k => k.modArray a fun x => { x with refuse := true } := rfl
  rw [ht]
  refine ⟨⟨s, i, rfl, RingGrows.refl s, hkeeps.ring.trans (RingGrows.of_eq rfl)⟩, hkeeps.acc, ?_, fun g => ?_⟩
  · rw [core_modCore_self, array_modArray_self]
  · unfold State.half
    rw [core_modCore_self, array_modArray_self]
    exact half_congr (s := s) hcores c a g

/-- The weights of a target change no entry, no record and no refusal. -/
theorem setWeights_keeps (s : State) (c a h : Nat) (src : TileSources) :
    (setWeights s c a h src).acc = s.acc ∧ (setWeights s c a h src).errRing = s.errRing ∧
      (((setWeights s c a h src).core c).array a).refuse = ((s.core c).array a).refuse := by
  refine ⟨rfl, rfl, ?_⟩
  unfold setWeights
  rw [core_modCore_self, array_modArray_self]
  refine foldl_keeps ArrayUnit.refuse _ (fun u g => ?_) _ _
  exact rfl

/-- A chain that settles lifts the hold of its target, and changes no entry, no record and no refusal (R104). -/
theorem settleChain_keeps (s : State) (c a h : Nat) (sts : List PassStatus) (src : TileSources) :
    (settleChain s c a h sts src).acc = s.acc ∧ (settleChain s c a h sts src).errRing = s.errRing ∧
      ((settleChain s c a h sts src).half c a h).failed = false ∧
      (((settleChain s c a h sts src).core c).array a).refuse = ((s.core c).array a).refuse := by
  obtain ⟨hacc, hring, hrefuse⟩ := setWeights_keeps s c a h src
  unfold settleChain
  refine ⟨hacc, hring, ?_, ?_⟩
  · rw [half_modHalf_self]
  · rw [array_modHalf_refuse, hrefuse]

/-- A chain that settles and leaves its target lifts the hold, and changes no entry, no record and no refusal (R101, R104). -/
theorem retireSettled_keeps (s : State) (c a h : Nat) (sts : List PassStatus) (src : TileSources) :
    let t := retireChain (settleChain s c a h sts src) c a h
    t.acc = s.acc ∧ t.errRing = s.errRing ∧ (t.half c a h).failed = false ∧ ((t.core c).array a).refuse = ((s.core c).array a).refuse := by
  obtain ⟨hacc, hring, hlifted, hrefuse⟩ := settleChain_keeps s c a h sts src
  generalize settleChain s c a h sts src = u at hacc hring hlifted hrefuse
  obtain ⟨hacc', hring', ⟨l, hhalf⟩, hrefuse'⟩ := retireChain_keeps u c a h
  refine ⟨hacc'.trans hacc, hring'.trans hring, ?_, hrefuse'.trans hrefuse⟩
  rw [hhalf]
  exact hlifted

/-- Outcome 5 in its steps: the entries are poisoned, the outcome is recorded, the chain settles and leaves its target. -/
theorem datapathFault_eq (s : State) (c a h ph : Nat) :
    datapathFault s c a h ph =
      ((settleChain (arrayOutcome (poisonChain ph (chainOf (s.half c a h).passes) s) c a h ph 0x22 (s.half c a h)) c a h []
        (chainSources h (chainOf (s.half c a h).passes) (s.half c a h).chainTile)).modHalf c a h fun y =>
          { y with passes := y.passes.drop (chainOf (s.half c a h).passes).length, chainOpen := false, chainLen := 0 }).drain c := rfl

/-- Outcome 5 poisons the entries of the chain, lifts the hold, records 0x22 and takes the array out of use (R442, R443). -/
theorem datapathFault_spec (s : State) (c a h ph : Nat) :
    let t := datapathFault s c a h ph
    (t.half c a h).failed = false ∧ ((t.core c).array a).refuse = true ∧
      (∀ p ∈ chainOf (s.half c a h).passes, ∀ g < p.par.v, ∀ col < p.par.cols, EntryPsn ph (p.par.entryOf g col) t) ∧ Recorded s t 0x22 := by
  intro t
  have ht : t = _ := datapathFault_eq s c a h ph
  have hpsn := poisonChain_psn ph (chainOf (s.half c a h).passes) s
  obtain ⟨-, hring1⟩ := poisonChain_keeps ph (chainOf (s.half c a h).passes) s
  generalize poisonChain ph (chainOf (s.half c a h).passes) s = t1 at ht hpsn hring1
  obtain ⟨hrec, hacc2, hrefuse2, -⟩ := arrayOutcome_spec t1 c a h ph 0x22 (s.half c a h) rfl (by decide)
  generalize arrayOutcome t1 c a h ph 0x22 (s.half c a h) = t2 at ht hrec hacc2 hrefuse2
  obtain ⟨hacc3, hring3, hfailed, hrefuse3⟩ :=
    settleChain_keeps t2 c a h [] (chainSources h (chainOf (s.half c a h).passes) (s.half c a h).chainTile)
  generalize settleChain t2 c a h [] _ = t3 at ht hacc3 hring3 hfailed hrefuse3
  clear_value t
  subst ht
  refine ⟨?_, ?_, fun p hp g hg col hcol => ?_, (hrec.after (RingGrows.of_eq hring1)).before (RingGrows.of_eq ?_)⟩
  · rw [drain_half, half_modHalf_self]
    exact hfailed
  · rw [drain_array, array_modHalf_refuse, hrefuse3, hrefuse2]
  · have hacc : ∀ f, ((t3.modHalf c a h f).drain c).acc = t1.acc := fun f => (drain_acc _ c).trans (hacc3.trans hacc2)
    rw [EntryPsn, State.entry, hacc]
    exact hpsn p hp g hg col hcol
  · rw [drain_errRing]
    exact hring3

/-! ### A chain that runs again (R101, R442) -/

theorem StoreFrame.fetchTiles (s : State) (c : Nat) (src : TileSources) : StoreFrame s (fetchTiles s c src) :=
  foldl _ (fun t _ => fetchRange t _ _) _ s

theorem RingGrows.fetchTiles (s : State) (c : Nat) (src : TileSources) : RingGrows s (fetchTiles s c src) :=
  foldl _ (fun t _ => (MemoryFrame.fetchRange t _ _).ring) _ s

/-- A replay changes what reads and results change, and at most adds records. -/
theorem runChain_keeps (c ph h : Nat) (l : List Pass) (s : State) (fault : Option ArrayFault) (src : TileSources) :
    StoreFrame s (runChain s c ph h fault l src).1 ∧ RingGrows s (runChain s c ph h fault l src).1 := by
  induction l generalizing s fault src with
  | nil => exact ⟨StoreFrame.refl s, RingGrows.refl s⟩
  | cons p ps ih =>
    unfold runChain
    extract_lets src' s' r
    have hframe : StoreFrame s r.1 := (StoreFrame.fetchTiles s c src').trans (StoreFrame.runPass _ _ _ _ _ _)
    have hring : RingGrows s r.1 := (RingGrows.fetchTiles s c src').trans (RingGrows.runPass _ _ _ _ _ _)
    split
    · exact ⟨hframe, hring⟩
    · obtain ⟨hframe', hring'⟩ := ih r.1 _ src'
      exact ⟨hframe.trans hframe', hring.trans hring'⟩

/-- The array that can compare is found from the map and from which arrays refuse passes (R442). -/
theorem compareArray_congr (s t : State) (c a : Nat) (hmap : t.amap = s.amap)
    (hrefuse : ∀ b, ((t.core c).array b).refuse = ((s.core c).array b).refuse) : compareArray t c a = compareArray s c a := by
  simp only [compareArray, State.enabledArrays, State.physArray, hmap, hrefuse]

/-- The failed chain of a target has run again with a fault, and the mismatch of the pass that met it is recorded (R104). -/
def replayRecord (s : State) (c a h ph : Nat) (f : ArrayFault) : State :=
  let chain := chainOf (s.half c a h).passes
  let run := (runChain s c ph h (some f) chain (s.half c a h).chainTile).1
  match chain[f.nth]? with
  | some p => mismatchRecord run c ph p p.par.k f
  | none => run

/-- A replay that records its mismatch changes what reads and results change, and adds records. -/
theorem replayRecord_keeps (s : State) (c a h ph : Nat) (f : ArrayFault) :
    StoreFrame s (replayRecord s c a h ph f) ∧ RingGrows s (replayRecord s c a h ph f) := by
  obtain ⟨hframe, hgrows⟩ := runChain_keeps c ph h (chainOf (s.half c a h).passes) s (some f) (s.half c a h).chainTile
  unfold replayRecord
  dsimp only
  split
  · exact ⟨hframe.trans (StoreFrame.mismatchRecord _ _ _ _ _ _), hgrows.trans (RingGrows.emit _ _)⟩
  · exact ⟨hframe, hgrows⟩

theorem StoreFrame.amap {s t : State} (h : StoreFrame s t) : t.amap = s.amap := by
  unfold StoreFrame at h
  rw [h]

/-- A target waits for arbitration where an array can compare (R442 step 3). -/
theorem compare_choice (t u : State) (o : Option Nat) : (match o with | some _ => t | none => u) = if o.isSome then t else u := by
  cases o <;> rfl

/-! ### CHAIN_REPLAY and ARRAY_ARBITRATION (R104, R442, R443) -/

section

variable {s : State} {c a h ph : Nat} (hphys : s.physArray c a = some ph) (hfailed : (s.half c a h).failed = true)

include hphys hfailed

/-- A replay without a mismatch leaves its results and lifts the hold (R104, R442 step 2). -/
theorem chainReplay_stands (hrecurred : (s.half c a h).recurred = false) (fault : Option ArrayFault) :
    let run := runChain s c ph h fault (chainOf (s.half c a h).passes) (s.half c a h).chainTile
    fault = none ∨ PassStatus.residue ∉ run.2.1 →
      chainReplay c a h fault s = retireChain (settleChain run.1 c a h run.2.1 run.2.2) c a h := by
  intro run hno
  unfold chainReplay
  dsimp only
  rw [hphys]
  dsimp only
  rw [if_neg (by simp [hfailed, hrecurred])]
  split
  next hres =>
    obtain hnone | hno := hno
    · cases hnone
    · exact absurd (List.contains_iff_mem.1 hres) hno
  next => rfl

/-- A mismatch that recurs leaves the target to arbitration, or ends in outcome 5 where no other array can compare (R442 steps 2, 3). -/
theorem chainReplay_recurs (hrecurred : (s.half c a h).recurred = false) (f : ArrayFault) :
    let run := runChain s c ph h (some f) (chainOf (s.half c a h).passes) (s.half c a h).chainTile
    PassStatus.residue ∈ run.2.1 →
      ∃ t, RingGrows s t ∧ t.half c a h = { s.half c a h with recurred := true, fault := some f } ∧
        chainReplay c a h (some f) s = if (compareArray s c a).isSome then t else datapathFault t c a h ph := by
  intro run hres
  obtain ⟨hframe, hgrows⟩ := replayRecord_keeps s c a h ph f
  obtain ⟨t, ht⟩ : ∃ t, t = (replayRecord s c a h ph f).modHalf c a h fun x => { x with recurred := true, fault := some f } := ⟨_, rfl⟩
  have hcompare : compareArray t c a = compareArray s c a := by
    refine compareArray_congr s t c a ?_ fun b => ?_
    · rw [ht]
      exact hframe.amap
    · rw [ht, array_modHalf_refuse, State.core, hframe.cores, ← State.core]
  refine ⟨t, ?_, ?_, ?_⟩
  · rw [ht]
    exact hgrows.trans (RingGrows.of_eq rfl)
  · rw [ht, half_modHalf_self, half_congr hframe.cores]
  rw [← hcompare, ht]
  clear ht hcompare t
  unfold chainReplay replayRecord
  dsimp only
  rw [hphys]
  dsimp only
  rw [if_neg (by simp [hfailed, hrecurred])]
  split
  next f' hf _ =>
    cases hf
    exact compare_choice _ _ _
  next hno => exact absurd (List.contains_iff_mem.2 hres) (by simpa using hno f)

/-- Arbitration of a recurring mismatch names the checker, or ends in outcome 5 (R442 steps 3 to 5). -/
theorem arrayArbitration_decides (hrecurred : (s.half c a h).recurred = true) (hcompare : (compareArray s c a).isSome = true)
    (agree other : Bool) :
    (agree && !other) = true ∧ arrayArbitration c a h agree other s = checkerFault s c a h ph ∨
      (agree && !other) = false ∧ ∃ t, RingGrows s t ∧ t.half c a h = s.half c a h ∧
        arrayArbitration c a h agree other s = datapathFault t c a h ph := by
  obtain ⟨b, hb⟩ := Option.isSome_iff_exists.1 hcompare
  unfold arrayArbitration
  dsimp only
  rw [hphys, hb]
  dsimp only
  rw [if_neg (by simp [hfailed, hrecurred])]
  cases hdecide : agree && !other with
  | true => exact Or.inl ⟨rfl, if_pos rfl⟩
  | false =>
    rw [if_neg Bool.false_ne_true]
    refine Or.inr ⟨rfl, ?_⟩
    split
    · refine ⟨_, (MemoryFrame.noteEvent _ _ _ _ _).ring, half_congr (s := s) ?_ c a h, rfl⟩
      exact (StoreFrame.noteEvent _ _ _ _ _).cores
    · exact ⟨s, RingGrows.refl s, rfl, rfl⟩

end

/-- Outcome 4 in its steps: the chain runs again, the outcome is recorded, the chain settles and retires. -/
theorem checkerFault_eq (s : State) (c a h ph : Nat) (run : State × List PassStatus × TileSources)
    (hrun : runChain s c ph h none (chainOf (s.half c a h).passes) (s.half c a h).chainTile = run) :
    checkerFault s c a h ph =
      retireChain (settleChain (arrayOutcome run.1 c a h ph 0x21 (s.half c a h)) c a h run.2.1 run.2.2) c a h := by
  rw [← hrun]
  rfl

/-- Outcome 4 lifts the hold, records 0x21 and takes the array out of use (R442, R443). -/
theorem checkerFault_spec (s : State) (c a h ph : Nat) :
    let t := checkerFault s c a h ph
    (t.half c a h).failed = false ∧ ((t.core c).array a).refuse = true ∧ Recorded s t 0x21 := by
  intro t
  obtain ⟨run, hrun⟩ : ∃ run, runChain s c ph h none (chainOf (s.half c a h).passes) (s.half c a h).chainTile = run := ⟨_, rfl⟩
  have ht : t = _ := checkerFault_eq s c a h ph run hrun
  have hgrows : RingGrows s run.1 := hrun ▸ (runChain_keeps c ph h _ s none _).2
  obtain ⟨hrec, -, hrefuse2, -⟩ := arrayOutcome_spec run.1 c a h ph 0x21 (s.half c a h) rfl (by decide)
  generalize arrayOutcome run.1 c a h ph 0x21 (s.half c a h) = t2 at ht hrec hrefuse2
  obtain ⟨-, hring3, hlifted, hrefuse3⟩ := retireSettled_keeps t2 c a h run.2.1 run.2.2
  rw [ht]
  exact ⟨hlifted, hrefuse3.trans hrefuse2, (hrec.after hgrows).before (RingGrows.of_eq hring3)⟩

/-- Settles O14: a replay stands or recurs, and a recurring mismatch ends with the checker's or the datapath's outcome. -/
theorem replayAndArbitration : Obligations.ReplayAndArbitration := by
  unfold Obligations.ReplayAndArbitration
  intro s c a h fault f agree other ph u chain run poisons hlive hphys hfailed
  refine ⟨fun hrecurred => ⟨fun hno => ?_, fun hfault hres => ?_⟩, fun hrecurred hcompare => ?_⟩
  · refine ⟨_, congrArg Host.Outcome.next (if_pos hlive), ?_⟩
    rw [chainReplay_stands hphys hfailed hrecurred fault hno]
    obtain ⟨hframe, -⟩ := runChain_keeps c ph h chain s fault u.chainTile
    obtain ⟨hacc, -, hlifted, hrefuse⟩ := retireSettled_keeps run.1 c a h run.2.1 run.2.2
    refine ⟨hlifted, hacc, hrefuse.trans ?_⟩
    rw [State.core, hframe.cores, State.core]
  · subst hfault
    obtain ⟨t, hgrows, hhalf, hreplay⟩ := chainReplay_recurs hphys hfailed hrecurred f hres
    refine ⟨_, congrArg Host.Outcome.next (if_pos hlive), ?_⟩
    rw [hreplay]
    split
    · rw [hhalf]
      exact ⟨hfailed, rfl⟩
    · obtain ⟨hlifted, hrefuse, hpsn, hrec⟩ := datapathFault_spec t c a h ph
      rw [hhalf] at hpsn
      exact ⟨hlifted, hrefuse, hpsn, (hrec.after hgrows).exists_rec⟩
  · refine ⟨_, congrArg Host.Outcome.next (if_pos hlive), ?_⟩
    obtain ⟨hdecide, harb⟩ | ⟨hdecide, t, hgrows, hhalf, harb⟩ := arrayArbitration_decides hphys hfailed hrecurred hcompare agree other
    · rw [harb, hdecide]
      obtain ⟨hlifted, hrefuse, hrec⟩ := checkerFault_spec s c a h ph
      refine ⟨hrefuse, hlifted, fun hor => ?_, hrec.exists_rec⟩
      cases agree <;> cases other <;> simp_all
    · rw [harb, hdecide]
      obtain ⟨hlifted, hrefuse, hpsn, hrec⟩ := datapathFault_spec t c a h ph
      rw [hhalf] at hpsn
      exact ⟨hrefuse, hlifted, fun _ => hpsn, (hrec.after hgrows).exists_rec⟩

end Sys2Proof.Machine

/-! ## SRAM scrub and DRAM temperatures (O27) -/

namespace Sys2Proof.Machine

/-! ### Writes of memory (R111, R186, R374) -/

namespace MemoryFrame

theorem copyBefore (s : State) (p : Nat) : MemoryFrame s (copyBefore s p) := by
  unfold Machine.copyBefore
  dsimp only
  split
  · exact (fetchRange s _ _).trans (of_eq rfl rfl rfl)
  · exact refl s

theorem injectAt (s : State) (g : Nat) : MemoryFrame s (injectAt s g) := by
  unfold Machine.injectAt
  extract_lets v i n named pat t t'
  have ht : MemoryFrame s t' := by
    have hinj : MemoryFrame s t := modVault s v _ fun _ => rfl
    refine hinj.trans ?_
    dsimp only [t']
    split
    · exact refl t
    · exact of_eq rfl rfl rfl
  clear_value t'
  split
  · split
    · exact ht.trans (of_eq rfl rfl rfl)
    · split
      · exact ht.trans (of_eq rfl rfl rfl)
      · exact ht
  · exact refl s

theorem writeDram (s : State) (a : Nat) (bs : List PByte) : MemoryFrame s (writeDram s a bs) := by
  unfold Machine.writeDram
  extract_lets n gs whole s1 s2 s3 s4
  have hmerged : MemoryFrame s s1 := foldl _ (fun t g => by split; exacts [refl t, fetchRange t _ _]) _ s
  have hcopied : MemoryFrame s1 s2 := foldl _ copyBefore _ s1
  have hcleared : MemoryFrame s3 s4 := foldl _ (fun t g => of_eq (t := clearErrors t g) rfl rfl rfl) _ s3
  have hwritten : MemoryFrame s2 s3 := of_eq rfl rfl rfl
  have hdirty : MemoryFrame s4 (setDirty s4 a n) := of_eq rfl rfl rfl
  exact ((hmerged.trans hcopied).trans hwritten).trans ((hcleared.trans hdirty).trans (foldl _ injectAt _ _))

theorem store (s : State) (a : Nat) (bs : List PByte) : MemoryFrame s (store s a bs) := by
  unfold Machine.store
  split
  · exact refl s
  · split
    · exact writeDram s a bs
    · exact of_eq rfl rfl rfl

theorem markRecord (s : State) (v slot : Nat) (e : HotEntry) : MemoryFrame s (markRecord s v slot e) := by
  unfold Machine.markRecord
  split
  · exact refl s
  · exact store s _ _

theorem setMark (s : State) (g : Nat) : MemoryFrame s (setMark s g) := of_eq rfl rfl rfl

end MemoryFrame

/-! ### Reads of the words of an SRAM (R196 to R198) -/

/-- An uncorrectable word is recorded. -/
theorem sramRead_uncorrectable (s : State) (key : Nat) (h : secded (mget 0 s.sramErrs key) = .uncorrectable) :
    (sramRead s key).2 = true ∧ Recorded s (sramRead s key).1 0x15 := by
  unfold sramRead
  dsimp only
  rw [h]
  exact ⟨rfl, s, _, rfl, RingGrows.refl s, RingGrows.refl _⟩

/-- The history keeps no flips and no records. -/
theorem noteEvent_flips (s : State) (k : Nat) (u : BitVec 16) (c l : Nat) :
    (s.noteEvent k u c l).sramErrs = s.sramErrs ∧ (s.noteEvent k u c l).errRing = s.errRing := by
  unfold State.noteEvent
  dsimp only
  split <;> exact ⟨rfl, rfl⟩

/-- The flips that stand in a word after further ones. -/
theorem sramFlip_flips (s : State) (key : Nat) (e : BitVec 72) :
    mget 0 (sramFlip s key e).sramErrs key = mget 0 s.sramErrs key ^^^ e := by
  unfold sramFlip
  dsimp only
  split
  · exact mget_mset_self _ _ _ _
  · split <;> exact mget_mset_self _ _ _ _

/-- A corrected word keeps the flips that its correction leaves, and no record is written. -/
theorem sramRead_corrected (s : State) (key : Nat) (left : BitVec 72) (h : secded (mget 0 s.sramErrs key) = .corrected left) :
    (sramRead s key).2 = false ∧ mget 0 (sramRead s key).1.sramErrs key = left ∧ (sramRead s key).1.errRing = s.errRing := by
  have hleft : mget 0 (sramFlip s key (mget 0 s.sramErrs key ^^^ left)).sramErrs key = left := by
    rw [sramFlip_flips, ← BitVec.xor_assoc, BitVec.xor_self, BitVec.zero_xor]
  have hring := sramFlip_errRing s key (mget 0 s.sramErrs key ^^^ left)
  unfold sramRead
  dsimp only
  rw [h]
  dsimp only
  rw [(noteEvent_flips _ _ _ _ _).1, (noteEvent_flips _ _ _ _ _).2]
  split <;> exact ⟨rfl, hleft, hring⟩

/-- A clean word's read changes nothing. -/
theorem sramRead_clean (s : State) (key : Nat) (h : secded (mget 0 s.sramErrs key) = .clean) : sramRead s key = (s, false) := by
  unfold sramRead
  dsimp only
  rw [h]

/-! ### What has flipped (R196 to R198) -/

/-- A burst writes no record. -/
theorem burstFlips_errRing (s : State) (key : Nat) (b : SramBurst) : (burstFlips s key b).errRing = s.errRing :=
  foldl_keeps (·.errRing) _ (fun t _ => sramFlip_errRing t _ _) _ s

/-- Between s and t the flips of the words, the stored bytes and the records have stayed. -/
def KeepsFlips (s t : State) : Prop := t.sramErrs = s.sramErrs ∧ t.mem = s.mem ∧ t.errRing = s.errRing

theorem KeepsFlips.trans {s t u : State} (h : KeepsFlips s t) (h' : KeepsFlips t u) : KeepsFlips s u :=
  ⟨h'.1.trans h.1, h'.2.1.trans h.2.1, h'.2.2.trans h.2.2⟩

/-- Flips of a granule's mark are none of a word. -/
theorem markFlips_keeps (s : State) (key : Nat) (m : BitVec 3) : KeepsFlips s (markFlips s key m) := by
  unfold markFlips
  split <;> exact ⟨rfl, rfl, rfl⟩

/-- Flips of clean bits are none of a word. -/
theorem cleanFlips_keeps (s : State) (v slot : Nat) (m : BitVec 3) : KeepsFlips s (cleanFlips s v slot m) := by
  unfold cleanFlips
  split <;> exact ⟨rfl, rfl, rfl⟩

/-- The state in which a scrub reads a word: what has flipped in its group shows. -/
def scrubbed (s : State) (w : SramWord) (b : SramBurst) : State :=
  let t := markFlips (burstFlips s (sramKey w) b) (sramKey w) b.mark
  match w with
  | .dir v n => cleanFlips (cleanFlips t v.val (2 * (n % 4096)) b.cleanLo) v.val (2 * (n % 4096) + 1) b.cleanHi
  | _ => t

/-- The words of the state that a scrub reads are those after the burst. -/
theorem scrubbed_keeps (s : State) (w : SramWord) (b : SramBurst) : KeepsFlips (burstFlips s (sramKey w) b) (scrubbed s w b) := by
  have hmarks := markFlips_keeps (burstFlips s (sramKey w) b) (sramKey w) b.mark
  unfold scrubbed
  dsimp only
  split
  · exact (hmarks.trans (cleanFlips_keeps _ _ _ b.cleanLo)).trans (cleanFlips_keeps _ _ _ b.cleanHi)
  · exact hmarks

/-! ### Words that cannot be corrected (R82, R197, R198) -/

/-- A granule whose mark is set is marked. -/
theorem mark_setMark_self (s : State) (g : Nat) : (setMark s g).mark g = true := by
  unfold setMark State.mark
  dsimp only
  rw [mget_mset_self, mget_mset_self]
  decide

/-- The entries of a set of a slice follow from its directory. -/
theorem vault_entry_congr {u u' : Vault} (h : u'.dir = u.dir) (set way : Nat) : u'.entry set way = u.entry set way := by
  unfold Vault.entry
  rw [h]

/-- A directory entry after a write of another, or of itself. -/
theorem vault_entry_setEntry (u : Vault) (a b : Nat) (e : HotEntry) :
    (u.setEntry (a / 8) (a % 8) e).entry (b / 8) (b % 8) = if b = a then e else u.entry (b / 8) (b % 8) := by
  unfold Vault.entry Vault.setEntry
  dsimp only
  rw [mget_mset]
  have hslot : b / 8 * 8 + b % 8 = a / 8 * 8 + a % 8 ↔ b = a := by omega
  simp only [hslot]

/-- Whether slot b of vault v is invalid. -/
def SlotInvalid (s : State) (v b : Nat) : Prop := ((s.vault v).entry (b / 8) (b % 8)).valid = false

/-- An uncorrectable directory entry is invalidated (R198), and an invalid one stays so. -/
theorem badEntry_invalid (s : State) (v a b : Nat) (h : b = a ∨ SlotInvalid s v b) : SlotInvalid (badEntry s v a) v b := by
  unfold SlotInvalid badEntry
  extract_lets e s'
  have hdir : (s'.vault v).entry (b / 8) (b % 8) = (s.vault v).entry (b / 8) (b % 8) := by
    refine vault_entry_congr ?_ _ _
    dsimp only [s']
    split
    · exact congrArg Prod.snd ((MemoryFrame.markRecord s v a e).standing v)
    · rfl
  clear_value s'
  rw [vault_modVault_self, vault_entry_setEntry, hdir]
  split
  · rfl
  · rename_i hne
    exact h.resolve_left hne

/-- An uncorrectable directory entry at most adds records. -/
theorem RingGrows.badEntry (s : State) (v a : Nat) : RingGrows s (badEntry s v a) := by
  unfold Machine.badEntry
  extract_lets e s'
  have hs : RingGrows s s' := by
    dsimp only [s']
    split
    · exact (MemoryFrame.markRecord s v a e).ring
    · exact refl s
  clear_value s'
  exact hs.trans (of_eq rfl)

/-- An uncorrectable slot at most adds records. -/
theorem RingGrows.badSlot (s : State) (v a : Nat) : RingGrows s (badSlot s v a) := by
  unfold Machine.badSlot
  dsimp only
  split
  · exact refl s
  · split
    · exact of_eq rfl
    · exact (((MemoryFrame.setMark s _).trans (MemoryFrame.setMark _ _)).trans (MemoryFrame.markRecord _ _ _ _)).ring

/-- An entry whose word cannot be corrected gets PSN (R82). -/
theorem readEntry_uncorrectable (s : State) (ph n : Nat) (h : secded (mget 0 s.sramErrs (accWords + accKey ph n)) = .uncorrectable) :
    Recorded s (readEntry s ph n) 0x15 ∧ ((readEntry s ph n).entry ph n).getLsbD 61 = true := by
  obtain ⟨hbad, hrec⟩ := sramRead_uncorrectable s _ h
  have hentry := readEntry_entry s ph n
  unfold readEntry at *
  generalize sramRead s (accWords + accKey ph n) = r at *
  dsimp only at hentry ⊢
  rw [hbad] at hentry ⊢
  rw [if_pos rfl] at hentry ⊢
  refine ⟨hrec.before ?_, by rw [hentry]; exact mkEntry_psn _⟩
  have hset : RingGrows r.1 (r.1.setEntry ph n (r.1.entry ph n).toNat true) := RingGrows.of_eq rfl
  refine hset.trans ?_
  split
  · exact RingGrows.refl _
  · exact RingGrows.emit _ _

/-- A directory word that cannot be corrected invalidates its two entries (R198). -/
theorem fetchDirWord_uncorrectable (s : State) (v w : Nat) (h : secded (mget 0 s.sramErrs (dirWords + v * 4096 + w)) = .uncorrectable) :
    Recorded s (fetchDirWord s v w) 0x15 ∧ ∀ i < 2, SlotInvalid (fetchDirWord s v w) v (2 * w + i) := by
  obtain ⟨hbad, hrec⟩ := sramRead_uncorrectable s _ h
  unfold fetchDirWord
  generalize dirWords + v * 4096 + w = key at *
  dsimp only
  generalize sramRead s key = r at *
  rw [if_pos hbad]
  refine ⟨hrec.before (((RingGrows.badEntry _ _ _).trans (RingGrows.badEntry _ _ _)).trans (RingGrows.of_eq rfl)), fun i hi => ?_⟩
  refine badEntry_invalid (badEntry r.1 v (2 * w)) v (2 * w + 1) (2 * w + i) ?_
  rcases (by omega : i = 0 ∨ i = 1) with rfl | rfl
  · exact Or.inr (badEntry_invalid _ _ _ _ (Or.inl rfl))
  · exact Or.inl rfl

/-! ### A scrub of one word (R210) -/

/-- The key of an entry is the number of its word. -/
theorem sramKey_acc (ph : Fin 128) (n : Nat) : accWords + accKey ph (n % 65536) = sramKey (.acc ph n) := by
  simp only [sramKey, accKey, Nat.mod_mod, Nat.add_assoc]

/-- The number of a word of a directory. -/
theorem sramKey_dir (v : VaultId) (n : Nat) : dirWords + v.val * 4096 + n % 4096 = sramKey (.dir v n) := by
  simp only [sramKey]

/-- An entry of a bank by the number of its word modulo the bank. -/
theorem entry_mod (s : State) (ph n : Nat) : s.entry ph (n % 65536) = s.entry ph n := by
  unfold State.entry accKey
  rw [Nat.mod_mod]

/-- What stands at the place of a word that cannot be corrected, once it has been read (R82, R197, R198). -/
def CarriesLoss (t : State) : SramWord → Prop
  | .tile c n => t.mark (sramKey (.tile c n) / 8) = true
  | .acc ph n => (t.entry ph n).getLsbD 61 = true
  | .dir v n => ∀ i < 2, SlotInvalid t v (2 * (n % 4096) + i)
  | _ => True

/-- An uncorrectable word is recorded, and its place carries it. (The number of the word stays a variable: it is large.) -/
theorem sramWordRead_uncorrectable (s : State) (w : SramWord) (h : secded (mget 0 s.sramErrs (sramKey w)) = .uncorrectable) :
    Recorded s (sramWordRead s w) 0x15 ∧ CarriesLoss (sramWordRead s w) w := by
  unfold sramWordRead CarriesLoss
  dsimp only
  generalize hkey : sramKey w = key at *
  obtain ⟨hbad, hrec⟩ := sramRead_uncorrectable s key h
  cases w with
  | tile c n =>
    dsimp only
    rw [hkey, if_pos hbad]
    exact ⟨hrec.before (MemoryFrame.setMark _ _).ring, mark_setMark_self _ _⟩
  | acc ph n =>
    rw [← hkey, ← sramKey_acc] at h
    obtain ⟨hrecorded, hpsn⟩ := readEntry_uncorrectable s ph (n % 65536) h
    rw [entry_mod] at hpsn
    exact ⟨hrecorded, hpsn⟩
  | hot v n =>
    dsimp only
    rw [if_pos hbad]
    exact ⟨hrec.before (RingGrows.badSlot _ _ _), trivial⟩
  | dir v n =>
    rw [← hkey, ← sramKey_dir] at h
    exact fetchDirWord_uncorrectable s v.val (n % 4096) h
  | buffer u n => exact ⟨hrec, trivial⟩
  | sharedCache n => exact ⟨hrec, trivial⟩

/-- A corrected word keeps the flips that are left; only an entry whose code disagrees is recorded (R81). -/
theorem sramWordRead_corrected (s : State) (w : SramWord) (left : BitVec 72)
    (h : secded (mget 0 s.sramErrs (sramKey w)) = .corrected left) :
    mget 0 (sramWordRead s w).sramErrs (sramKey w) = left ∧ ((¬ ∃ ph n, w = .acc ph n) → (sramWordRead s w).errRing = s.errRing) := by
  unfold sramWordRead
  dsimp only
  generalize hkey : sramKey w = key at *
  obtain ⟨hgood, hleft, hring⟩ := sramRead_corrected s key left h
  have hgood : ¬ (sramRead s key).2 = true := by simp [hgood]
  cases w with
  | tile c n =>
    dsimp only
    rw [if_neg hgood]
    exact ⟨hleft, fun _ => hring⟩
  | acc ph n =>
    refine ⟨?_, fun hne => absurd ⟨ph, n, rfl⟩ hne⟩
    rw [← sramKey_acc] at hkey
    dsimp only
    unfold readEntry
    rw [hkey]
    dsimp only
    rw [if_neg hgood]
    split <;> exact hleft
  | hot v n =>
    dsimp only
    rw [if_neg hgood]
    exact ⟨hleft, fun _ => hring⟩
  | dir v n =>
    rw [← sramKey_dir] at hkey
    dsimp only
    unfold fetchDirWord
    rw [hkey]
    dsimp only
    rw [if_neg hgood]
    exact ⟨hleft, fun _ => hring⟩
  | buffer u n => exact ⟨hleft, fun _ => hring⟩
  | sharedCache n => exact ⟨hleft, fun _ => hring⟩

/-- The read of a clean word changes nothing, but for an entry whose code disagrees (R81). -/
theorem sramWordRead_clean (s : State) (w : SramWord) (h : secded (mget 0 s.sramErrs (sramKey w)) = .clean)
    (hacc : ¬ ∃ ph n, w = .acc ph n) : sramWordRead s w = s := by
  unfold sramWordRead
  dsimp only
  generalize hkey : sramKey w = key at *
  have hread := sramRead_clean s key h
  cases w with
  | acc ph n => exact absurd ⟨ph, n, rfl⟩ hacc
  | dir v n =>
    rw [← sramKey_dir] at hkey
    dsimp only
    unfold fetchDirWord
    rw [hkey]
    simp [hread]
  | tile c n | hot v n | buffer u n | sharedCache n => simp [hread]

/-- The command is the scrub's read of the word. -/
theorem sramScrubRead_exec (s : State) (w : SramWord) (b : SramBurst) (hlive : s.live = true) (hrun : s.stopped = false) :
    exec (.sramScrubRead w b) s = .next (sramWordRead (scrubbed s w b) w) :=
  congrArg Host.Outcome.next (if_pos (by rw [hlive, hrun]; rfl))

end Sys2Proof.Machine

/-! ### What the completion of issued work leaves of the vaults' temperatures (R483, R511, R512) -/

namespace Sys2Proof.Machine

/-- Between s and t records have only been added, and the vaults' temperatures and Tansy have stayed. The lemmas of the namespace say it of
passes, transfers and signals that complete. -/
structure HeatFrame (s t : State) : Prop where
  ring : RingGrows s t
  heat : ∀ v, (t.vault v).heat = (s.vault v).heat
  tns : t.tns = s.tns

namespace HeatFrame

theorem refl (s : State) : HeatFrame s s := ⟨RingGrows.refl s, fun _ => rfl, rfl⟩

theorem trans {s t u : State} (h : HeatFrame s t) (h' : HeatFrame t u) : HeatFrame s u :=
  ⟨h.ring.trans h'.ring, fun v => (h'.heat v).trans (h.heat v), h'.tns.trans h.tns⟩

theorem foldl {β : Type} (f : State → β → State) (hf : ∀ s x, HeatFrame s (f s x)) (l : List β) (s : State) :
    HeatFrame s (l.foldl f s) := foldl_rel refl trans f hf l s

theorem of_frames {s t : State} (h : MemoryFrame s t) (h' : StoreFrame s t) : HeatFrame s t :=
  ⟨h.ring, fun v => congrArg Prod.fst (h.standing v), by unfold StoreFrame at h'; rw [h']⟩

theorem of_eq {s t : State} (h : t.errRing = s.errRing) (hv : t.vaults = s.vaults) (ht : t.tns = s.tns) : HeatFrame s t :=
  ⟨RingGrows.of_eq h, fun v => by rw [State.vault, hv, State.vault], ht⟩

theorem emit (s : State) (i : RecInfo) : HeatFrame s (s.emit i) := ⟨RingGrows.emit s i, fun _ => rfl, rfl⟩

theorem modCore (s : State) (c : Nat) (f : Core → Core) : HeatFrame s (s.modCore c f) := of_eq rfl rfl rfl

theorem fetchRange (s : State) (a n : Nat) : HeatFrame s (fetchRange s a n) :=
  of_frames (MemoryFrame.fetchRange s a n) (StoreFrame.fetchRange s a n)

theorem store (s : State) (a : Nat) (bs : List PByte) : HeatFrame s (store s a bs) :=
  of_frames (MemoryFrame.store s a bs) (StoreFrame.store s a bs)

/-! Stores on the die -/

theorem sramRead (s : State) (key : Nat) : HeatFrame s (sramRead s key).1 :=
  ⟨RingGrows.sramRead s key, fun v => congrArg Prod.fst (sramRead_standing s key v), by
    have h := StoreFrame.sramRead s key
    unfold StoreFrame at h
    rw [h]⟩

theorem setEntry (s : State) (ph n z : Nat) (p : Bool) : HeatFrame s (s.setEntry ph n z p) := of_eq rfl rfl rfl

theorem readEntry (s : State) (ph n : Nat) : HeatFrame s (readEntry s ph n) := by
  unfold Machine.readEntry
  extract_lets r s'
  have hs : HeatFrame s s' := by
    dsimp only [s']
    split
    · exact (sramRead s _).trans (setEntry _ _ _ _ _)
    · exact sramRead s _
  refine hs.trans ?_
  clear_value s'
  split
  · exact refl s'
  · exact emit s' _

theorem badSlot (s : State) (v slot : Nat) : HeatFrame s (badSlot s v slot) := by
  unfold Machine.badSlot
  dsimp only
  split
  · exact refl s
  · split
    · refine ⟨RingGrows.of_eq rfl, fun i => ?_, rfl⟩
      by_cases h : i = v
      · rw [h, vault_modVault_self]; rfl
      · rw [vault_modVault_ne _ _ _ h]
    · exact of_frames (((MemoryFrame.setMark s _).trans (MemoryFrame.setMark _ _)).trans (MemoryFrame.markRecord _ _ _ _))
        (((StoreFrame.setMark s _).trans (StoreFrame.setMark _ _)).trans (StoreFrame.markRecord _ _ _ _))

theorem fetchSlot (s : State) (v slot : Nat) : HeatFrame s (fetchSlot s v slot) := by
  refine foldl _ (fun t i => ?_) _ s
  dsimp only
  split
  · exact (sramRead t _).trans (badSlot _ _ _)
  · exact sramRead t _

theorem drainHeld (n : Nat) (s : State) (c : Nat) : HeatFrame s (drainHeld n s c) := by
  induction n generalizing s with
  | zero => exact refl s
  | succ n ih =>
    unfold Machine.drainHeld
    split
    · exact refl s
    · split
      · exact refl s
      · refine trans (of_eq ?_ ?_ ?_) (ih _) <;> rfl

theorem drain (s : State) (c : Nat) : HeatFrame s (s.drain c) := drainHeld _ s c

theorem haltCore (s : State) (c cause slot detail : Nat) (b pc : BitVec 32) : HeatFrame s (s.haltCore c cause slot detail b pc) := by
  unfold State.haltCore
  dsimp only
  split
  · exact refl s
  · exact (emit s _).trans (modCore _ _ _)

theorem addToken (s : State) (c t n : Nat) : HeatFrame s (s.addToken c t n) := by
  unfold State.addToken
  dsimp only
  split
  · split
    · exact modCore s c _
    · exact haltCore s c _ _ _ _ _
  · exact modCore s c _

/-! Passes -/

theorem writeResult (s0 : State) (ph c : Nat) (p : PassParams) (w : Weights) (f : Option ArrayFault) (gp cp : Nat → Bool) (s : State)
    (g col : Nat) : HeatFrame s (writeResult s0 ph c p w f gp cp s g col) := by
  unfold Machine.writeResult
  dsimp only
  split
  · exact (readEntry s _ _).trans (setEntry _ _ _ _ _)
  · exact setEntry s _ _ _ _

theorem runPass (s : State) (c ph : Nat) (p : Pass) (w : Weights) (f : Option ArrayFault) : HeatFrame s (runPass s c ph p w f).1 := by
  unfold Machine.runPass
  extract_lets par s' k acts ws gPsn cPsn failed stands t n first
  have hread : HeatFrame s s' := (fetchRange s _ _).trans (fetchRange _ _ _)
  have hwritten : HeatFrame s' t := by
    refine foldl _ (fun t g => foldl _ (fun t col => ?_) _ t) _ s'
    split
    · exact writeResult s' ph c par w f gPsn cPsn t g col
    · exact refl t
  refine (hread.trans hwritten).trans ?_
  clear_value t
  dsimp only
  split
  · exact refl t
  · exact emit t _

theorem modHalf (s : State) (c a h : Nat) (f : HalfUnit → HalfUnit) : HeatFrame s (s.modHalf c a h f) := modCore s c _

theorem retireChain (s : State) (c a h : Nat) : HeatFrame s (retireChain s c a h) := by
  unfold Machine.retireChain
  dsimp only
  split
  · exact (modHalf s c a h _).trans (drain _ c)
  · exact refl s

theorem failTargets (s : State) (c a h : Nat) (p : Pass) (f : ArrayFault) : HeatFrame s (failTargets s c a h p f) := by
  refine foldl _ (fun t g => ?_) _ s
  split
  · split
    · exact modHalf t c a g _
    · exact refl t
  · exact refl t

theorem passComplete (c a h : Nat) (fault : Option ArrayFault) (s : State) : HeatFrame s (passComplete c a h fault s) := by
  unfold Machine.passComplete
  dsimp only
  split
  · rename_i p ph _ _
    refine iteInduction (fun _ => refl s) fun _ => ?_
    have hlaunch : HeatFrame s (if p.started then s else Machine.launch s c a h p) :=
      iteInduction (fun _ => refl s) fun _ => modCore s c _
    have hswap : ∀ t : State, HeatFrame t (if p.par.keep then t else t.modCore c fun k => k.modArray a fun x => swapStages x h) :=
      fun t => iteInduction (fun _ => refl t) fun _ => modCore t c _
    have hrun := fun w => (hlaunch.trans (hswap _)).trans (runPass _ c ph p w fault)
    split
    · exact ((hrun _).trans (emit _ _)).trans (failTargets _ _ _ _ _ _)
    · exact ((hrun _).trans (modHalf _ _ _ _ _)).trans (retireChain _ _ _ _)
  · exact refl s

theorem finishPasses (s : State) (c : Nat) : HeatFrame s (finishPasses s c) := by
  refine foldl _ (fun s a => foldl _ (fun s h => ?_) _ s) _ s
  split
  · split
    · exact passComplete c a h none s
    · exact refl s
  · exact refl s

theorem dropPasses (s : State) (c : Nat) : HeatFrame s (dropPasses s c) := (modCore s c _).trans (drain _ c)

/-! Transfers -/

theorem transferFetch (s : State) (c a n : Nat) : HeatFrame s (transferFetch s c a n) := by
  unfold Machine.transferFetch
  split
  · refine foldl _ (fun t i => ?_) _ s
    dsimp only
    split
    · exact readEntry t _ _
    · exact refl t
  · split
    · exact foldl _ (fun t i => fetchSlot t _ _) _ s
    · exact fetchRange s a n

theorem transferWrite (s : State) (c a : Nat) (bs : List PByte) : HeatFrame s (transferWrite s c a bs) := by
  unfold Machine.transferWrite
  split
  · refine foldl _ (fun t i => ?_) _ s
    dsimp only
    split
    · exact setEntry t _ _ _ _
    · exact refl t
  · exact store s a bs

theorem copyRows (s : State) (c : Nat) (segs : List (Nat × Nat × Nat)) : HeatFrame s (copyRows s c segs) :=
  (foldl _ (fun t (x : Nat × Nat × Nat) => transferFetch t c x.1 x.2.2) _ s).trans
    (foldl _ (fun t (x : Nat × Nat × Nat) => transferWrite t c x.2.1 _) _ _)

theorem fetchHeads (s : State) (t : Transfer) : HeatFrame s (fetchHeads s t) := by
  unfold Machine.fetchHeads
  split
  · exact refl s
  · refine foldl _ (fun u x => ?_) _ s
    dsimp only
    split
    · exact fetchRange u _ _
    · exact refl u

theorem popTransfer (s : State) (c q : Nat) (t : Transfer) : HeatFrame s (popTransfer s c q t) := by
  unfold Machine.popTransfer
  dsimp only
  split
  · exact (modCore s c _).trans (addToken _ _ _ _)
  · exact modCore s c _

theorem transferComplete (c q : Nat) (s : State) : HeatFrame s (transferComplete c q s) := by
  unfold Machine.transferComplete
  split
  · exact refl s
  · rename_i t _ _
    have hheads := fetchHeads s t
    have hrefused : ∀ b p, HeatFrame s ((failTransfer (Machine.fetchHeads s t) c q).haltCore c 0x09 5 0 b p) :=
      fun b p => (hheads.trans (modCore _ c _)).trans (haltCore _ c 0x09 5 0 b p)
    have hmoved := ((hheads.trans (copyRows _ c t.segs)).trans (popTransfer _ c q t)).trans (drain _ c)
    have hcopy : ∀ {p b : Prop} [Decidable p] [Decidable b] (x y),
        HeatFrame s (if p then s else if b then (failTransfer (Machine.fetchHeads s t) c q).haltCore c 0x09 5 0 x y
          else (Machine.popTransfer (Machine.copyRows (Machine.fetchHeads s t) c t.segs) c q t).drain c) := by
      intro p b _ _ x y
      exact iteInduction (fun _ => refl s) fun _ => iteInduction (fun _ => hrefused _ _) fun _ => hmoved
    split
    · exact hcopy _ _
    · exact hcopy _ _
    · split
      · exact popTransfer s c q t
      · exact refl s

theorem versionFault (s : State) (c q : Nat) (t : Transfer) (code head shard : Nat) :
    HeatFrame s (versionFault s c q t code head shard) :=
  (modCore s c _).trans (emit _ _)

theorem ranTransfer (s : State) (c q : Nat) : HeatFrame s (ranTransfer s c q) := modCore s c _

/-- A head is read, then its transfer fails or its new head is written (R359, R360). -/
theorem headStep (s : State) (c q : Nat) (t : Transfer) (a v g st h : Nat) (bad good : Prop) [Decidable bad] [Decidable good] :
    HeatFrame s (
      if bad then Machine.versionFault (Machine.fetchRange s a 64) c q t 0x65 h 0
      else if good then Machine.ranTransfer (writeHead (Machine.fetchRange s a 64) a v g st) c q
      else Machine.versionFault (Machine.fetchRange s a 64) c q t 0x62 h 0) := by
  have hread := fetchRange s a 64
  refine iteInduction (fun _ => ?_) fun _ => iteInduction (fun _ => ?_) fun _ => ?_
  · exact hread.trans (versionFault _ c q t _ _ _)
  · exact (hread.trans (store _ _ _)).trans (ranTransfer _ c q)
  · exact hread.trans (versionFault _ c q t _ _ _)

theorem openVersion (c q : Nat) (s : State) : HeatFrame s (openVersion c q s) := by
  unfold Machine.openVersion
  split
  · refine iteInduction (fun _ => ?_) fun _ => refl s
    dsimp only
    split
    · exact refl s
    · exact headStep s c q _ _ _ _ _ _ _ _
  · exact refl s

theorem publishVersion (c q : Nat) (s : State) : HeatFrame s (publishVersion c q s) := by
  unfold Machine.publishVersion
  split
  · refine iteInduction (fun _ => ?_) fun _ => refl s
    dsimp only
    split
    · exact refl s
    · exact headStep s c q _ _ _ _ _ _ _ _
  · exact refl s

theorem gatherRun (c q : Nat) (s : State) : HeatFrame s (gatherRun c q s) := by
  unfold Machine.gatherRun
  split
  · refine iteInduction (fun _ => ?_) fun _ => refl s
    dsimp only
    split
    · exact refl s
    · have hheads : ∀ l : List Nat, HeatFrame s (l.foldl (fun s a => Machine.fetchRange s a 64) s) :=
        fun l => foldl _ (fun t a => fetchRange t a 64) l s
      have hbytes : ∀ (l : List Nat) (f : Nat → Nat) (t : State), HeatFrame t (l.foldl (fun s i => Machine.fetchRange s (f i) 1) t) :=
        fun l f t => foldl _ (fun t i => fetchRange t (f i) 1) l t
      split
      · exact (hheads _).trans (versionFault _ c q _ _ _ _)
      · exact (((hheads _).trans (hbytes _ _ _)).trans (store _ _ _)).trans ((ranTransfer _ c q).trans (drain _ c))
  · exact refl s

theorem runFront (c : Nat) (s : State) (q : Nat) : HeatFrame s (runFront c s q) :=
  (((openVersion c q s).trans (publishVersion c q _)).trans (gatherRun c q _)).trans (transferComplete c q _)

theorem runTransfers (c n : Nat) (s : State) : HeatFrame s (runTransfers c n s) := by
  induction n generalizing s with
  | zero => exact refl s
  | succ n ih => exact iteInduction (fun _ => refl s) fun _ => (foldl _ (runFront c) _ s).trans (ih _)

/-! Signals, cores and windows -/

theorem signalLeave (c : Nat) (s : State) : HeatFrame s (signalLeave c s) := by
  unfold Machine.signalLeave
  dsimp only
  split
  · exact refl s
  · exact iteInduction (fun _ => (modCore s c _).trans (addToken _ _ _ _)) fun _ => refl s

theorem runSignals (c : Nat) (s : State) : HeatFrame s (runSignals c s) := foldl _ (fun t _ => signalLeave c t) _ s

theorem finishCore (c : Nat) (s : State) : HeatFrame s (finishCore c s) :=
  ((finishPasses s c).trans (dropPasses _ c)).trans ((runTransfers c _ _).trans (runSignals c _))

theorem waitedCoreReset (s : State) (c : Nat) : HeatFrame s (waitedCoreReset s c) := by
  unfold Machine.waitedCoreReset
  refine iteInduction (fun _ => ?_) fun _ => refl s
  have hwait : ∀ w, HeatFrame s { s with waitingReset := w } := fun _ => of_eq rfl rfl rfl
  exact ((hwait _).trans (finishCore c _)).trans (modCore _ c _)

theorem leaveWindow (s : State) (c : Nat) : HeatFrame s (leaveWindow s c) := by
  unfold Machine.leaveWindow
  dsimp only
  split
  · exact refl s
  · exact modCore s c _

/-- The windows that a stop abandons (R483). -/
theorem abandonWindows (s : State) : HeatFrame s (abandonWindows s) := by
  refine foldl _ (fun t p => ?_) _ s
  refine iteInduction (fun _ => ?_) fun _ => refl t
  have hdue : ∀ u : State, HeatFrame u (u.modPair p fun x => { x with due := true }) := fun _ => of_eq rfl rfl rfl
  exact (foldl _ (fun u c => (leaveWindow u c).trans (waitedCoreReset _ c)) _ t).trans (hdue _)

end HeatFrame

/-! ### Stops (R213, R480) -/

/-- A stop writes at most further records and leaves the temperatures; the device is then stopped (R480, R484). -/
theorem raiseStop_spec (s : State) (src : StopSrc) :
    RingGrows s (raiseStop s src) ∧ (∀ v, ((raiseStop s src).vault v).heat = (s.vault v).heat) ∧ (raiseStop s src).stopped = true := by
  unfold raiseStop
  split
  · rename_i hstopped
    exact ⟨RingGrows.of_eq rfl, fun _ => rfl, hstopped⟩
  · obtain ⟨hring, hheat, htns⟩ := HeatFrame.abandonWindows
      (s.modTns fun t => { t with stop := true, stopSrc := src, stopAt := s.cycle, causes := [src] })
    refine ⟨hring, hheat, ?_⟩
    rw [State.stopped, htns]
    rfl

/-! ### Samples of the temperatures (R212, R213, R215) -/

/-- What the sample of a vault enters: its readings, the row in force and the hottest die. -/
def sampledVault (s : State) (hot : Nat × Nat) (u : Vault) : Vault :=
  let kept := (u.temps.filter fun e => decide (s.cycle ≤ e.1 + cyclesOfUs 100000)) ++ [(s.cycle, hot.1)]
  let row := nextRow hot.1 ((kept.map (·.2)).foldl max 0)
  { u with
    temps := kept, row := row, temp := BitVec.ofNat 11 hot.1, hotdie := BitVec.ofNat 3 hot.2, rmode := BitVec.ofNat 2 (min row 3)
    otstop := decide (row = 4) || (u.otstop && s.stopped) }

end Sys2Proof.Machine

namespace Sys2Proof.Machine

/-- A record that a condition asks for. -/
def emitIf (s : State) (p : Prop) [Decidable p] (i : RecInfo) : State := if p then s.emit i else s

/-- It leaves the vaults and Tansy, and under the condition it stands in the ring. -/
theorem emitIf_spec (s : State) (p : Prop) [Decidable p] (i : RecInfo) :
    HeatFrame s (emitIf s p i) ∧ (p → Recorded s (emitIf s p i) i.code) := by
  unfold emitIf
  split
  · exact ⟨HeatFrame.emit s i, fun _ => ⟨s, i, rfl, RingGrows.refl s, RingGrows.refl _⟩⟩
  · rename_i hp
    exact ⟨HeatFrame.refl s, fun h => absurd h hp⟩

/-- A sample shows at its vault, its records are written, and 100 °C stops the device (R212, R213, R215). -/
theorem dramTempSample_spec (s : State) (v : Nat) (temps : List Nat) :
    let hot := hottestOf temps
    let shown := sampledVault s hot (s.vault v)
    let t := dramTempSample v temps s
    (t.vault v).heat = shown.heat ∧ ((s.vault v).row < 2 ∧ 2 ≤ shown.row → Recorded s t 0x1B) ∧
      (800 ≤ hot.1 → t.stopped = true ∧
        ((nth (s.vault v).temps ((s.vault v).temps.length - 1) (0, 0)).2 < 800 → Recorded s t 0x1C)) ∧
      (hot.1 < 800 → t.tns = s.tns) := by
  intro hot shown t
  let rec1 := fun (code : Nat) => ({ code := code, uclass := 6, uinst := v * 8 + hot.2 } : RecInfo)
  let entered := s.modVault v (sampledVault s hot)
  let warned := emitIf entered ((s.vault v).row < 2 ∧ 2 ≤ shown.row) (rec1 0x1B)
  let alarmed := emitIf warned ((nth (s.vault v).temps ((s.vault v).temps.length - 1) (0, 0)).2 < 800) (rec1 0x1C)
  have ht : t = if 800 ≤ hot.1 then raiseStop alarmed .dram else warned := rfl
  have hentered : RingGrows s entered := RingGrows.of_eq rfl
  have hshown : (entered.vault v).heat = shown.heat := by rw [vault_modVault_self]
  obtain ⟨hframe, hrow⟩ : HeatFrame entered warned ∧ (_ → Recorded entered warned 0x1B) := emitIf_spec _ _ _
  obtain ⟨hframe', hhot⟩ : HeatFrame warned alarmed ∧ (_ → Recorded warned alarmed 0x1C) := emitIf_spec _ _ _
  have hrow : (s.vault v).row < 2 ∧ 2 ≤ shown.row → Recorded s warned 0x1B := fun h => (hrow h).after hentered
  clear_value t alarmed warned
  by_cases hhigh : 800 ≤ hot.1
  · rw [if_pos hhigh] at ht
    obtain ⟨hring, hheat, hstopped⟩ := raiseStop_spec alarmed .dram
    subst ht
    refine ⟨((hheat v).trans (hframe'.heat v)).trans ((hframe.heat v).trans hshown), fun h => ?_, fun _ => ⟨hstopped, fun h => ?_⟩,
      fun h => absurd hhigh (by omega)⟩
    · exact (hrow h).before (hframe'.ring.trans hring)
    · exact ((hhot h).after (hentered.trans hframe.ring)).before hring
  · rw [if_neg hhigh] at ht
    subst ht
    exact ⟨(hframe.heat v).trans hshown, hrow, fun h => absurd h hhigh, fun _ => hframe.tns⟩

/-- Settles O27: a scrub reads the word after its flips, whose outcome is the checker's; a sample enters the vault's registers before its
records and the stop, and the completions that a stop brings leave them. -/
theorem sramScrubAndDramTemperature : Obligations.SramScrubAndDramTemperature := by
  unfold Obligations.SramScrubAndDramTemperature
  refine ⟨?_, ?_⟩
  · intro s w b left key e acc hlive hrun
    have hexec := sramScrubRead_exec s w b hlive hrun
    obtain ⟨hflips, hmem, hring⟩ := scrubbed_keeps s w b
    have hring : (scrubbed s w b).errRing = s.errRing := hring.trans (burstFlips_errRing s _ b)
    have hword : mget 0 (scrubbed s w b).sramErrs (sramKey w) = e := by rw [hflips]
    refine ⟨fun h => ?_, fun h => ?_, fun h hacc => ?_⟩ <;> rw [← hword] at h <;> refine ⟨_, hexec, ?_⟩
    · obtain ⟨hrec, hloss⟩ := sramWordRead_uncorrectable _ w h
      refine ⟨(hrec.after (RingGrows.of_eq hring)).exists_rec, ?_⟩
      revert hloss
      cases w <;> exact id
    · obtain ⟨hleft, hrecs⟩ := sramWordRead_corrected _ w left h
      exact ⟨hleft, fun hacc => (hrecs hacc).trans hring⟩
    · rw [sramWordRead_clean _ w h hacc]
      exact ⟨hmem, hring⟩
  · intro s v l u hot kept row records hlive
    obtain ⟨hheat, hrow, hstop, htns⟩ := dramTempSample_spec s v.val (l.map (·.toNat))
    refine ⟨_, congrArg Host.Outcome.next (if_pos hlive), ?_⟩
    generalize dramTempSample v.val (l.map (·.toNat)) s = t at *
    obtain ⟨hr, htemp, hdie, hmode⟩ : (t.vault v).row = _ ∧ (t.vault v).temp = _ ∧ (t.vault v).hotdie = _ ∧ (t.vault v).rmode = _ := by
      simpa only [Vault.heat, Prod.mk.injEq] using hheat
    refine ⟨htemp, hdie, hr, hmode, fun h h' => (hrow ⟨h, h'⟩).exists_rec, fun h => ?_, htns⟩
    obtain ⟨hstopped, hrec⟩ := hstop h
    exact ⟨hstopped, fun h => (hrec h).exists_rec⟩

end Sys2Proof.Machine

/-! ## Jobs and the register window of a session (O46) -/

namespace Sys2Proof.Machine

/-! ### Messages that are served, and their replies (R400, R428, R429) -/

/-- The state in which a message of a session is served: its SEQ has been taken. -/
def served (s : State) (h : ShlHead) : State := s.modSession h.sid fun y => { y with rxSeq := y.rxSeq + 1 }

/-- The session of a message that is served is the one before, with the next SEQ. -/
theorem session_served (s : State) (h : ShlHead) :
    (served s h).session h.sid = { s.session h.sid with rxSeq := (s.session h.sid).rxSeq + 1 } :=
  mget_mset_self _ _ _ _

/-- A message that is right in every check is served (R400, R401). -/
theorem onSession_serves {s : State} {h : ShlHead} {ty version level : Nat} (hs : Serves s h ty version level) (body : State → State) :
    onSession h ty version level body s = body (served s h) := by
  obtain ⟨-, hopen, hok, hver, hst, hport, hseq, hversion, hlevel⟩ := hs
  unfold onSession
  dsimp only
  rw [if_neg (by simp [hopen, hst]), if_neg (by simp [hst, hport, hok, hseq]), if_neg (by simp [hst]), if_neg (by omega),
    if_neg (by omega)]
  rfl

/-- A message to a session changes the sessions and what has gone to the host. -/
theorem SessionFrame.sendReply (s : State) (sid : BitVec 32) (m : HostMsg) : SessionFrame s (sendReply s sid m) := by
  unfold Machine.sendReply
  dsimp only
  split <;> rfl

/-- A message to a session goes to the host. -/
theorem sendReply_hostOut (s : State) (sid : BitVec 32) (m : HostMsg) : (sendReply s sid m).hostOut = s.hostOut ++ [m] := by
  unfold sendReply
  dsimp only
  split <;> rfl

/-- A FAIL reply to an attached session is a message. -/
theorem failReply_attached (h : ShlHead) (code : Nat) (s : State) (hatt : (s.session h.sid).st = .attached) :
    failReply h code s = sendReply s h.sid (.fail h.sid h.tag (BitVec.ofNat 8 code)) := by
  unfold failReply
  dsimp only
  rw [if_neg (by simp [hatt])]

/-- What a refusal is (R428, R429): one record of the code and the FAIL reply; job, memory and register pages stay. -/
def Refused (s : State) (h : ShlHead) (code : Nat) (t : State) : Prop :=
  ∃ e, t.job = s.job ∧ t.mem = s.mem ∧ t.pages = s.pages ∧ t.errRing = s.errRing ++ [e] ∧ e.code = BitVec.ofNat 8 code ∧
    t.hostOut = s.hostOut ++ [.fail h.sid h.tag (BitVec.ofNat 8 code)]

/-- A record and the FAIL reply of its code refuse a message. -/
theorem refused_failReply {s : State} {h : ShlHead} (hatt : (s.session h.sid).st = .attached) (i : RecInfo) :
    Refused s h i.code (failReply h i.code ((served s h).emit i)) := by
  have hst : (((served s h).emit i).session h.sid).st = .attached := by
    show ((served s h).session h.sid).st = _
    rw [session_served, hatt]
  rw [failReply_attached h i.code _ hst]
  have hout := sendReply_hostOut ((served s h).emit i) h.sid (.fail h.sid h.tag (BitVec.ofNat 8 i.code))
  have hframe := SessionFrame.sendReply ((served s h).emit i) h.sid (.fail h.sid h.tag (BitVec.ofNat 8 i.code))
  generalize sendReply _ _ _ = t at *
  unfold SessionFrame at hframe
  exact ⟨(served s h).record i, by rw [hframe]; rfl, by rw [hframe]; rfl, by rw [hframe]; rfl, by rw [hframe]; rfl, rfl, hout⟩

/-- A refusal of a message that was served. -/
theorem refused_refuse {s : State} {h : ShlHead} (hatt : (s.session h.sid).st = .attached) (code : Nat) :
    Refused s h code (refuse h code (served s h)) := refused_failReply hatt _

/-- A FAIL reply without a record leaves the register pages and the error ring (R427). -/
theorem failReply_served {s : State} {h : ShlHead} (hatt : (s.session h.sid).st = .attached) (code : Nat) :
    (failReply h code (served s h)).pages = s.pages ∧ (failReply h code (served s h)).errRing = s.errRing ∧
      (failReply h code (served s h)).hostOut = s.hostOut ++ [.fail h.sid h.tag (BitVec.ofNat 8 code)] := by
  rw [failReply_attached h code _ (by rw [session_served, hatt])]
  have hout := sendReply_hostOut (served s h) h.sid (.fail h.sid h.tag (BitVec.ofNat 8 code))
  have hframe := SessionFrame.sendReply (served s h) h.sid (.fail h.sid h.tag (BitVec.ofNat 8 code))
  generalize sendReply _ _ _ = t at *
  unfold SessionFrame at hframe
  exact ⟨by rw [hframe]; rfl, by rw [hframe]; rfl, hout⟩

/-- A buffer range is checked by its session's buffers (R405). -/
theorem bufferFault_served (s : State) (h : ShlHead) (buf kind off len : Nat) :
    bufferFault (served s h) h.sid buf kind off len = bufferFault s h.sid buf kind off len := by
  unfold bufferFault
  rw [session_served]
  rfl

/-! ### Events to the host (R414 to R416) -/

/-- Between s and t messages have only been added to those that have gone to the host. -/
def HostOutGrows (s t : State) : Prop := s.hostOut <+: t.hostOut

namespace HostOutGrows

theorem refl (s : State) : HostOutGrows s s := List.prefix_rfl

theorem trans {s t u : State} (h : HostOutGrows s t) (h' : HostOutGrows t u) : HostOutGrows s u := List.IsPrefix.trans h h'

theorem of_eq {s t : State} (h : t.hostOut = s.hostOut) : HostOutGrows s t := by
  rw [HostOutGrows, h]

theorem writeEvents (s : State) (sid n : Nat) : HostOutGrows s (writeEvents s sid n) := by
  induction n generalizing s with
  | zero => exact refl s
  | succ n ih =>
    unfold Machine.writeEvents
    dsimp only
    split
    · split
      · refine trans ?_ (ih _)
        exact List.prefix_append _ _
      · exact refl s
    · exact refl s

theorem postTo (s : State) (sid status : Nat) (body : EventBody) : HostOutGrows s (s.postTo sid status body) := by
  unfold State.postTo
  dsimp only
  split
  · exact refl s
  · refine trans ?_ (writeEvents _ _ _)
    exact of_eq rfl

theorem jobEvent (s : State) (kind : Nat) : HostOutGrows s (s.jobEvent kind) :=
  foldl_rel refl trans _ (fun t sid => postTo t sid 0 _) _ s

end HostOutGrows

/-- A JOB event leaves the job. -/
theorem jobEvent_job (s : State) (kind : Nat) : (s.jobEvent kind).job = s.job := by
  have h := SessionFrame.jobEvent s kind
  unfold SessionFrame at h
  rw [h]

/-! ### LOAD (R355, R421) -/

/-- Between s and t the job and what has gone to the host have stayed. -/
def KeepsJob (s t : State) : Prop := t.job = s.job ∧ t.hostOut = s.hostOut

namespace KeepsJob

theorem refl (s : State) : KeepsJob s s := ⟨rfl, rfl⟩

theorem trans {s t u : State} (h : KeepsJob s t) (h' : KeepsJob t u) : KeepsJob s u := ⟨h'.1.trans h.1, h'.2.trans h.2⟩

theorem foldl {β : Type} (f : State → β → State) (hf : ∀ s x, KeepsJob s (f s x)) (l : List β) (s : State) :
    KeepsJob s (l.foldl f s) := foldl_rel refl trans f hf l s

theorem of_storeFrame {s t : State} (h : StoreFrame s t) : KeepsJob s t := by
  unfold StoreFrame at h
  rw [h]
  exact ⟨rfl, rfl⟩

theorem fetchBlocks (s : State) : KeepsJob s (fetchBlocks s) := by
  unfold Machine.fetchBlocks
  split
  · exact refl s
  · exact of_storeFrame (StoreFrame.foldl _ (fun t _ => (StoreFrame.fetchRange t _ _).trans (StoreFrame.fetchRange _ _ _)) _ s)

theorem retrainAll (s : State) : KeepsJob s (retrainAll s) := by
  refine foldl _ (fun t x => ?_) _ s
  exact iteInduction (fun _ => refl t) fun _ => ⟨rfl, rfl⟩

end KeepsJob

/-- The job stands in the state that its images are placed in (R355). -/
theorem placeJob_job (s : State) (b : LoadBody) (rank : Nat) :
    (placeJob s b rank).job = some (jobOf b rank) ∧ (placeJob s b rank).hostOut = s.hostOut := by
  unfold placeJob
  extract_lets p s1 s2 s3
  have hplaced : StoreFrame s1 (store s3 p.groupBase (clean (p.groups.flatMap fun g => (descWords g).flatMap fun w => toBytes 8 w.toNat))) :=
    ((StoreFrame.foldl _ (fun t _ => StoreFrame.store t _ _) _ s1).trans (StoreFrame.foldl _ (fun t _ => StoreFrame.store t _ _) _ s2)).trans
      (StoreFrame.store s3 _ _)
  exact KeepsJob.of_storeFrame hplaced

/-- What else a LOAD sets keeps the job; the host is told (R415). -/
theorem acceptJob_job (s : State) (b : LoadBody) : (acceptJob s b).job = s.job ∧ HostOutGrows s (acceptJob s b) := by
  unfold acceptJob
  extract_lets p windows s1 s2
  have hset : KeepsJob s s1 := ⟨rfl, rfl⟩
  have hcores : KeepsJob s1 s2 := by
    refine iteInduction (fun _ => KeepsJob.foldl _ (fun t c => ?_) _ s1) fun _ => KeepsJob.refl s1
    exact ⟨rfl, rfl⟩
  obtain ⟨hjob, hout⟩ := (hset.trans hcores).trans (KeepsJob.retrainAll s2)
  exact ⟨(jobEvent_job _ _).trans hjob, (HostOutGrows.of_eq hout).trans (HostOutGrows.jobEvent _ _)⟩

/-- A LOAD that fails a check leaves the state (R421). -/
theorem loadResult_fault (s : State) (b : LoadBody) (h : (loadResult s b).1.1 ≠ 0) : (loadResult s b).2 = s := by
  unfold loadResult at *
  dsimp only at *
  split
  · rfl
  · rename_i hdevice
    rw [if_neg hdevice] at h
    split
    · rfl
    · rename_i hgrade
      rw [if_neg hgrade] at h
      split
      · split
        · rfl
        · rename_i rank hranks hplace
          simp only [hranks, hplace, if_false] at h
          split
          · rfl
          · rename_i hprogram
            rw [if_neg hprogram] at h
            exact absurd rfl h
      · rfl

/-- A LOAD that every check passes makes the job (R421). -/
theorem loadResult_accepts (s : State) (b : LoadBody) (rank : Nat) (hdevice : deviceFault s = 0) (hgrade : b.program.grade = s.grade)
    (hranks : ownRanks s b.placement = [rank]) (hlen : b.plLen = 48 * programSize b.program)
    (hplaces : b.placement.length = programSize b.program)
    (hprogram : (programFault (fetchBlocks (placeJob s b rank)) b.program rank (b.det || b.program.detReq)).1 = 0) :
    loadResult s b = ((0, 0), acceptJob (fetchBlocks (placeJob s b rank)) b) := by
  unfold loadResult
  simp only [hdevice, hgrade, hranks, hlen, hplaces, hprogram, ne_eq, not_true, or_self, if_false]

/-- LOAD by the result of its checks (R421). -/
theorem loadMsg_served (s : State) (h : ShlHead) (b : LoadBody) (hs : Serves s h 0x30 2 2) :
    loadMsg h b s =
      let bin := bufferFault s h.sid b.buf.toNat 3 b.binOff b.binLen
      let place := bufferFault s h.sid b.buf.toNat 3 b.plOff b.plLen
      if bin ≠ 0 then refuse h bin (served s h)
      else if place ≠ 0 then refuse h place (served s h)
      else if (loadResult (served s h) b).1.1 = 0 then okReply h (loadResult (served s h) b).2
      else loadRefused h (loadResult (served s h) b).1.1 (loadResult (served s h) b).1.2 (loadResult (served s h) b).2 := by
  unfold loadMsg
  rw [onSession_serves hs]
  simp only [bufferFault_served]
  generalize loadResult (served s h) b = r
  obtain ⟨⟨code, detail⟩, t⟩ := r
  cases code <;> rfl

/-! ### JOB_CTRL (R349, R421) -/

/-- The cores that begin leave the job. -/
theorem startCores_job (s : State) (j : Job) : (startCores s j).job = s.job := by
  refine foldl_keeps State.job _ (fun t c => ?_) _ s
  rfl

/-- The counts that begin leave the job. -/
theorem startCounts_job (s : State) : (startCounts s).job = s.job := by
  unfold startCounts
  dsimp only
  refine (foldl_keeps State.job _ (fun t c => ?_) _ _).trans (foldl_keeps State.job _ (fun t c => ?_) _ s) <;> rfl

/-- The job that begins runs, for the first time or again after a stop (R421). -/
theorem beginJob_job (s : State) (j : Job) (h : j.started = true ∨ j.stopped = false) :
    (beginJob s j).job = some { j with
      started := true, startAt := none, stopping := if j.started then false else j.stopping, stopped := false } := by
  unfold beginJob
  dsimp only
  split
  · rename_i hstarted
    rw [jobEvent_job, startCores_job]
    simp [hstarted]
  · rename_i hstarted
    rw [jobEvent_job, startCores_job, startCounts_job]
    simp [h.resolve_left hstarted]

/-- A job that is not halted runs once it has begun, with its rank. -/
theorem beginJob_runs (s : State) (j : Job) (h : j.started = true ∨ j.stopped = false) (hhalted : j.halted = false) :
    (beginJob s j).jobRuns = true ∧ (beginJob s j).rank = j.rank := by
  rw [State.jobRuns, State.rank, beginJob_job s j h]
  simp [hhalted]

/-- Whether the cabled ports are UP follows from the job's program and rank and the ports (R349). -/
theorem cabledUp_congr {s t : State} {j j' : Job} (hs : s.job = some j) (ht : t.job = some j') (hprog : j'.prog = j.prog)
    (hrank : j'.rank = j.rank) (hports : t.ports = s.ports) : cabledUp t = cabledUp s := by
  unfold cabledUp State.port
  rw [hs, ht, hports]
  dsimp only
  rw [hprog, hrank]

/-- The job of a state that waits for its ports: it begins once they are UP. -/
theorem startIfReady_eq (s : State) (j : Job) (hjob : s.job = some j) (hwait : j.startAt.isSome = true) :
    startIfReady s = if cabledUp s then beginJob s j else s := by
  unfold startIfReady
  rw [hjob]
  simp [hwait]

end Sys2Proof.Machine

namespace Sys2Proof.Machine

/-! ### The register window (R427, R522) -/

/-- A read of a register sends nothing to the host. -/
theorem regRead_hostOut (s : State) (a : Agent) (n off : Nat) : (regRead s a n off).2.2.hostOut = s.hostOut := by
  have hclear : (clearOnRead s n off).hostOut = s.hostOut := by
    unfold clearOnRead
    split <;> rfl
  have hread : (afterRead s a n off).hostOut = s.hostOut := by
    unfold afterRead
    exact iteInduction (motive := fun t : State => t.hostOut = s.hostOut) (fun _ => rfl) fun _ =>
      iteInduction (motive := fun t : State => t.hostOut = s.hostOut) (fun _ => rfl) fun _ => hclear
  unfold regRead
  split
  · rfl
  · split
    · rfl
    · exact hread

/-- Reads of registers send nothing to the host. -/
theorem readRegs_hostOut (s : State) (a : Agent) (page off n : Nat) : (readRegs s a page off n).1.hostOut = s.hostOut :=
  foldl_keeps (fun x : State × List Word => x.1.hostOut) _ (fun x i => regRead_hostOut x.1 a page (off + 8 * i)) _ (s, [])

/-- A read of a number of registers answers as many values. -/
theorem readRegs_length (s : State) (a : Agent) (page off n : Nat) : (readRegs s a page off n).2.length = n := by
  induction n with
  | zero => rfl
  | succ n ih =>
    have hlast : (readRegs s a page off (n + 1)).2 = (readRegs s a page off n).2 ++
        [(regRead (readRegs s a page off n).1 a page (off + 8 * n)).2.1] := by
      unfold readRegs
      rw [List.range_succ, List.foldl_append]
      rfl
    rw [hlast, List.length_append, ih, List.length_singleton]

/-- The first value of a read is that of the first register. -/
theorem readRegs_head (s : State) (a : Agent) (page off n : Nat) (hn : 1 ≤ n) :
    (readRegs s a page off n).2.head? = some (regRead s a page off).2.1 := by
  obtain ⟨m, rfl⟩ : ∃ m, n = m + 1 := ⟨n - 1, by omega⟩
  have hfirst : [(regRead s a page off).2.1] <+: (readRegs s a page off (m + 1)).2 := by
    unfold readRegs
    rw [List.range_succ_eq_map, List.foldl_cons]
    exact foldl_rel (R := fun x y : State × List Word => x.2 <+: y.2) (fun _ => List.prefix_rfl) List.IsPrefix.trans _
      (fun x i => List.prefix_append x.2 [(regRead x.1 a page (off + 8 * i)).2.1]) _
      ((regRead s a page off).2.2, [(regRead s a page off).2.1])
  obtain ⟨l, hl⟩ := hfirst
  rw [← hl]
  rfl

/-- A register of a page answers its value to an attached session. -/
theorem regRead_value (s : State) (sid : BitVec 32) (page off : Nat) (hatt : (s.session sid).st = .attached)
    (hpage : pagePresent page = true) (h8 : off % 8 = 0) (hoff : off < 2 ^ 16) :
    (regRead s (.session sid) page off).2.1 = regValue s (.session sid) page off := by
  have hread : mayRead s (.session sid) = true := by simp [mayRead, hatt]
  rw [regRead, hread, hpage, h8]
  have hin : ¬ 65536 ≤ off := by omega
  simp [hin]

/-- What a session may write is not changed by the message that is served. -/
theorem mayWriteReg_served (s : State) (h : ShlHead) (page off : Nat) :
    mayWriteReg (served s h) (.session h.sid) page off = mayWriteReg s (.session h.sid) page off := by
  unfold mayWriteReg mayWrite level2
  dsimp only
  rw [session_served]

/-- A write of ERR_EN that is permitted sets it (R521, R529). -/
theorem regWrite_errEn (s : State) (a : Agent) (page : Nat) (val : Word) (hpage : pagePresent page = true)
    (hmay : mayWriteReg s a page 0x30 = true) :
    writeFault s a page 0x30 = 0 ∧ regWrite s a page 0x30 val = (0, s.modPage page fun g => { g with errEn := val.truncate 7 }) := by
  have hfault : writeFault s a page 0x30 = 0 := by
    simp [writeFault, frozen, hpage, hmay]
  refine ⟨hfault, ?_⟩
  unfold regWrite
  dsimp only
  rw [hfault]
  rfl

/-! ### The messages of jobs and of the register window (R421, R427) -/

/-- The plain reply leaves the job and the register pages, and goes to the host. -/
theorem okReply_keeps (h : ShlHead) (t : State) :
    (okReply h t).job = t.job ∧ (okReply h t).pages = t.pages ∧ (okReply h t).hostOut = t.hostOut ++ [.ok h.sid h.tag] := by
  have hframe := SessionFrame.sendReply t h.sid (.ok h.sid h.tag)
  have hout := sendReply_hostOut t h.sid (.ok h.sid h.tag)
  unfold okReply
  generalize sendReply t h.sid (.ok h.sid h.tag) = u at *
  unfold SessionFrame at hframe
  exact ⟨by rw [hframe], by rw [hframe], hout⟩

/-- A LOAD that a check fails is refused with the code of the first (R421). -/
theorem loadMsg_refused {s : State} {h : ShlHead} {b : LoadBody} (hs : Serves s h 0x30 2 2) (hatt : (s.session h.sid).st = .attached) :
    let bin := bufferFault s h.sid b.buf.toNat 3 b.binOff b.binLen
    let place := bufferFault s h.sid b.buf.toNat 3 b.plOff b.plLen
    let code := (loadResult (served s h) b).1.1
    (bin ≠ 0 → Refused s h bin (loadMsg h b s)) ∧ (bin = 0 → place ≠ 0 → Refused s h place (loadMsg h b s)) ∧
      (bin = 0 → place = 0 → code ≠ 0 → Refused s h code (loadMsg h b s)) := by
  intro bin place code
  rw [loadMsg_served s h b hs]
  refine ⟨fun hbin => ?_, fun hbin hplace => ?_, fun hbin hplace hcode => ?_⟩
  · rw [if_pos hbin]
    exact refused_refuse hatt _
  · rw [if_neg (not_not_intro hbin), if_pos hplace]
    exact refused_refuse hatt _
  · rw [if_neg (not_not_intro hbin), if_neg (not_not_intro hplace), if_neg hcode, loadResult_fault _ b hcode]
    exact refused_failReply hatt _

/-- A LOAD that every check passes makes the job, and the session gets its reply (R421). -/
theorem loadMsg_accepts {s : State} {h : ShlHead} {b : LoadBody} (rank : Nat) (hs : Serves s h 0x30 2 2)
    (hbin : bufferFault s h.sid b.buf.toNat 3 b.binOff b.binLen = 0) (hplace : bufferFault s h.sid b.buf.toNat 3 b.plOff b.plLen = 0)
    (hresult : loadResult (served s h) b = ((0, 0), acceptJob (fetchBlocks (placeJob (served s h) b rank)) b)) :
    (loadMsg h b s).job = some (jobOf b rank) ∧ .ok h.sid h.tag ∈ (loadMsg h b s).hostOut.drop s.hostOut.length := by
  rw [loadMsg_served s h b hs]
  simp only [hbin, hplace, hresult, ne_eq, not_true, if_false, if_true]
  obtain ⟨hjob, -, hout⟩ := okReply_keeps h (acceptJob (fetchBlocks (placeJob (served s h) b rank)) b)
  obtain ⟨hplaced, hquiet⟩ := placeJob_job (served s h) b rank
  obtain ⟨hfetched, hquiet'⟩ := KeepsJob.fetchBlocks (placeJob (served s h) b rank)
  obtain ⟨haccepted, hgrows⟩ := acceptJob_job (fetchBlocks (placeJob (served s h) b rank)) b
  refine ⟨hjob.trans (haccepted.trans (hfetched.trans hplaced)), ?_⟩
  have hgrows : s.hostOut <+: (acceptJob (fetchBlocks (placeJob (served s h) b rank)) b).hostOut :=
    (HostOutGrows.of_eq (hquiet'.trans hquiet)).trans hgrows
  obtain ⟨l, hl⟩ := hgrows
  rw [hout, ← hl]
  simp

/-- JOB_CTRL start (R349, R419, R421): refused without a job that can start; else the job begins, or waits for its ports. -/
theorem jobStart_spec {s : State} {h : ShlHead} (hs : Serves s h 0x31 2 2) (hatt : (s.session h.sid).st = .attached) :
    (s.job = none → Refused s h 0x78 (jobStart h s)) ∧
    ∀ j, s.job = some j →
      let startable := s.jobRuns = false ∧ j.halted = false ∧ j.startAt = none ∧ tiersCovered s j.prog = true
      (¬ startable → Refused s h 0x78 (jobStart h s)) ∧
      (startable → (j.started = true ∨ j.stopped = false) →
        (cabledUp s = true → (jobStart h s).jobRuns = true ∧ (jobStart h s).rank = j.rank) ∧
        (cabledUp s = false → (jobStart h s).job = some { j with startAt := some s.cycle } ∧ (jobStart h s).cores = s.cores)) := by
  unfold jobStart
  rw [onSession_serves hs]
  refine ⟨fun hjob => ?_, fun j hjob => ?_⟩
  · have hjob : (served s h).job = none := hjob
    rw [hjob]
    exact refused_refuse hatt _
  intro startable
  have hjob' : (served s h).job = some j := hjob
  rw [hjob']
  dsimp only
  have hcond : ((served s h).jobRuns || j.halted || j.startAt.isSome || !tiersCovered (served s h) j.prog) = false ↔ startable := by
    show (s.jobRuns || j.halted || j.startAt.isSome || !tiersCovered s j.prog) = false ↔ _
    simp [startable, and_assoc]
  refine ⟨fun hno => ?_, fun hcan hfresh => ?_⟩
  · rw [if_pos (Bool.of_not_eq_false (mt hcond.1 hno))]
    exact refused_refuse hatt _
  · rw [hcond.2 hcan, if_neg Bool.false_ne_true]
    obtain ⟨-, hhalted, -, -⟩ := hcan
    have hframe := SessionFrame.sendReply (served s h) h.sid (.ok h.sid h.tag)
    unfold okReply
    generalize sendReply (served s h) h.sid (.ok h.sid h.tag) = t at *
    have hports : t.ports = s.ports ∧ t.cores = s.cores := by
      unfold SessionFrame at hframe
      rw [hframe]
      exact ⟨rfl, rfl⟩
    let waits : Job := { j with startAt := some s.cycle }
    have hup : cabledUp { t with job := some waits } = cabledUp s := cabledUp_congr hjob rfl rfl rfl hports.1
    have hstart := startIfReady_eq { t with job := some waits } waits rfl rfl
    rw [hup] at hstart
    refine ⟨fun hcabled => ?_, fun hcabled => ?_⟩
    · rw [hcabled, if_pos rfl] at hstart
      have hruns := beginJob_runs { t with job := some waits } waits hfresh hhalted
      rw [← hstart] at hruns
      exact hruns
    · rw [hcabled, if_neg (by simp)] at hstart
      exact ⟨congrArg State.job hstart, (congrArg State.cores hstart).trans hports.2⟩

/-- JOB_CTRL stop (R421): the job stops at its next step boundary. -/
theorem jobStop_spec {s : State} {h : ShlHead} (hs : Serves s h 0x31 2 2) (hatt : (s.session h.sid).st = .attached) :
    (s.jobRuns = false → Refused s h 0x78 (jobStop h s)) ∧
    ∀ j, s.job = some j → s.jobRuns = true →
      (jobStop h s).job = some { j with stopping := true } ∧ (jobStop h s).hostOut = s.hostOut ++ [.ok h.sid h.tag] := by
  unfold jobStop
  rw [onSession_serves hs]
  refine ⟨fun hruns => ?_, fun j hjob hruns => ?_⟩ <;> have hruns : (served s h).jobRuns = _ := hruns <;> rw [hruns]
  · exact refused_refuse hatt _
  · obtain ⟨hkept, -, hout⟩ := okReply_keeps h (served s h)
    have hkept : (okReply h (served s h)).job = some j := hkept.trans hjob
    rw [if_pos rfl, State.stopAtBoundary, hkept]
    exact ⟨rfl, hout⟩

/-- REG_RD (R427): refused for a number of registers out of range, an address fault outside the page, else the values. -/
theorem regRd_spec {s : State} {h : ShlHead} (hs : Serves s h 0x38 1 0) (hatt : (s.session h.sid).st = .attached) (page off n : Nat) :
    ((n < 1 ∨ 64 < n) → Refused s h 0x76 (regRd h page off n s)) ∧
    (1 ≤ n → n ≤ 64 → (pagePresent page = false ∨ off % 8 ≠ 0 ∨ 2 ^ 16 < off + 8 * n) →
      (regRd h page off n s).errRing = s.errRing ∧ (regRd h page off n s).hostOut = s.hostOut ++ [.fail h.sid h.tag 0x07]) ∧
    (1 ≤ n → n ≤ 64 → pagePresent page = true → off % 8 = 0 → off + 8 * n ≤ 2 ^ 16 →
      (regRd h page off n s).hostOut =
        s.hostOut ++ [.values h.sid h.tag (readRegs (served s h) (.session h.sid) page off n).2]) := by
  unfold regRd
  rw [onSession_serves hs]
  refine ⟨fun hn => ?_, fun hlow hhigh hbad => ?_, fun hlow hhigh hpage h8 hoff => ?_⟩
  · rw [if_pos hn]
    exact refused_refuse hatt _
  · have hcond : (!pagePresent page || off % 8 != 0 || decide (2 ^ 16 < off + 8 * n)) = true := by
      simpa [or_assoc] using hbad
    rw [if_neg (by omega), if_pos hcond]
    exact (failReply_served hatt 0x07).2
  · have hcond : ¬ (!pagePresent page || off % 8 != 0 || decide (2 ^ 16 < off + 8 * n)) = true := by
      simpa [hpage, h8] using hoff
    rw [if_neg (by omega), if_neg hcond]
    dsimp only
    rw [sendReply_hostOut, readRegs_hostOut]
    rfl

/-- REG_WR (R427): refused for a number of registers or for want of privilege; an address fault writes nothing. -/
theorem regWr_fault {s : State} {h : ShlHead} (hs : Serves s h 0x39 1 0) (hatt : (s.session h.sid).st = .attached) (page off : Nat)
    (vals : List Word) :
    let fault := regWrFault (served s h) (.session h.sid) page off vals.length
    ((vals.length < 1 ∨ 64 < vals.length) → Refused s h 0x76 (regWr h page off vals s)) ∧
    (1 ≤ vals.length → vals.length ≤ 64 → fault = 0x72 → Refused s h 0x72 (regWr h page off vals s)) ∧
    (1 ≤ vals.length → vals.length ≤ 64 → fault = 0x07 →
      regWr h page off vals s = failReply h 0x07 (served s h)) := by
  intro fault
  unfold regWr
  rw [onSession_serves hs]
  dsimp only
  refine ⟨fun hn => ?_, fun hlow hhigh hfault => ?_, fun hlow hhigh hfault => ?_⟩
  · rw [if_pos hn]
    exact refused_refuse hatt _
  · rw [if_neg (by omega), show regWrFault _ _ _ _ _ = _ from hfault]
    exact refused_refuse hatt _
  · rw [if_neg (by omega), show regWrFault _ _ _ _ _ = _ from hfault]
    rfl

/-- A REG_WR of ERR_EN that the session may make sets it (R427, R529). -/
theorem regWr_errEn {s : State} {h : ShlHead} (hs : Serves s h 0x39 1 0) (page : Nat) (val : Word) (hpage : pagePresent page = true)
    (hmay : mayWriteReg s (.session h.sid) page 0x30 = true) :
    regWr h page 0x30 [val] s = okReply h ((served s h).modPage page fun g => { g with errEn := val.truncate 7 }) := by
  obtain ⟨hfault, hwrite⟩ := regWrite_errEn (served s h) (.session h.sid) page val hpage (by rw [mayWriteReg_served, hmay])
  have hnone : regWrFault (served s h) (.session h.sid) page 0x30 [val].length = 0 := by
    simp [regWrFault, hfault]
  have hwritten : writeRegs (served s h) (.session h.sid) page 0x30 [val] =
      (0, (served s h).modPage page fun g => { g with errEn := val.truncate 7 }) := by
    unfold writeRegs
    show (let r := regWrite (served s h) (.session h.sid) page 0x30 val; ((if 0 = 0 then r.1 else 0), r.2)) = _
    rw [hwrite]
    rfl
  unfold regWr
  rw [onSession_serves hs]
  dsimp only
  rw [if_neg (by simp), hnone, hwritten]
  rfl

/-- Settles O46: each message by what it does once it is served; a refusal is one record and one FAIL reply. -/
theorem jobsAndRegisters : Obligations.JobsAndRegisters := by
  unfold Obligations.JobsAndRegisters
  intro s h b rank j page off n val vals s1 ok a refuses bin place startable hrun
  have hrefuses : ∀ (i : Instr) (t : State) (code : Nat), exec i s = .next t → Refused s h code t → refuses i code :=
    fun i t code hi ⟨e, hrefused⟩ => ⟨t, e, hi, hrefused⟩
  have hexec : ∀ {t : State}, s.live = true → (if s.live = true then t else s) = t := fun hlive => if_pos hlive
  have hexec' : ∀ {t : State}, s.live = true → (if (s.live && !s.stopped) = true then t else s) = t :=
    fun hlive => if_pos (by rw [hlive, hrun]; rfl)
  refine ⟨fun hs => ?_, fun hs => ?_, fun hs => ?_, fun hs => ?_⟩ <;> obtain ⟨hlive, -, -, -, hatt, -⟩ := id hs
  · have hload : exec (.load h b) s = .next (loadMsg h b s) := congrArg Host.Outcome.next (hexec' hlive)
    obtain ⟨hbin, hplace, hresult⟩ := loadMsg_refused (b := b) hs hatt
    refine ⟨fun h₁ => hrefuses _ _ _ hload (hbin h₁), fun h₁ h₂ => hrefuses _ _ _ hload (hplace h₁ h₂),
      fun h₁ h₂ h₃ => hrefuses _ _ _ hload (hresult h₁ h₂ h₃), fun h₁ h₂ hdevice hgrade hranks hlen hplaces hprogram => ?_⟩
    exact ⟨_, hload, loadMsg_accepts rank hs h₁ h₂ (loadResult_accepts _ b rank hdevice hgrade hranks hlen hplaces hprogram)⟩
  · have hstart : exec (.jobStart h) s = .next (jobStart h s) := congrArg Host.Outcome.next (hexec' hlive)
    have hstop : exec (.jobStop h) s = .next (jobStop h s) := congrArg Host.Outcome.next (hexec hlive)
    obtain ⟨hnone, hjob⟩ := jobStart_spec hs hatt
    obtain ⟨hidle, hstops⟩ := jobStop_spec hs hatt
    refine ⟨fun h₁ => hrefuses _ _ _ hstart (hnone h₁), fun h₁ h₂ => hrefuses _ _ _ hstart ((hjob j h₁).1 h₂), fun h₁ h₂ h₃ => ?_,
      fun h₁ => hrefuses _ _ _ hstop (hidle h₁), fun h₁ h₂ => ⟨_, hstop, hstops j h₁ h₂⟩, ?_⟩
    · obtain ⟨hbegins, hwaits⟩ := (hjob j h₁).2 h₂ h₃
      exact ⟨fun h₄ => ⟨_, hstart, hbegins h₄⟩, fun h₄ => ⟨_, hstart, hwaits h₄⟩⟩
    · have hreset : exec (.jobCtrlReset h) s = .next (jobReset (okReply h (served s h))) :=
        congrArg Host.Outcome.next ((hexec hlive).trans (onSession_serves hs _))
      have hgo : resetWaits (okReply h (served s h)) = false := by
        have hframe := SessionFrame.sendReply (served s h) h.sid (.ok h.sid h.tag)
        have hstopped : (okReply h (served s h)).stopped = false := by
          unfold SessionFrame at hframe
          unfold okReply
          rw [hframe]
          exact hrun
        rw [resetWaits, hstopped]
        rfl
      obtain ⟨_, -, hunloaded⟩ := unloaded_jobReset _ hgo
      exact ⟨_, hreset, hunloaded.job, hunloaded.batches, hunloaded.lookups, hunloaded.xops⟩
  · have hread : exec (.regRd h page off n) s = .next (regRd h page off n s) := congrArg Host.Outcome.next (hexec hlive)
    obtain ⟨hcount, hfault, hvalues⟩ := regRd_spec hs hatt page off n
    refine ⟨fun h₁ => hrefuses _ _ _ hread (hcount h₁), fun h₁ h₂ h₃ => ⟨_, hread, hfault h₁ h₂ h₃⟩,
      fun h₁ h₂ hpage h8 hoff => ⟨_, _, hread, hvalues h₁ h₂ hpage h8 hoff, rfl, readRegs_length _ _ _ _ _, ?_⟩⟩
    have hatt' : ((served s h).session h.sid).st = .attached := by rw [session_served, hatt]
    rw [readRegs_head _ _ _ _ _ h₁, regRead_value _ _ _ _ hatt' hpage h8 (by omega)]
    rfl
  · have hwrite : ∀ off vals, exec (.regWr h page off vals) s = .next (regWr h page off vals s) :=
      fun _ _ => congrArg Host.Outcome.next (hexec hlive)
    obtain ⟨hcount, hprivilege, haddress⟩ := regWr_fault hs hatt page off vals
    refine ⟨fun h₁ => hrefuses _ _ _ (hwrite _ _) (hcount h₁), fun h₁ h₂ h₃ => hrefuses _ _ _ (hwrite _ _) (hprivilege h₁ h₂ h₃),
      fun h₁ h₂ h₃ => ⟨_, hwrite _ _, ?_⟩, fun hpage hmay => ⟨_, hwrite _ _, ?_⟩⟩
    · rw [haddress h₁ h₂ h₃]
      exact failReply_served hatt 0x07
    · rw [regWr_errEn hs page val hpage hmay]
      obtain ⟨-, hpages, hout⟩ := okReply_keeps h ((served s h).modPage page fun g => { g with errEn := val.truncate 7 })
      refine ⟨?_, hout⟩
      rw [State.page, hpages]
      exact congrArg Page.errEn (page_modPage_self _ _ _)

end Sys2Proof.Machine

/-! ## The canonical form of the memory (O57) -/

namespace Sys2Proof.Machine

/-! ### What leaves the memory -/

@[simp] theorem haltCore_mem (s : State) (c cause slot detail : Nat) (b pc : BitVec 32) : (s.haltCore c cause slot detail b pc).mem = s.mem := by
  unfold State.haltCore
  dsimp only
  split <;> rfl

@[simp] theorem addToken_mem (s : State) (c t n : Nat) : (s.addToken c t n).mem = s.mem := by
  unfold State.addToken
  dsimp only
  split
  · split
    · rfl
    · exact haltCore_mem ..
  · rfl

@[simp] theorem popTransfer_mem (s : State) (c q : Nat) (t : Transfer) : (popTransfer s c q t).mem = s.mem := by
  unfold popTransfer
  dsimp only
  split
  · exact addToken_mem ..
  · rfl

@[simp] theorem takeCredits_mem (s : State) (port key : Nat) (m : OutMsg) : (takeCredits s port key m).mem = s.mem := by
  unfold takeCredits
  split <;> rfl

@[simp] theorem shipOn_mem (s : State) (port : Nat) (dl : Bool) (m : OutMsg) : (shipOn s port dl m).mem = s.mem := by
  unfold shipOn
  dsimp only
  split
  · exact takeCredits_mem ..
  · rfl

@[simp] theorem ship_mem (s : State) (m : OutMsg) : (ship s m).mem = s.mem := by
  unfold ship
  split
  · exact shipOn_mem ..
  · rfl

@[simp] theorem shipAll_mem (s : State) (l : List OutMsg) : (shipAll s l).mem = s.mem := foldl_mem ship ship_mem l s

@[simp] theorem releaseLocal_mem (s : State) (g : Nat) : (releaseLocal s g).mem = s.mem := by
  unfold releaseLocal
  extract_lets _ key late s'
  exact foldl_mem (fun s c => s.modCore c fun k => { k with barLate := k.barLate.filter (· != key) }) (fun _ _ => rfl) late s

@[simp] theorem releaseIfComplete_mem (s : State) (g : Nat) : (releaseIfComplete s g).mem = s.mem := by
  unfold releaseIfComplete
  dsimp only
  split
  · rw [releaseLocal_mem, shipAll_mem]
  · rfl

@[simp] theorem barArrive_mem (s : State) (c g : Nat) : (barArrive s c g).mem = s.mem := by
  unfold barArrive
  dsimp only
  split
  · rfl
  · split
    · split
      · exact releaseIfComplete_mem ..
      · exact ship_mem ..
    · rfl

@[simp] theorem barFirst_mem (s : State) (c g : Nat) : (barFirst s c g).mem = s.mem := by
  unfold barFirst
  dsimp only
  split
  · rfl
  · exact barArrive_mem ..

@[simp] theorem idleCores_mem (s : State) : s.idleCores.mem = s.mem := by
  unfold State.idleCores
  exact foldl_mem _ (fun t c => modCore_mem ..) _ s

@[simp] theorem jobEvent_mem (s : State) (kind : Nat) : (s.jobEvent kind).mem = s.mem := by
  have h := SessionFrame.jobEvent s kind
  unfold SessionFrame at h
  rw [h]

@[simp] theorem haltJob_mem (s : State) : s.haltJob.mem = s.mem := by
  unfold State.haltJob
  split
  · rfl
  · split
    · rfl
    · simp only [jobEvent_mem, idleCores_mem]

@[simp] theorem stopAtBoundary_mem (s : State) : s.stopAtBoundary.mem = s.mem := by
  unfold State.stopAtBoundary
  split <;> rfl

@[simp] theorem addAction_mem (s : State) (a : Action) : (s.addAction a).mem = s.mem := by
  unfold State.addAction
  split <;> rfl

@[simp] theorem withdrawNow_mem (s : State) : (withdrawNow s).mem = s.mem := by
  unfold withdrawNow
  split
  · rfl
  · rw [haltJob_mem]
    unfold withdrawPart
    split
    · rfl
    · dsimp only [writeAmendment]
      split <;> rfl

@[simp] theorem dropLanes_mem (s : State) (uclass uinst loc code : Nat) : (dropLanes s uclass uinst loc code).mem = s.mem := by
  unfold dropLanes
  split <;> rfl

@[simp] theorem classify_mem (s : State) (uclass uinst loc code : Nat) : (classify s uclass uinst loc code).mem = s.mem := by
  unfold classify
  extract_lets t1 _ t2 t3 atOnce t4 used
  have hdrop : t3.mem = s.mem := dropLanes_mem ..
  have hacted : t4.mem = s.mem := by
    dsimp only [t4]
    split
    · rw [withdrawNow_mem, hdrop]
    · split
      · rw [addAction_mem, hdrop]
      · exact hdrop
  clear_value t4
  split
  · rw [haltJob_mem, hacted]
  · split
    · exact hacted
    · rw [stopAtBoundary_mem, hacted]

/-! ### What keeps the form (R107, R131, R186) -/

/-- When the memory of s is in canonical form, so is that of t. The lemmas of the namespace say it of reads and writes of the stores,
and of what is made of them. -/
def KeepsForm (s t : State) : Prop := Memory.wf s.mem = true → Memory.wf t.mem = true

namespace KeepsForm

theorem refl (s : State) : KeepsForm s s := id

theorem trans {s t u : State} (h : KeepsForm s t) (h' : KeepsForm t u) : KeepsForm s u := h' ∘ h

theorem foldl {β : Type} (f : State → β → State) (hf : ∀ s x, KeepsForm s (f s x)) (l : List β) (s : State) :
    KeepsForm s (l.foldl f s) := foldl_wf f hf l s

theorem of_mem {s t : State} (h : t.mem = s.mem) : KeepsForm s t := fun hs => h ▸ hs

/-- A write that depends on a condition. -/
theorem ite {s t u : State} {p : Prop} [Decidable p] (h : KeepsForm s t) (h' : KeepsForm s u) : KeepsForm s (if p then t else u) :=
  iteInduction (fun _ => h) fun _ => h'

theorem fetchRange (s : State) (a n : Nat) : KeepsForm s (fetchRange s a n) := fetchRange_wf s a n

theorem store (s : State) (a : Nat) (bs : List PByte) : KeepsForm s (store s a bs) := store_wf s a bs

theorem tileWrite (s : State) (c q a : Nat) (bs : List PByte) : KeepsForm s (tileWrite s c q a bs) := tileWrite_wf s c q a bs

theorem drain (s : State) (c : Nat) : KeepsForm s (s.drain c) := drain_wf s c

theorem sramRead (s : State) (k : Nat) : KeepsForm s (sramRead s k).1 := sramRead_wf s k

theorem setEntry (s : State) (ph n z : Nat) (p : Bool) : KeepsForm s (s.setEntry ph n z p) := of_mem rfl

theorem readGranule (s : State) (g : Nat) (x y : Disturb) : KeepsForm s (readGranule s g x y) := readGranule_wf s g x y

/-! Accumulator entries and hot-row slots -/

theorem readEntry (s : State) (ph n : Nat) : KeepsForm s (readEntry s ph n) := by
  unfold Machine.readEntry
  extract_lets r s'
  have hs : KeepsForm s s' := ite ((sramRead s _).trans (setEntry _ _ _ _ _)) (sramRead s _)
  exact hs.trans (ite (refl s') (of_mem rfl))

theorem markRecord (s : State) (v slot : Nat) (e : HotEntry) : KeepsForm s (markRecord s v slot e) := by
  unfold Machine.markRecord
  split
  · exact refl s
  · exact store s _ _

theorem badSlot (s : State) (v slot : Nat) : KeepsForm s (badSlot s v slot) := by
  unfold Machine.badSlot
  extract_lets e g
  have hmarked : KeepsForm s (setMark (setMark s g) (g + 1)) := of_mem rfl
  exact ite (refl s) (ite (of_mem (modVault_mem ..)) (hmarked.trans (markRecord _ v slot e)))

theorem fetchSlot (s : State) (v slot : Nat) : KeepsForm s (fetchSlot s v slot) := by
  unfold Machine.fetchSlot
  exact foldl _ (fun t i => ite ((sramRead t _).trans (badSlot _ v slot)) (sramRead t _)) _ s

theorem badEntry (s : State) (v slot : Nat) : KeepsForm s (badEntry s v slot) := by
  unfold Machine.badEntry
  extract_lets e s'
  have hs : KeepsForm s s' := ite (markRecord s v slot e) (refl s)
  exact hs.trans (of_mem (modVault_mem ..))

theorem fetchDirWord (s : State) (v w : Nat) : KeepsForm s (fetchDirWord s v w) := by
  unfold Machine.fetchDirWord
  extract_lets key r t
  have hr : KeepsForm s r.1 := sramRead s key
  have ht : KeepsForm r.1 t := (badEntry r.1 v (2 * w)).trans (badEntry _ v (2 * w + 1))
  clear_value t
  exact ite ((hr.trans ht).trans (of_mem rfl)) hr

/-! Transfers (R131, R132, R359) -/

theorem transferFetch (s : State) (c a n : Nat) : KeepsForm s (transferFetch s c a n) := by
  unfold Machine.transferFetch
  refine ite (foldl _ (fun t i => ?_) _ s) (ite (foldl _ (fun t i => fetchSlot t _ _) _ s) (fetchRange s a n))
  dsimp only
  split
  · exact readEntry t _ _
  · exact refl t

theorem transferWrite (s : State) (c a : Nat) (bs : List PByte) : KeepsForm s (transferWrite s c a bs) := by
  unfold Machine.transferWrite
  refine ite (foldl _ (fun t i => ?_) _ s) (store s a bs)
  dsimp only
  split
  · exact setEntry t _ _ _ _
  · exact refl t

theorem copyRows (s : State) (c : Nat) (segs : List (Nat × Nat × Nat)) : KeepsForm s (copyRows s c segs) :=
  (foldl _ (fun t (x : Nat × Nat × Nat) => transferFetch t c x.1 x.2.2) _ s).trans
    (foldl _ (fun t (x : Nat × Nat × Nat) => transferWrite t c x.2.1 _) _ _)

theorem fetchHeads (s : State) (t : Transfer) : KeepsForm s (fetchHeads s t) := by
  unfold Machine.fetchHeads
  split
  · exact refl s
  · exact foldl _ (fun u x => ite (fetchRange u _ _) (refl u)) _ s

theorem transferComplete (c q : Nat) (s : State) : KeepsForm s (transferComplete c q s) := by
  unfold Machine.transferComplete
  split
  · exact refl s
  · rename_i t _ _
    have hrefused : ∀ b p, KeepsForm s ((failTransfer (Machine.fetchHeads s t) c q).haltCore c 0x09 5 0 b p) :=
      fun b p => (fetchHeads s t).trans (of_mem (haltCore_mem ..))
    have hmoved : KeepsForm s ((popTransfer (Machine.copyRows (Machine.fetchHeads s t) c t.segs) c q t).drain c) :=
      (((fetchHeads s t).trans (copyRows _ c t.segs)).trans (of_mem (popTransfer_mem ..))).trans (drain _ c)
    split
    · exact ite (refl s) (ite (hrefused _ _) hmoved)
    · exact ite (refl s) (ite (hrefused _ _) hmoved)
    · exact ite (of_mem (popTransfer_mem ..)) (refl s)

/-- A head is read, then its transfer fails or its new head is written (R359, R360). -/
theorem headStep (s : State) (c q : Nat) (t : Transfer) (a v g st h : Nat) (bad good : Prop) [Decidable bad] [Decidable good] :
    KeepsForm s (
      if bad then versionFault (Machine.fetchRange s a 64) c q t 0x65 h 0
      else if good then ranTransfer (writeHead (Machine.fetchRange s a 64) a v g st) c q
      else versionFault (Machine.fetchRange s a 64) c q t 0x62 h 0) :=
  (fetchRange s a 64).trans (ite (of_mem rfl) (ite (trans (store _ _ _) (of_mem rfl)) (of_mem rfl)))

theorem openVersion (c q : Nat) (s : State) : KeepsForm s (openVersion c q s) := by
  unfold Machine.openVersion
  split
  · refine ite ?_ (refl s)
    dsimp only
    split
    · exact refl s
    · exact headStep s c q _ _ _ _ _ _ _ _
  · exact refl s

theorem publishVersion (c q : Nat) (s : State) : KeepsForm s (publishVersion c q s) := by
  unfold Machine.publishVersion
  split
  · refine ite ?_ (refl s)
    dsimp only
    split
    · exact refl s
    · exact headStep s c q _ _ _ _ _ _ _ _
  · exact refl s

theorem gatherRun (c q : Nat) (s : State) : KeepsForm s (gatherRun c q s) := by
  unfold Machine.gatherRun
  split
  · refine ite ?_ (refl s)
    dsimp only
    split
    · exact refl s
    · have hheads : ∀ l : List Nat, KeepsForm s (l.foldl (fun s a => Machine.fetchRange s a 64) s) :=
        fun l => foldl _ (fun t a => fetchRange t a 64) l s
      have hbytes : ∀ (l : List Nat) (f : Nat → Nat) (t : State), KeepsForm t (l.foldl (fun s i => Machine.fetchRange s (f i) 1) t) :=
        fun l f t => foldl _ (fun t i => fetchRange t (f i) 1) l t
      have hran : ∀ t : State, KeepsForm t (ranTransfer t c q) := fun t => of_mem (modCore_mem ..)
      split
      · exact (hheads _).trans (of_mem rfl)
      · exact (((hheads _).trans (hbytes _ _ _)).trans (store _ _ _)).trans ((hran _).trans (drain _ c))
  · exact refl s

/-! The issue of a bundle (R115, R135, R143) -/

theorem bite (s : State) (uc ui : Nat) (op : Word) (a n : Nat) : KeepsForm s (s.bite uc ui op a n) := of_mem rfl

theorem scalarApply (c : Nat) (b : BitVec 32) (x : ScalarSlot) (s t : State) : KeepsForm t (scalarApply c b x s t) := by
  unfold Machine.scalarApply
  extract_lets k t'
  have ht : KeepsForm t t' := of_mem (by dsimp only [t']; split <;> rfl)
  have hcore : ∀ (u : State) (f : Core → Core), KeepsForm u (u.modCore c f) := fun u f => of_mem (modCore_mem u c f)
  refine ht.trans ?_
  clear_value t'
  split
  · exact ite ((hcore t' _).trans (bite _ _ _ _ _ _)) (hcore t' _)
  · exact tileWrite _ _ _ _ _
  · exact hcore t' _
  · exact hcore t' _
  · exact hcore t' _
  · exact refl t'

theorem passApply (c : Nat) (b : BitVec 32) (m : MatrixSlot) (s t : State) : KeepsForm t (passApply c b m s t) := by
  unfold Machine.passApply
  exact ite (refl t) (of_mem rfl)

theorem moveApply (c : Nat) (b : BitVec 32) (m : MoveSlot) (s t : State) : KeepsForm t (moveApply c b m s t) := by
  unfold Machine.moveApply
  dsimp only
  split
  · exact refl t
  · exact of_mem rfl
  · exact of_mem rfl
  · exact ite (bite t _ _ _ _ _) (of_mem rfl)
  · exact of_mem rfl

theorem keepBite (c : Nat) (b : BitVec 32) (x : VectorSlot) (o : VecOut) (t : State) : KeepsForm t (keepBite c b x o t) := by
  obtain h | ⟨i, h⟩ := keepBite_state c b x o t <;> rw [h]
  · exact refl t
  · exact of_mem rfl

theorem vecKeep (c : Nat) (b : BitVec 32) (x : VectorSlot) (o : VecOut) (t : State) : KeepsForm t (vecKeep c b x o t) := by
  have hcore : KeepsForm t (t.modCore c (keepCore t.cycle x o)) := of_mem (modCore_mem ..)
  have hentries : ∀ u : State, KeepsForm u (o.accs.foldl (fun t e => t.setEntry e.1 e.2.1 e.2.2.1 e.2.2.2) u) :=
    foldl (fun t (e : Nat × Nat × Nat × Bool) => t.setEntry e.1 e.2.1 e.2.2.1 e.2.2.2) 
      (fun u (e : Nat × Nat × Nat × Bool) => setEntry u e.1 e.2.1 e.2.2.1 e.2.2.2) o.accs
  have hstores : ∀ (q : Nat) (u : State), KeepsForm u (o.stores.foldl (fun t e => Machine.tileWrite t c q e.1 e.2) u) :=
    fun q => foldl (fun t (e : Nat × List PByte) => Machine.tileWrite t c q e.1 e.2) (fun u (e : Nat × List PByte) => tileWrite u c q e.1 e.2) o.stores
  exact ((hcore.trans (hentries _)).trans (hstores _ _)).trans (keepBite _ _ _ _ _)

theorem vecApply (c : Nat) (b : BitVec 32) (x : VectorSlot) (s t : State) : KeepsForm t (vecApply c b x s t) := by
  unfold Machine.vecApply
  exact ite (refl t) (vecKeep _ _ _ _ _)

theorem syncApply (c : Nat) (x : SyncSlot) (s t : State) : KeepsForm t (syncApply c x s t) := by
  unfold Machine.syncApply
  dsimp only
  split
  · exact ite (of_mem (modCore_mem ..)) (refl t)
  · exact of_mem (modCore_mem ..)
  · exact of_mem (modCore_mem ..)
  · exact of_mem (modCore_mem ..)
  · exact trans (of_mem (modCore_mem t c _)) (ite (refl _) (of_mem rfl))
  · exact of_mem rfl
  · exact refl t

theorem bundleEffect (c : Nat) (b : Bundle) (s : State) : KeepsForm s (bundleEffect c b s) := by
  unfold Machine.bundleEffect
  extract_lets k pc t1 t2 t3 t4 t5 t6
  have hslots : KeepsForm s t5 := ((((scalarApply c pc b.scalar s s).trans (passApply c pc b.matrix s t1)).trans
    (moveApply c pc b.move s t2)).trans (vecApply c pc b.vector s t3)).trans (syncApply c b.sync s t4)
  have hnext : KeepsForm s t6 := hslots.trans (of_mem rfl)
  exact hnext.trans (ite (of_mem (haltCore_mem ..)) (ite (of_mem rfl) (refl t6)))

theorem vecFetch (c : Nat) (x : VectorSlot) (s : State) : KeepsForm s (vecFetch c x s) := by
  unfold Machine.vecFetch
  extract_lets k s'
  have hs : KeepsForm s s' := ite (refl s) (foldl _ (fun t (e : Nat × Nat) => fetchRange t (tileAddr c e.1) e.2) _ s)
  refine hs.trans (ite ?_ (refl s'))
  split
  · exact foldl _ (fun t i => readEntry t _ _) _ s'
  · exact refl s'

theorem bundleFetch (c : Nat) (b : Bundle) (s : State) : KeepsForm s (bundleFetch c b s) :=
  (foldl _ (fun t (e : Nat × Nat) => fetchRange t (tileAddr c e.1) e.2) _ s).trans (vecFetch c b.vector _)

theorem meetPartners (s : State) (c : Nat) : KeepsForm s (meetPartners s c) := by
  unfold Machine.meetPartners
  extract_lets pass t t1 t2
  have hpass : ∀ u d, KeepsForm u (pass u d) := fun u d => of_mem (modCore_mem ..)
  have ht : KeepsForm s t := (hpass s c).trans (hpass _ (partner c))
  clear_value t
  have hwindows : KeepsForm t t1 := trans (of_mem (modCore_mem t c _)) (of_mem (modCore_mem ..))
  clear_value t1
  have hdue : KeepsForm t1 t2 := of_mem rfl
  exact ht.trans (ite ((hwindows.trans hdue).trans (foldl _ (fun u d => of_mem (modCore_mem ..)) _ t2)) (refl t))

theorem testwinIssue (c : Nat) (b : Bundle) (s : State) : KeepsForm s (testwinIssue c b s) := by
  unfold Machine.testwinIssue
  extract_lets k here s' q t
  have hs : KeepsForm s s' := of_mem (modCore_mem ..)
  have ht : KeepsForm s' t := of_mem (haltCore_mem ..)
  exact hs.trans (ite (ite (meetPartners s' c) (ht.trans (of_mem (haltCore_mem ..)))) (refl s'))

theorem issueOrHold (c : Nat) (b : Bundle) (s : State) : KeepsForm s (issueOrHold c b s) := by
  unfold Machine.issueOrHold
  refine ite (testwinIssue c b s) ?_
  have hbar : KeepsForm s (if b.sync.op = 3 then barFirst s c (syncGrp b.sync) else s) := ite (of_mem (barFirst_mem ..)) (refl s)
  exact hbar.trans (ite (of_mem rfl) ((bundleFetch c b _).trans (bundleEffect c b _)))

theorem issueBundle (c : Nat) (b : Bundle) (bad : Bool) (s : State) : KeepsForm s (issueBundle c b bad s) := by
  unfold Machine.issueBundle
  refine ite (refl s) ?_
  extract_lets s'
  have hs : KeepsForm s s' := ite (fetchRange s _ _) (refl s)
  refine hs.trans ?_
  split
  · exact of_mem (haltCore_mem ..)
  · exact issueOrHold c b s'

/-! The check of a bundle that issues (R436) -/

theorem poisonOutputs (c lane : Nat) (x : VectorSlot) (s t : State) : KeepsForm t (poisonOutputs c lane x s t) := by
  unfold Machine.poisonOutputs
  extract_lets o t1 t2
  have hregs : KeepsForm t t1 := of_mem (by dsimp only [t1]; split <;> rfl)
  have hentries : KeepsForm t1 t2 := foldl _ (fun u e => setEntry u _ _ _ _) _ t1
  exact (hregs.trans hentries).trans (foldl _ (fun u e => tileWrite u c _ _ _) _ t2)

theorem checkedIssue (c : Nat) (b : Bundle) (fault : UnitFault) (s t : State) : KeepsForm t (checkedIssue c b fault s t) := by
  unfold Machine.checkedIssue
  refine ite (refl t) ?_
  split
  · exact of_mem rfl
  · exact (poisonOutputs c _ b.vector s t).trans (of_mem (classify_mem ..))
  · exact refl t

theorem bundleIssue (c : Nat) (fault : UnitFault) (s : State) : KeepsForm s (bundleIssue c fault s) := by
  unfold Machine.bundleIssue
  refine ite (refl s) (ite (of_mem (haltJob_mem _)) ?_)
  split
  · exact of_mem rfl
  · exact (issueBundle c _ _ s).trans (checkedIssue c _ fault s _)

/-! The vaults and the scrubs (R186, R193, R210) -/

theorem vaultRead (a : Nat) (first second : Disturb) (s : State) : KeepsForm s (vaultRead a first second s) := by
  unfold Machine.vaultRead
  exact ite (refl s) (ite (of_mem rfl) ((readGranule s _ _ _).trans (of_mem rfl)))

theorem vaultWrite (a : Nat) (data : List Byte) (psn bad : Bool) (d : Disturb) (s : State) : KeepsForm s (vaultWrite a data psn bad d s) := by
  unfold Machine.vaultWrite
  refine ite (refl s) ?_
  have hmerge : ∀ l : List Nat, KeepsForm s (if d.cmdFail then commandError s a else l.foldl (fun t g => Machine.readGranule t g d d) s) :=
    fun l => ite (of_mem rfl) (foldl _ (fun t g => readGranule t g d d) l s)
  exact (hmerge _).trans (writeDram_wf _ _ _)

theorem freeSpareRead (v die : Nat) (first second : Disturb) (s : State) : KeepsForm s (freeSpareRead v die first second s) := by
  have hcorrected : ∀ u i k unit code loc, KeepsForm s ((s.draw.modVault u i).noteEvent k unit code loc) :=
    fun _ _ _ _ _ _ => of_mem (noteEvent_mem ..)
  unfold Machine.freeSpareRead
  dsimp only
  refine ite (of_mem rfl) ?_
  split
  · exact ite (of_mem rfl) (hcorrected _ _ _ _ _ _)
  · exact hcorrected _ _ _ _ _ _
  · exact of_mem rfl
  · exact hcorrected _ _ _ _ _ _
  · exact of_mem (detectAt_mem ..)

theorem scrubRead (v : Nat) (first second : Disturb) (s : State) : KeepsForm s (scrubRead v first second s) := by
  unfold Machine.scrubRead
  extract_lets u s1 pos s2 s3
  refine ite (refl s) ?_
  have hbegin : KeepsForm s s1 := ite (refl s) (trans (of_mem (modVault_mem s v _)) (of_mem (modPage_mem ..)))
  clear_value s1
  have hspare : KeepsForm s1 (spareRead v (pos - scrubUser) first second s1) := by
    unfold spareRead
    split
    · exact vaultRead _ _ _ _
    · exact freeSpareRead _ _ _ _ _
  have hread : KeepsForm s1 s2 := ite (vaultRead _ _ _ _) hspare
  clear_value s2
  have hcount : KeepsForm s2 s3 := of_mem (modPage_mem ..)
  clear_value s3
  exact ((hbegin.trans hread).trans hcount).trans
    (ite (of_mem (modVault_mem ..)) (trans (of_mem (modVault_mem s3 v _)) (of_mem (modPage_mem ..))))

theorem sramWordRead (s : State) (w : SramWord) : KeepsForm s (sramWordRead s w) := by
  have hmark : ∀ (t : State) (g : Nat), KeepsForm t (setMark t g) := fun t g => of_mem rfl
  unfold Machine.sramWordRead
  extract_lets r
  have hr : KeepsForm s r.1 := sramRead s _
  clear_value r
  split
  · exact ite (hr.trans (hmark _ _)) hr
  · exact readEntry s _ _
  · exact ite (hr.trans (badSlot _ _ _)) hr
  · exact fetchDirWord s _ _
  · exact hr
  · exact hr

theorem burstFlips (s : State) (k : Nat) (b : SramBurst) : KeepsForm s (burstFlips s k b) := by
  unfold Machine.burstFlips
  exact foldl _ (fun t i => sramFlip_wf t _ _) _ s

theorem sramScrub (w : SramWord) (b : SramBurst) (s : State) : KeepsForm s (sramScrub w b s) := by
  have hflips : KeepsForm s (scrubbed s w b) := (burstFlips s _ b).trans (of_mem (scrubbed_keeps s w b).2.1)
  exact hflips.trans (sramWordRead (scrubbed s w b) w)

end KeepsForm

/-- Settles O57: each of the commands keeps the form, a bundle operation as the issue of its bundle. -/
theorem memoryKeepsItsForm : Obligations.MemoryKeepsItsForm := by
  unfold Obligations.MemoryKeepsItsForm
  intro s t i rest c q a data psn bad d e v w b u hi hs hwf hstep
  have hexec : exec i { s with pending := rest } = .next t := by
    rwa [step, hs] at hstep
  have hkeeps : ∀ t', exec i { s with pending := rest } = .next t' → KeepsForm { s with pending := rest } t' → Memory.wf t.mem = true := by
    intro t' h hk
    obtain rfl : t' = t := Host.Outcome.next.inj (h.symm.trans hexec)
    exact hk hwf
  have hlive : ∀ (t' : State) (p : Prop) [Decidable p], KeepsForm { s with pending := rest } t' →
      KeepsForm { s with pending := rest } (if p then t' else { s with pending := rest }) :=
    fun t' p _ h => KeepsForm.ite h (KeepsForm.refl _)
  obtain hop | rfl | rfl | rfl | rfl | rfl | rfl | rfl | rfl | rfl := hi
  · obtain ⟨⟨c', b'⟩, hb⟩ := Option.ne_none_iff_exists'.1 hop
    exact hkeeps _ (op_issue _ i c' b' hb) (KeepsForm.issueBundle _ _ _ _)
  · exact hkeeps _ rfl (KeepsForm.bundleIssue _ _ _)
  · exact hkeeps _ rfl (hlive _ _ (KeepsForm.transferComplete _ _ _))
  · exact hkeeps _ rfl (hlive _ _ (KeepsForm.gatherRun _ _ _))
  · exact hkeeps _ rfl (hlive _ _ (KeepsForm.openVersion _ _ _))
  · exact hkeeps _ rfl (hlive _ _ (KeepsForm.publishVersion _ _ _))
  · exact hkeeps _ rfl (hlive _ _ (KeepsForm.vaultRead _ _ _ _))
  · exact hkeeps _ rfl (hlive _ _ (KeepsForm.vaultWrite _ _ _ _ _ _))
  · exact hkeeps _ rfl (hlive _ _ (KeepsForm.scrubRead _ _ _ _))
  · exact hkeeps _ rfl (hlive _ _ (KeepsForm.sramScrub _ _ _))

end Sys2Proof.Machine

/-! ## Vector operations that write a register or a mask (O6, O7, O9, O11) -/

namespace Sys2Proof.Machine

/-! ### Integer lanes (R120) -/

/-- The pattern of the signed value of a lane is its low bits. -/
@[simp] theorem unsigned_signed (w a : Nat) : unsigned w (signed w a) = a % 2 ^ w := by
  unfold unsigned signed
  split
  · rw [← Int.natCast_mod, Int.toNat_natCast, Nat.mod_mod]
  · rw [Int.sub_emod_right, ← Int.natCast_mod, Int.toNat_natCast, Nat.mod_mod]

/-- A difference modulo the lane width. -/
theorem unsigned_sub (w a b : Nat) : unsigned w ((a : Int) - b) = (a + 2 ^ w - b % 2 ^ w) % 2 ^ w := by
  have hlt := Nat.mod_lt b (Nat.two_pow_pos w)
  have hcast : ((a + 2 ^ w - b % 2 ^ w : Nat) : Int) = a + (2 ^ w : Nat) - (b % 2 ^ w : Nat) := by omega
  have hmod : ((a + 2 ^ w - b % 2 ^ w : Nat) : Int) % (2 ^ w : Nat) = ((a : Int) - b) % (2 ^ w : Nat) := by
    rw [hcast, Int.natCast_mod, Int.sub_emod_emod, add_sub_right_comm, Int.add_emod_right]
  unfold unsigned
  rw [← hmod, ← Int.natCast_mod, Int.toNat_natCast]

theorem unsigned_min (w a b : Nat) :
    unsigned w (min (signed w a) (signed w b)) = if signed w a ≤ signed w b then a % 2 ^ w else b % 2 ^ w := by
  rw [min_def, apply_ite (unsigned w), unsigned_signed, unsigned_signed]

theorem unsigned_max (w a b : Nat) :
    unsigned w (max (signed w a) (signed w b)) = if signed w b ≤ signed w a then a % 2 ^ w else b % 2 ^ w := by
  rw [max_comm, max_def, apply_ite (unsigned w), unsigned_signed, unsigned_signed]

/-! ### Mask bits -/

/-- The number whose bits below n are given by a function. -/
theorem testBit_sum_bits (bit : Nat → Bool) (n : Nat) :
    (List.range n).foldl (fun acc i => if bit i then acc + 2 ^ i else acc) 0 < 2 ^ n ∧
      ∀ i < n, ((List.range n).foldl (fun acc i => if bit i then acc + 2 ^ i else acc) 0).testBit i = bit i := by
  induction n with
  | zero => simp
  | succ n ih =>
    obtain ⟨hlt, hbits⟩ := ih
    simp only [List.range_succ, List.foldl_append, List.foldl_cons, List.foldl_nil]
    set v := (List.range n).foldl (fun acc i => if bit i then acc + 2 ^ i else acc) 0
    have htop : v.testBit n = false := Nat.testBit_lt_two_pow hlt
    refine ⟨by split <;> omega, fun i hi => ?_⟩
    obtain hi | rfl := Nat.lt_succ_iff_lt_or_eq.1 hi
    · rw [← hbits i hi]
      split
      · rw [Nat.add_comm, Nat.testBit_two_pow_add_gt hi]
      · rfl
    · split
      case isTrue h => rw [Nat.add_comm, Nat.testBit_two_pow_add_eq, htop, h]; rfl
      case isFalse h => rw [htop, Bool.eq_false_iff.2 h]

/-- A bit of the mask that a comparison makes. -/
theorem getLsbD_sum_bits (bit : Nat → Bool) (n : Nat) (h : n < 256) :
    (BitVec.ofNat 256 ((List.range 256).foldl (fun acc i => if bit i then acc + 2 ^ i else acc) 0)).getLsbD n = bit n := by
  rw [BitVec.getLsbD_ofNat, (testBit_sum_bits bit 256).2 n h, decide_eq_true h, Bool.true_and]

@[simp] theorem mreg_setMreg (k : Core) (q r : Nat) (x : BitVec 256) :
    (k.setMreg q x).mreg r = if r = q ∧ r ≠ 0 then x else k.mreg r := by
  unfold Core.setMreg Core.mreg
  split <;> split <;> simp_all [mget_mset]

/-! ### What the product of an operation makes its command do (R119) -/

/-- A vector operation that writes neither entries nor the tile store changes its core alone. -/
theorem register_exec (s : State) (i : Instr) (c : CoreId) (f : VFields) (op : BitVec 6)
    (hb : opBundle i = some (c, vectorBundle (f.slot op))) (hx : op ≠ 0) (o : VecOut) (ho : vecOut s c (s.core c) (f.slot op) = o)
    (haccs : o.accs = []) (hstores : o.stores = []) (h : Issues s i) :
    ∃ t, exec i s = .next t ∧ CoreFrame c s t ∧ VectorKeeps (s.core c) (t.core c) ∧
      t.core c = (keepCore s.cycle (f.slot op) o (s.core c)).retire s.cycle := by
  refine ⟨_, vec_exec s i c _ hb h hx, ?_⟩
  rw [ho]
  obtain ⟨hsregs, htokens, hstep, hphase, hqueues, hdescs, harrays, hpc⟩ := keepCore_keeps s.cycle (f.slot op) o (s.core c)
  have hkeeps : VectorKeeps (s.core c) ((keepCore s.cycle (f.slot op) o (s.core c)).retire s.cycle) :=
    ⟨hsregs, htokens, hstep, hphase, hqueues, hdescs, harrays, congrArg (· + 1) hpc⟩
  have hother : ∀ d : CoreId, d ≠ c → ((s.modCore c (keepCore s.cycle (f.slot op) o)).modCore c (·.retire s.cycle)).core d = s.core d :=
    fun d hd => by
      have hne : (d : Nat) ≠ c := fun h => hd (Fin.ext h)
      rw [core_modCore_ne _ _ _ hne, core_modCore_ne _ _ _ hne]
  have hself : ((s.modCore c (keepCore s.cycle (f.slot op) o)).modCore c (·.retire s.cycle)).core c =
      (keepCore s.cycle (f.slot op) o (s.core c)).retire s.cycle := by
    rw [core_modCore_self, core_modCore_self]
  obtain e | ⟨j, e⟩ := vecKeep_reg c (s.core c).pc (f.slot op) o s haccs hstores <;> rw [e]
  · exact ⟨⟨rfl, rfl, rfl, rfl, rfl, rfl, hother⟩, hself ▸ hkeeps, hself⟩
  · exact ⟨⟨rfl, rfl, rfl, rfl, rfl, rfl, hother⟩, hself ▸ hkeeps, hself⟩

/-- A lane-wise operation writes the lanes of its function. -/
theorem laneWise_writesLanes (s : State) (i : Instr) (c : CoreId) (f : VFields) (op : BitVec 6) (fmt : Nat) (scale : Int) (lat : Nat)
    (g : Nat → Conv × Bool) (new : Nat → Lane) (hb : opBundle i = some (c, vectorBundle (f.slot op))) (hx : op ≠ 0)
    (ho : vecOut s c (s.core c) (f.slot op) = laneWise (s.core c) (f.slot op) fmt scale lat g)
    (hnew : ∀ n < 256, laneOf (g n).1.bits (g n).2 = new n) : WritesLanes s c i f new :=
  writesLanes_of s i c f op new _ hb hx _ ho rfl rfl rfl rfl fun n hn => by
    rw [← hnew n hn, List.map_map]
    exact laneAt_lanes256 (fun n => laneOf (g n).1.bits (g n).2) n hn

/-- A comparison writes the mask bits of its function. -/
theorem compareWise_writesMask (s : State) (i : Instr) (c : CoreId) (f : VFields) (op : BitVec 6) (lat : Nat) (g : Nat → Bool × Bool)
    (hb : opBundle i = some (c, vectorBundle (f.slot op))) (hx : op ≠ 0)
    (ho : vecOut s c (s.core c) (f.slot op) = compareWise (s.core c) (f.slot op) lat g) :
    WritesMask s c i f fun n => (g n).1 := by
  intro h
  obtain ⟨t, hexec, hframe, hkeeps, hcore⟩ := register_exec s i c f op hb hx _ ho rfl rfl h
  have hmasks := keepCore_masks s.cycle (f.slot op) (compareWise (s.core c) (f.slot op) lat g) (s.core c)
  have hmreg : ∀ r, (t.core c).mreg r = ((s.core c).setMreg (f.a.toNat % 8) _).mreg r := fun r => by
    rw [hcore]
    exact congrArg (fun m => if r = 0 then BitVec.allOnes 256 else mget 0 m r) hmasks
  refine ⟨t, hexec, hframe, hkeeps, ?_, fun ha n hn => ?_, fun r hr => ?_⟩
  · rw [hcore]
    exact keepCore_vregs s.cycle (f.slot op) (compareWise (s.core c) (f.slot op) lat g) (s.core c)
  · rw [hmreg, mreg_setMreg, if_pos ⟨rfl, ha⟩]
    exact getLsbD_sum_bits _ n hn
  · rw [hmreg, mreg_setMreg, if_neg fun h => hr.elim (fun h' => h' h.1) h.2]

/-! ### The groups -/

/-- Settles O6: each operation is a function of the lanes, or of the bits of a mask. -/
theorem vectorInteger : Obligations.VectorInteger := by
  unfold Obligations.VectorInteger
  intro s c f k w a b x y two one d
  have lanes := fun (i : Instr) (op : BitVec 6) (g : Nat → Conv × Bool) (new : Nat → Lane) =>
    laneWise_writesLanes s i c f op f.fmt.toNat 0 2 g new
  refine ⟨lanes _ 0x01 _ _ rfl (by decide) rfl fun n _ => rfl, lanes _ 0x02 _ _ rfl (by decide) rfl fun n _ => ?sub,
    lanes _ 0x04 _ _ rfl (by decide) rfl fun n _ => ?min, lanes _ 0x05 _ _ rfl (by decide) rfl fun n _ => ?max,
    lanes _ 0x06 _ _ rfl (by decide) rfl fun n _ => ?and, lanes _ 0x07 _ _ rfl (by decide) rfl fun n _ => ?or,
    lanes _ 0x08 _ _ rfl (by decide) rfl fun n _ => ?xor, lanes _ 0x09 _ _ rfl (by decide) rfl fun n _ => rfl,
    lanes _ 0x0A _ _ rfl (by decide) rfl fun n _ => rfl, lanes _ 0x0B _ _ rfl (by decide) rfl fun n _ => rfl,
    compareWise_writesMask s _ c f 0x03 2 _ rfl (by decide) rfl⟩
  case sub => exact congrArg (fun v => (⟨BitVec.ofNat 64 v, _⟩ : Lane)) (unsigned_sub w (x n) (y n)).symm
  case min => exact congrArg (fun v => (⟨BitVec.ofNat 64 v, _⟩ : Lane)) (unsigned_min w (x n) (y n)).symm
  case max => exact congrArg (fun v => (⟨BitVec.ofNat 64 v, _⟩ : Lane)) (unsigned_max w (x n) (y n)).symm
  case and => exact congrArg (fun v => (⟨BitVec.ofNat 64 v, _⟩ : Lane)) Nat.and_mod_two_pow.symm
  case or => exact congrArg (fun v => (⟨BitVec.ofNat 64 v, _⟩ : Lane)) Nat.or_mod_two_pow.symm
  case xor => exact congrArg (fun v => (⟨BitVec.ofNat 64 v, _⟩ : Lane)) Nat.xor_mod_two_pow.symm

/-- An operation of the floating group but FCMP rounds its number once. -/
theorem vecFloat_writesLanes (s : State) (i : Instr) (c : CoreId) (f : VFields) (op : BitVec 6) (v : Nat → XNum) (p : Nat → Bool)
    (hb : opBundle i = some (c, vectorBundle (f.slot op))) (hx : op ≠ 0) (hfcmp : op.toNat ≠ 0x16)
    (ho : vecOut s c (s.core c) (f.slot op) = vecFloat (s.core c) (f.slot op))
    (hv : ∀ n, floatOp op.toNat (laneNum f.fmt.toNat (laneAt ((s.core c).vreg f.b) n)) (laneNum f.fmt.toNat (laneAt ((s.core c).vreg f.c) n))
      (laneNum f.fmt.toNat (laneAt ((s.core c).vreg f.d) n)) = v n)
    (hp : ∀ n, ((laneAt ((s.core c).vreg f.b) n).psn || (!(op.toNat == 0x17 || op.toNat == 0x18) && (laneAt ((s.core c).vreg f.c) n).psn) ||
      (op.toNat == 0x13 && (laneAt ((s.core c).vreg f.d) n).psn)) = p n) :
    WritesLanes s c i f fun n => ⟨BitVec.ofNat 64 (encodeElem f.fmt.toNat 0 (rndOf f.rnd.toNat) 0 (v n)).bits, p n⟩ := by
  refine laneWise_writesLanes s i c f op _ 0 _ _ _ hb hx (ho.trans (if_neg hfcmp)) fun n _ => ?_
  rw [← hv n, ← hp n]
  rfl

/-- CVT's scale is the signed part of its immediate above the format (R153). -/
theorem cvtScale_eq (imm : BitVec 21) : cvtScale imm.toNat = signed 16 (imm.toNat / 2 ^ 5) := by
  have hlt : imm.toNat / 2 ^ 5 < 2 ^ 16 := by omega
  unfold cvtScale nbits
  rw [Nat.mod_eq_of_lt hlt]

/-- Settles O7: each operation is a function of the lanes, or of the bits of a mask. -/
theorem vectorFloat : Obligations.VectorFloat := by
  unfold Obligations.VectorFloat
  refine ⟨?_, ?_⟩
  · intro s c f k fmt la lb ld a b round two one
    have lanes := fun (i : Instr) (op : BitVec 6) (v : Nat → XNum) (p : Nat → Bool) => vecFloat_writesLanes s i c f op v p
    have htwo : ∀ n, ((la n).psn || (true && (lb n).psn) || (false && (ld n).psn)) = ((la n).psn || (lb n).psn) := fun n => by simp
    have hone : ∀ n, ((la n).psn || (false && (lb n).psn) || (false && (ld n).psn)) = (la n).psn := fun n => by simp
    have hthree : ∀ n, ((la n).psn || (true && (lb n).psn) || (true && (ld n).psn)) = ((la n).psn || (lb n).psn || (ld n).psn) :=
      fun n => by simp
    have hcmp := compareWise_writesMask s (.fcmp c f) c f 0x16 _ _ rfl (by decide) rfl
    exact ⟨lanes _ 0x10 _ _ rfl (by decide) (by decide) rfl (fun _ => rfl) htwo,
      lanes _ 0x11 _ _ rfl (by decide) (by decide) rfl (fun _ => rfl) htwo,
      lanes _ 0x12 _ _ rfl (by decide) (by decide) rfl (fun _ => rfl) htwo,
      lanes _ 0x13 _ _ rfl (by decide) (by decide) rfl (fun _ => rfl) hthree,
      lanes _ 0x14 _ _ rfl (by decide) (by decide) rfl (fun _ => rfl) htwo,
      lanes _ 0x15 _ _ rfl (by decide) (by decide) rfl (fun _ => rfl) htwo,
      lanes _ 0x17 _ _ rfl (by decide) (by decide) rfl (fun _ => rfl) hone,
      lanes _ 0x18 _ _ rfl (by decide) (by decide) rfl (fun _ => rfl) hone, hcmp⟩
  · intro s c f k la a fp32 x
    have function := fun (i : Instr) (op : BitVec 6) (new : Nat → Lane) => laneWise_writesLanes s i c f op 0 0 12 
      (fun n => (encodeElem 0 0 .rne 0 (functionOp op.toNat (a n)), (la n).psn)) new
    refine ⟨function _ 0x1C _ rfl (by decide) rfl fun _ _ => rfl, function _ 0x1D _ rfl (by decide) rfl fun _ _ => rfl,
      function _ 0x1E _ rfl (by decide) rfl fun _ _ => rfl, function _ 0x1F _ rfl (by decide) rfl fun _ _ => rfl,
      function _ 0x20 _ rfl (by decide) rfl fun _ _ => rfl, laneWise_writesLanes s _ c f 0x24 _ _ 3 _ _ rfl (by decide) rfl fun n _ => ?_⟩
    rw [show (f.slot 0x24).imm = f.imm from rfl, cvtScale_eq]
    rfl

/-- A lane of the low 64 bits of a lane is that lane. -/
theorem laneOf_val (l : Lane) : laneOf l.val.toNat l.psn = l := by
  unfold laneOf
  rw [BitVec.ofNat_toNat, BitVec.setWidth_eq]

/-- Settles O9: a lane is a function of the bytes, or of the entry, that it comes from. -/
theorem vectorLoads : Obligations.VectorLoads := by
  unfold Obligations.VectorLoads
  intro s c f k fmt imm sb eb w a sig ex lane
  refine ⟨laneWise_writesLanes s _ c f 0x28 _ _ 8 _ _ rfl (by decide) rfl fun _ _ => rfl,
    laneWise_writesLanes s _ c f 0x2E _ _ 6 _ _ rfl (by decide) rfl fun _ _ => rfl, fun ph hph => ?_⟩
  have hard : vecOut s c k (f.slot 0x38) = laneWise k (f.slot 0x38) 7 0 6 fun i =>
      (⟨(entryLane (s.entry ph (fld (k.sreg f.c) 0 16 + i))).val.toNat, 0, 0⟩, (entryLane (s.entry ph (fld (k.sreg f.c) 0 16 + i))).psn) := by
    show vecArd s c k (f.slot 0x38) = _
    unfold vecArd
    dsimp only
    rw [show s.physArray c (accTarget k (f.slot 0x38)).1 = some ph from hph]
    rfl
  exact laneWise_writesLanes s _ c f 0x38 7 0 6 _ _ rfl (by decide) hard fun n _ => laneOf_val _

/-! ### What an issue at once excludes (R173, R174) -/

theorem lowestCause_eq_none {l : List (Nat × Nat × Nat)} : lowestCause l = none ↔ l = [] := by
  cases l with
  | nil => exact ⟨fun _ => rfl, fun _ => rfl⟩
  | cons x xs =>
    refine ⟨fun h => ?_, fun h => nomatch h⟩
    unfold lowestCause at h
    split at h
    · cases h
    · split at h <;> cases h

/-- A bundle that issues at once has no cause. -/
theorem IssuesNow.noCauses {s : State} {c : Nat} {b : Bundle} (h : IssuesNow s c b) : bundleCauses s c b false = [] := by
  obtain ⟨-, hcauses, -, -, -⟩ := h
  exact lowestCause_eq_none.1 hcauses

/-- A bundle that issues at once has no reserved encoding. -/
theorem IssuesNow.notReserved {s : State} {c : Nat} {b : Bundle} (h : IssuesNow s c b) : reservedEncoding b = none := by
  have hstatic := (List.append_eq_nil_iff.1 h.noCauses).1
  cases hr : reservedEncoding b with
  | none => rfl
  | some x => simp [staticCauses, hr] at hstatic

/-- Where no encoding is reserved, no slot has an offending field. -/
theorem slot_clean_of_notReserved {b : Bundle} (h : reservedEncoding b = none) {x : Nat × List Nat} (hx : x ∈ slotFindings b) :
    x.2 = [] := by
  unfold reservedEncoding at h
  split at h
  · cases h
  · rename_i hnone
    simpa using List.find?_eq_none.1 hnone x hx

theorem offends_eq_nil {p : Bool} {n : Nat} : offends p n = [] ↔ p = false := by
  cases p <;> simp [offends]

/-- A reduction that issues at once is over groups of 2 to 256 lanes (R124, R153). -/
theorem reduction_group_bounds {f : VFields} {op : BitVec 6} (hop : op = 0x30 ∨ op = 0x31 ∨ op = 0x32 ∨ op = 0x33)
    (h : vectorBad (f.slot op) = []) : 1 ≤ f.imm.toNat % 16 ∧ f.imm.toNat % 16 ≤ 8 := by
  have hm : (f.imm.toNat % 16 == 0 || decide (8 < f.imm.toNat % 16)) = false := by
    obtain rfl | rfl | rfl | rfl := hop <;> exact offends_eq_nil.1 (List.append_eq_nil_iff.1 h).2
  simp at hm
  omega

/-! ### Reductions (R124) -/

/-- The lanes of a reduction with result `v j` in group j. -/
def groupLanes (k : Core) (x : VectorSlot) (v : Nat → XNum) : List Lane :=
  let g := 2 ^ (x.imm.toNat % 16)
  let groups := (List.range (256 / g)).map fun j => laneOf (toZ56 (v j))
    ((List.range g).any fun i => (k.mreg x.mask.toNat).getLsbD (g * j + i) && (laneAt (k.vreg x.b) (g * j + i)).psn)
  lanes256 fun i => if i % g = 0 then nth groups (i / g) {} else {}

theorem nth_map_range {α : Type} (f : Nat → α) (d : α) {i n : Nat} (h : i < n) : nth ((List.range n).map f) i d = f i := by
  simp [nth, h]

/-- A result stands in the first lane of its group, with the poison of the group's selected lanes. -/
theorem laneAt_groupLanes (k : Core) (x : VectorSlot) (v : Nat → XNum) (hm : x.imm.toNat % 16 ≤ 8) (n : Nat) (hn : n < 256) :
    let g := 2 ^ (x.imm.toNat % 16)
    laneAt (groupLanes k x v) n = if n % g = 0 then
      ⟨BitVec.ofNat 64 (toZ56 (v (n / g))), ((List.range g).map (g * (n / g) + ·)).any fun i =>
        (k.mreg x.mask.toNat).getLsbD i && (laneAt (k.vreg x.b) i).psn⟩
    else {} := by
  intro g
  have hdvd : g ∣ 256 := Nat.pow_dvd_pow 2 hm
  have hj : n / g < 256 / g := Nat.div_lt_div_of_lt_of_dvd hdvd hn
  unfold groupLanes
  rw [laneAt_lanes256 _ n hn]
  split
  · rw [nth_map_range _ _ hj, List.any_map]
    rfl
  · rfl

/-- The product of a reduction: the lanes of its groups in its destination (R124). -/
def groupOut (k : Core) (x : VectorSlot) (v : Nat → XNum) (tagged : List (Nat × XNum × Bool)) : VecOut :=
  { vdst := some (x.a, groupLanes k x v), tagged := tagged, latency := 3 + x.imm.toNat % 16 }

/-- A reduction whose value in group j is `v j` writes the lanes of the groups. -/
theorem reduction_exec (s : State) (i : Instr) (c : CoreId) (f : VFields) (op : BitVec 6) (v : Nat → XNum)
    (tagged : List (Nat × XNum × Bool)) (hb : opBundle i = some (c, vectorBundle (f.slot op)))
    (hop : op = 0x30 ∨ op = 0x31 ∨ op = 0x32 ∨ op = 0x33)
    (ho : vecOut s c (s.core c) (f.slot op) = groupOut (s.core c) (f.slot op) v tagged)
    (h : Issues s i) :
    ∃ t, exec i s = .next t ∧ CoreFrame c s t ∧ VectorKeeps (s.core c) (t.core c) ∧ (t.core c).masks = (s.core c).masks ∧
      (∀ n < 256, laneAt ((t.core c).vreg f.a) n = if n % 2 ^ (f.imm.toNat % 16) = 0 then
        ⟨BitVec.ofNat 64 (toZ56 (v (n / 2 ^ (f.imm.toNat % 16)))),
          ((List.range (2 ^ (f.imm.toNat % 16))).map (2 ^ (f.imm.toNat % 16) * (n / 2 ^ (f.imm.toNat % 16)) + ·)).any fun i =>
            ((s.core c).mreg f.mask.toNat).getLsbD i && (laneAt ((s.core c).vreg f.b) i).psn⟩
        else {}) ∧
      ∀ r, r ≠ f.a → (t.core c).vreg r = (s.core c).vreg r := by
  have hx : op ≠ 0 := by obtain rfl | rfl | rfl | rfl := hop <;> decide
  have hissues : IssuesNow s c (vectorBundle (f.slot op)) := by rwa [Issues, hb] at h
  have hclean : vectorBad (f.slot op) = [] :=
    slot_clean_of_notReserved hissues.notReserved (x := (4, vectorBad (f.slot op))) (by simp [slotFindings, vectorBundle])
  obtain ⟨-, hm⟩ := reduction_group_bounds hop hclean
  obtain ⟨t, hexec, hframe, hkeeps, hcore⟩ := register_exec s i c f op hb hx _ ho rfl rfl h
  have hvreg : ∀ r, (t.core c).vreg r = if r = f.a then groupLanes (s.core c) (f.slot op) v else (s.core c).vreg r := fun r => by
    rw [← vreg_setVreg, hcore]
    exact congrArg (fun m => mget zeroLanes m r.toNat)
      (keepCore_vregs s.cycle (f.slot op) (groupOut (s.core c) (f.slot op) v tagged) (s.core c))
  refine ⟨t, hexec, hframe, hkeeps, ?_, fun n hn => ?_, fun r hr => ?_⟩
  · rw [hcore]
    exact keepCore_masks s.cycle (f.slot op) (groupOut (s.core c) (f.slot op) v tagged) (s.core c)
  · rw [hvreg, if_pos rfl]
    exact laneAt_groupLanes (s.core c) (f.slot op) v hm n hn
  · rw [hvreg, if_neg hr]

/-- Settles O11: the four operations differ in the value of a group alone. -/
theorem vectorReductions : Obligations.VectorReductions := by
  unfold Obligations.VectorReductions
  intro s c f k m mask la num group fold pickOf gives
  exact ⟨reduction_exec s _ c f 0x30 (fold num) _ rfl (by decide) rfl,
    reduction_exec s _ c f 0x31 (fold fun n => rZ56 ((num n).mul (num n))) _ rfl (by decide) rfl,
    reduction_exec s _ c f 0x32 (pickOf XNum.max) _ rfl (by decide) rfl,
    reduction_exec s _ c f 0x33 (pickOf XNum.min) _ rfl (by decide) rfl⟩

end Sys2Proof.Machine

/-! ## Scalar operations (O3) -/

namespace Sys2Proof.Machine

/-! ### What a scalar operation does as it issues (R145, R146, R148) -/

/-- An operation other than TESTWIN, TRAP and END. -/
def runsOnward (op : BitVec 5) : Bool := op != 0x17 && op != 0x18 && op != 0x19

/-- A scalar operation without branch that leaves its core changed by `f` goes with that to the next bundle. -/
theorem scalar_core_exec (s : State) (i : Instr) (c : CoreId) (x : ScalarSlot) (f g : Core → Core)
    (hb : opBundle i = some (c, scalarBundle x)) (hop : runsOnward x.op = true)
    (hnext : branchTarget (s.core c) x = none) (happly : scalarApply c (s.core c).pc x s s = s.modCore c f)
    (hfg : (f (s.core c)).retire s.cycle = g (s.core c)) (h : Issues s i) : exec i s = .next (s.modCore c g) := by
  unfold runsOnward at hop
  simp only [Bool.and_eq_true, bne_iff_ne] at hop
  obtain ⟨⟨htestwin, htrap⟩, hend⟩ := hop
  rw [scalar_exec s i c x hb h htestwin htrap hend, hnext, happly, advance_none, modCore_modCore]
  exact congrArg Host.Outcome.next (modCore_congr _ _ _ _ hfg)

/-- A scalar operation that writes SD alone (R146). -/
theorem scalar_write_exec (s : State) (i : Instr) (c : CoreId) (x : ScalarSlot) (v : Core → Word)
    (hb : opBundle i = some (c, scalarBundle x)) (hop : runsOnward x.op = true)
    (hnext : branchTarget (s.core c) x = none)
    (happly : scalarApply c (s.core c).pc x s s = s.modCore c fun k => k.setSreg x.sd (v (s.core c))) (h : Issues s i) :
    exec i s = .next (s.modCore c fun k => (k.setSreg x.sd (v k)).retire s.cycle) :=
  scalar_core_exec s i c x _ _ hb hop hnext happly rfl h

/-- A scalar operation on two registers (R146). -/
theorem twoOperand_exec (s : State) (i : Instr) (c : CoreId) (op sd sa sb : BitVec 5) (g : Word → Word → Word)
    (hb : opBundle i = some (c, scalarBundle ⟨op, sd, sa, sb ++ (0 : BitVec 20)⟩)) (hop : runsOnward op = true)
    (hnext : branchTarget (s.core c) ⟨op, sd, sa, sb ++ (0 : BitVec 20)⟩ = none)
    (happly : scalarApply c (s.core c).pc ⟨op, sd, sa, sb ++ (0 : BitVec 20)⟩ s s =
      s.modCore c fun k => k.setSreg sd (g ((s.core c).sreg sa) ((s.core c).sreg ((sb ++ 0#20).extractLsb' 20 5)))) (h : Issues s i) :
    exec i s = .next (s.modCore c fun k => (k.setSreg sd (g (k.sreg sa) (k.sreg sb))).retire s.cycle) := by
  rw [sb_append] at happly
  exact scalar_write_exec s i c _ (fun k => g (k.sreg sa) (k.sreg sb)) hb hop hnext happly h

/-- A scalar operation that changes nothing goes to the next bundle. -/
theorem scalar_nop_exec (s : State) (c : CoreId) (h : Issues s (.nop c)) : exec (.nop c) s = .next (s.modCore c (·.retire s.cycle)) :=
  scalar_exec s (.nop c) c nopScalar rfl h (by decide) (by decide) (by decide)

/-- END leaves its core idle at the next bundle (R148). -/
theorem endProgram_exec (s : State) (c : CoreId) (h : Issues s (.endProgram c)) :
    exec (.endProgram c) s = .next (s.modCore c fun k => { k.retire s.cycle with st := .idle }) := by
  have heffect : bundleEffect c (scalarBundle ⟨0x19, 0, 0, 0⟩) s =
      (s.modCore c (·.retire s.cycle)).modCore c fun k => if k.st = .running then { k with st := .idle } else k := rfl
  rw [op_issue s _ c _ rfl, issues_effect s c _ h (by decide) (by decide) (by decide), heffect, modCore_modCore]
  exact congrArg Host.Outcome.next (modCore_congr _ _ _ _ rfl)

/-- A shift that issues has a distance below 64 (R146). -/
theorem shift_distance {s : State} {c : Nat} {op sd sa : BitVec 5} {imm : BitVec 25} (hop : op = 0x07 ∨ op = 0x08)
    (h : IssuesNow s c (scalarBundle ⟨op, sd, sa, imm⟩)) : imm.toNat % 64 = imm.toNat := by
  have hclean : scalarBad ⟨op, sd, sa, imm⟩ = [] := slot_clean_of_notReserved h.notReserved (x := (2, scalarBad ⟨op, sd, sa, imm⟩))
    (by simp [slotFindings, scalarBundle])
  have himm : (imm.toNat / 2 ^ 6 != 0) = false := by
    obtain rfl | rfl := hop <;> exact offends_eq_nil.1 (List.append_eq_nil_iff.1 hclean).2
  simp at himm
  omega

/-! ### When a scalar operation issues at once (R135, R146, R148) -/

/-- A scalar operation that neither accesses the tile store nor branches, waits or stops its core. -/
def isPlain (op : BitVec 5) : Bool := !([0x0C, 0x0D, 0x10, 0x11, 0x12, 0x13, 0x17, 0x19].contains op)

theorem isPlain_iff (op : BitVec 5) : isPlain op = true ↔
    op ≠ 0x0C#5 ∧ op ≠ 0x0D#5 ∧ op ≠ 0x10#5 ∧ op ≠ 0x11#5 ∧ op ≠ 0x12#5 ∧ op ≠ 0x13#5 ∧ op ≠ 0x17#5 ∧ op ≠ 0x19#5 := by
  simp [isPlain]

/-- The encoding of a bundle of one scalar operation is reserved only if its slot is. -/
theorem scalar_notReserved {x : ScalarSlot} (h : scalarBad x = []) : reservedEncoding (scalarBundle x) = none := by
  have hfind : (slotFindings (scalarBundle x)).find? (fun f => !f.2.isEmpty) = none := by
    show List.find? _ [(1, []), (2, scalarBad x), (3, matrixBad nopMatrix), (4, vectorBad nopVector), (5, moveBad nopMove), (6, syncBad nopSync)] = none
    rw [h]
    decide
  have halone : testwinShared (scalarBundle x) = false := Bool.and_false _
  unfold reservedEncoding
  rw [hfind, halone]
  rfl

/-- A bundle of one plain scalar operation has no cause of an exception. -/
theorem plain_noCauses (s : State) (c : Nat) (x : ScalarSlot) (hplain : isPlain x.op = true) (h : scalarBad x = []) :
    bundleCauses s c (scalarBundle x) false = [] := by
  obtain ⟨hsld, hsst, hjmp, hbz, hbnz, hloop, -, -⟩ := (isPlain_iff _).1 hplain
  have hbranch : isBranch x = false := by simp [isBranch, hjmp, hbz, hbnz, hloop]
  have hdests : (scalarDests (scalarBundle x)).Nodup := by
    refine List.Nodup.filter _ ?_
    rw [if_neg (show (scalarBundle x).sync.op ≠ 5 from (by decide : nopSync.op ≠ 5)), List.append_nil]
    split <;> simp
  have hstatic : staticCauses (s.core c) (imageLen s c) (scalarBundle x) false = [] := by
    have hv : (scalarBundle x).hdr.v = false := rfl
    have hmark : vmarkBad (scalarBundle x) = false := rfl
    have hslot : (scalarBundle x).scalar = x := rfl
    simp [staticCauses, scalar_notReserved h, hv, hmark, hslot, hbranch, hdests]
  have hdynamic : dynamicCauses s c (s.core c) (scalarBundle x) = [] := by
    have hwrites : writesConflict s c (s.core c) (scalarBundle x) = false := by
      unfold writesConflict tileWrites
      rw [if_neg (show (scalarBundle x).scalar.op ≠ 0x0D from hsst)]
      rfl
    have hslot : (scalarBundle x).scalar = x := rfl
    have hvector : vecFault s c (s.core c) (scalarBundle x).vector = false := rfl
    have hmove : moveFault s c (s.core c) (scalarBundle x).move = none := rfl
    have hmatrix : (scalarBundle x).matrix.op ≠ 1#4 := (by decide : nopMatrix.op ≠ 1)
    have hbrk : (scalarBundle x).hdr.brk = false := rfl
    simp [dynamicCauses, hwrites, hslot, hsld, hsst, hvector, hmove, hmatrix, hbrk]
  unfold bundleCauses
  dsimp only
  rw [hstatic, hdynamic, ite_self]
  rfl

/-- Nothing holds a bundle of one plain scalar operation whose operands have arrived and that no branch delays. -/
theorem plain_noHolds (s : State) (c : Nat) (x : ScalarSlot) (hplain : isPlain x.op = true) (hearliest : (s.core c).earliest ≤ s.cycle)
    (hreads : ∀ r ∈ scalarReads (scalarBundle x), mget 0 (s.core c).sReady r.toNat ≤ s.cycle) :
    orderWaits c (s.core c) (scalarBundle x) = false ∧ (bundleHolds s c (s.core c) (scalarBundle x)).any = false := by
  obtain ⟨hsld, hsst, -, -, -, -, htestwin, hend⟩ := (isPlain_iff _).1 hplain
  constructor
  · have hwrites : (tileWrites (s.core c) (scalarBundle x)).flatten = [] := by
      unfold tileWrites
      rw [if_neg (show (scalarBundle x).scalar.op ≠ 0x0D from hsst)]
      rfl
    have hreads : tileReads (s.core c) (scalarBundle x) = [] := by
      unfold tileReads
      rw [if_neg (show (scalarBundle x).scalar.op ≠ 0x0C from hsld)]
      rfl
    unfold orderWaits
    dsimp only
    rw [hwrites, hreads]
    rfl
  · have hready : scalarsNotReady (s.core c) s.cycle (scalarBundle x) = false := by
      unfold scalarsNotReady
      rw [List.any_eq_false]
      intro r hr
      have := hreads r hr
      simp only [decide_eq_true_eq]
      omega
    have hwaits : endWaits s c (scalarBundle x) = false := by
      have hslot : (scalarBundle x).scalar = x := rfl
      simp [endWaits, hslot, htestwin, hend]
    have hfetch : decide (s.cycle < (s.core c).earliest) = false := decide_eq_false (by omega)
    have hvectors : vectorsNotReady (s.core c) s.cycle (scalarBundle x).vector = false := rfl
    have hholds : bundleHolds s c (s.core c) (scalarBundle x) = ⟨false, false, false, false, false, false⟩ := by
      unfold bundleHolds
      rw [hfetch, hready, hwaits, hvectors]
      rfl
    rw [hholds]
    rfl

/-- A plain scalar operation without an offending field issues at once where its core looks at it, its operands have arrived and no branch
delays it. -/
theorem plain_issuesNow (s : State) (c : CoreId) (x : ScalarSlot) (rs : List (BitVec 5)) (hready : Ready s c rs) (hplain : isPlain x.op = true)
    (hreads : ∀ r ∈ scalarReads (scalarBundle x), r ∈ rs) (h : scalarBad x = []) : IssuesNow s c (scalarBundle x) := by
  obtain ⟨hlook, hearliest, harrived⟩ := hready
  obtain ⟨horder, hholds⟩ := plain_noHolds s c x hplain hearliest fun r hr => harrived r (hreads r hr)
  refine ⟨hlook, lowestCause_eq_none.2 (plain_noCauses s c x hplain h), horder, hholds, ?_⟩
  unfold bundleFetch
  dsimp only
  rw [if_neg (show (scalarBundle x).scalar.op ≠ 0x0C from ((isPlain_iff _).1 hplain).1)]
  rfl

/-! ### The fields that the operations use (R146) -/

/-- The operations on two registers use SD, SA and SB. -/
theorem twoOperand_clean (op sd sa sb : BitVec 5) (hop : scalarUse op.toNat = some ⟨true, true, 20, 25⟩) :
    scalarBad ⟨op, sd, sa, sb ++ (0 : BitVec 20)⟩ = [] := by
  have hlow : (sb ++ (0 : BitVec 20)).toNat % 2 ^ 20 = 0 := by
    rw [BitVec.toNat_append, show (0 : BitVec 20).toNat = 0 from rfl, Nat.or_zero, Nat.shiftLeft_eq, Nat.mul_mod_left]
  have hhigh : (sb ++ (0 : BitVec 20)).toNat / 2 ^ 25 = 0 := Nat.div_eq_of_lt (sb ++ (0 : BitVec 20)).isLt
  simp only [scalarBad, hop, hlow, hhigh]
  rfl

/-- An operation that may use its registers uses the low bits of its immediate alone. -/
theorem immediate_clean (op sd sa : BitVec 5) (imm : BitVec 25) (n : Nat) (usesSa : Bool)
    (hop : scalarUse op.toNat = some ⟨true, usesSa, 0, n⟩) (hsa : usesSa = true ∨ sa = 0) (himm : imm.toNat < 2 ^ n) :
    scalarBad ⟨op, sd, sa, imm⟩ = [] := by
  have hhigh : imm.toNat / 2 ^ n = 0 := Nat.div_eq_of_lt himm
  obtain rfl | rfl := hsa <;> simp [scalarBad, hop, hhigh, offends, Nat.mod_one]

/-- Settles O3: what each operation makes of its core, and that nothing holds it once its operands are there. -/
theorem scalarOperations : Obligations.ScalarOperations := by
  unfold Obligations.ScalarOperations
  refine ⟨⟨?_, ?_⟩, ?_⟩
  · intro s c sd sa sb imm gives
    have two := fun (i : Instr) (op : BitVec 5) (g : Word → Word → Word) => twoOperand_exec s i c op sd sa sb g
    have one := fun (i : Instr) (op sa : BitVec 5) (v : Core → Word) => scalar_write_exec s i c ⟨op, sd, sa, imm⟩ v
    refine ⟨one _ 0x01 sa _ rfl rfl rfl rfl,
      two _ 0x02 (· + ·) rfl rfl rfl rfl,
      two _ 0x03 (· - ·) rfl rfl rfl rfl,
      two _ 0x04 (· &&& ·) rfl rfl rfl rfl,
      two _ 0x05 (· ||| ·) rfl rfl rfl rfl,
      two _ 0x06 (· ^^^ ·) rfl rfl rfl rfl, fun h => ?shli, fun h => ?shri,
      one _ 0x09 0 _ rfl rfl rfl rfl,
      one _ 0x0A sa _ rfl rfl rfl rfl,
      two _ 0x0B (· * ·) rfl rfl rfl rfl, ?cmplt,
      two _ 0x0F (fun a b => if a = b then 1 else 0) rfl rfl rfl rfl⟩
    case shli =>
      have hshift := one _ 0x07 sa (fun k => k.sreg sa <<< (imm.toNat % 64)) rfl rfl rfl rfl h
      rwa [shift_distance (Or.inl rfl) h] at hshift
    case shri =>
      have hshift := one _ 0x08 sa (fun k => k.sreg sa >>> (imm.toNat % 64)) rfl rfl rfl rfl h
      rwa [shift_distance (Or.inr rfl) h] at hshift
    case cmplt =>
      have hless := two (.cmplt c sd sa sb) 0x0E (fun a b => if a.slt b then 1 else 0) rfl rfl rfl rfl
      simp only [BitVec.slt_iff_toInt_lt] at hless
      exact hless
  · intro s c sa imm gives
    have core := fun (i : Instr) (x : ScalarSlot) (f g : Core → Core) => scalar_core_exec s i c x f g
    exact ⟨core _ ⟨0x14, 0, sa, 0⟩ (fun k => { k with step := ((s.core c).sreg sa).truncate 32 }) _ rfl rfl rfl
        rfl rfl,
      core _ ⟨0x15, 0, 0, 0⟩ (fun k => { k with step := k.step + 1 }) _ rfl rfl rfl rfl rfl,
      core _ ⟨0x16, 0, 0, imm⟩ (fun k => { k with phase := imm.truncate 8 }) _ rfl rfl rfl rfl rfl,
      scalar_nop_exec s c, endProgram_exec s c⟩
  · intro s c sd sa sb imm h
    have issues := fun (x : ScalarSlot) => plain_issuesNow s c x [sa, sb] h
    have two := fun (op : BitVec 5) hplain hreads hop => issues ⟨op, sd, sa, sb ++ 0⟩ hplain hreads (twoOperand_clean op sd sa sb hop)
    have hboth : ∀ r ∈ [sa, (sb ++ 0#20).extractLsb' 20 5], r ∈ [sa, sb] := by simp
    have hfirst : ∀ r ∈ [sa], r ∈ [sa, sb] := by simp
    exact ⟨two 0x02 rfl hboth rfl, two 0x03 rfl hboth rfl, two 0x04 rfl hboth rfl,
      two 0x05 rfl hboth rfl, two 0x06 rfl hboth rfl, two 0x0B rfl hboth rfl,
      two 0x0E rfl hboth rfl, two 0x0F rfl hboth rfl,
      issues ⟨0x01, sd, sa, imm⟩ rfl hfirst (immediate_clean _ _ _ _ 25 true rfl (Or.inl rfl) imm.isLt),
      issues ⟨0x0A, sd, sa, imm⟩ rfl hfirst (immediate_clean _ _ _ _ 25 true rfl (Or.inl rfl) imm.isLt),
      issues ⟨0x09, sd, 0, imm⟩ rfl (fun _ h => nomatch h) (immediate_clean _ _ _ _ 25 false rfl (Or.inr rfl) imm.isLt),
      fun hshift =>
        ⟨issues ⟨0x07, sd, sa, imm⟩ rfl hfirst (immediate_clean _ _ _ _ 6 true rfl (Or.inl rfl) hshift),
          issues ⟨0x08, sd, sa, imm⟩ rfl hfirst (immediate_clean _ _ _ _ 6 true rfl (Or.inl rfl) hshift)⟩⟩

end Sys2Proof.Machine

/-! ## Fetch and issue of the bundles of the stream (O20, O56, O59) -/

namespace Sys2Proof.Machine

/-! ### The encoding of a bundle (R140, R141, R146, R149, R151, R156, R159) -/

/-- A field above the lower part of a word. -/
theorem extract_append_hi {v w : Nat} (x : BitVec v) (y : BitVec w) (lo n : Nat) (h : w ≤ lo) :
    (x.append y).extractLsb' lo n = x.extractLsb' (lo - w) n := BitVec.extractLsb'_append_eq_of_le h

/-- A field within the lower part of a word. -/
theorem extract_append_lo {v w : Nat} (x : BitVec v) (y : BitVec w) (lo n : Nat) (h : lo + n ≤ w) :
    (x.append y).extractLsb' lo n = y.extractLsb' lo n := BitVec.extractLsb'_append_eq_of_add_le h

theorem decodeHeader_encodeHeader (h : Header) : decodeHeader (encodeHeader h) = h := by
  have hall : ∀ (hver rsvd : BitVec 3) (brk v : Bool), decodeHeader (encodeHeader ⟨hver, rsvd, brk, v⟩) = ⟨hver, rsvd, brk, v⟩ := by decide
  exact hall h.hver h.rsvd h.brk h.v

theorem decodeScalar_encodeScalar (x : ScalarSlot) : decodeScalar (encodeScalar x) = x := by
  unfold decodeScalar encodeScalar
  dsimp only [HAppend.hAppend]
  simp only [extract_append_hi, extract_append_lo, Nat.reduceAdd, Nat.reduceSub, Nat.reduceLeDiff, BitVec.extractLsb'_eq_self]

theorem decodeMatrix_encodeMatrix (x : MatrixSlot) : decodeMatrix (encodeMatrix x) = x := by
  unfold decodeMatrix encodeMatrix
  dsimp only [HAppend.hAppend]
  simp only [extract_append_hi, extract_append_lo, Nat.reduceAdd, Nat.reduceSub, Nat.reduceLeDiff, BitVec.extractLsb'_eq_self]

theorem decodeVector_encodeVector (x : VectorSlot) : decodeVector (encodeVector x) = x := by
  unfold decodeVector encodeVector
  dsimp only [HAppend.hAppend]
  simp only [extract_append_hi, extract_append_lo, Nat.reduceAdd, Nat.reduceSub, Nat.reduceLeDiff, BitVec.extractLsb'_eq_self]

theorem decodeMove_encodeMove (x : MoveSlot) : decodeMove (encodeMove x) = x := by
  unfold decodeMove encodeMove
  dsimp only [HAppend.hAppend]
  simp only [extract_append_hi, extract_append_lo, Nat.reduceAdd, Nat.reduceSub, Nat.reduceLeDiff, BitVec.extractLsb'_eq_self]

theorem decodeSync_encodeSync (x : SyncSlot) : decodeSync (encodeSync x) = x := by
  unfold decodeSync encodeSync
  dsimp only [HAppend.hAppend]
  simp only [extract_append_hi, extract_append_lo, Nat.reduceAdd, Nat.reduceSub, Nat.reduceLeDiff, BitVec.extractLsb'_eq_self]

/-- A bundle is what its encoding decodes to. -/
theorem decodeBundle_encodeBundle (b : Bundle) : decodeBundle (encodeBundle b) = b := by
  unfold decodeBundle encodeBundle
  dsimp only [HAppend.hAppend, bitsAt]
  simp only [extract_append_hi, extract_append_lo, Nat.reduceAdd, Nat.reduceSub, Nat.reduceLeDiff, BitVec.extractLsb'_eq_self,
    decodeHeader_encodeHeader, decodeScalar_encodeScalar, decodeMatrix_encodeMatrix, decodeVector_encodeVector, decodeMove_encodeMove,
    decodeSync_encodeSync]

/-! ### BUNDLE_ISSUE (R134, R135) -/

/-- Where a unit finds no fault, a bundle that issues is not checked further (R436). -/
theorem checkedIssue_none (c : Nat) (b : Bundle) (s t : State) : checkedIssue c b .none s t = t := by
  unfold checkedIssue
  split <;> rfl

/-- A bundle that has not issued is not checked (R436). -/
theorem checkedIssue_of_not_issued {c : Nat} {b : Bundle} {fault : UnitFault} {s t : State} (h : (t.core c).seqNo = (s.core c).seqNo) :
    checkedIssue c b fault s t = t := by
  refine if_pos (Or.inr ?_)
  rw [hasIssued, h]
  exact bne_self_eq_false _

/-- BUNDLE_ISSUE without a parity error issues and checks the bundle at the head of the fetch buffer. -/
theorem bundleIssue_head (s : State) (c : CoreId) (fault : UnitFault) (f : Fetched) (rest : List Fetched)
    (hf : (s.core c).fetched = f :: rest) (hfault : fault ≠ .parity) :
    exec (.bundleIssue c fault) s =
      .next (checkedIssue c (decodeBundle f.bits) fault s (issueBundle c (decodeBundle f.bits) f.bad s)) := by
  show Host.Outcome.next (bundleIssue c fault s) = _
  refine congrArg Host.Outcome.next ?_
  unfold bundleIssue
  cases hlook : canLook s c with
  | false =>
    rw [issue_not_looking s c _ _ hlook, checkedIssue_of_not_issued rfl]
    rfl
  | true =>
    rw [if_neg hfault, hf]
    rfl

/-- Settles O56: the head of the buffer decodes to the bundle whose issue the command is. -/
theorem fetchedOperationIsTheCommand : Obligations.FetchedOperationIsTheCommand := by
  unfold Obligations.FetchedOperationIsTheCommand
  intro s i c b n rest hb hf
  rw [bundleIssue_head s c .none _ rest hf (by decide), checkedIssue_none, op_issue s i c b hb, decodeBundle_encodeBundle]

/-! ### A bundle that was not corrected (R136, R173, R174) -/

theorem lowestCause_mem {l : List (Nat × Nat × Nat)} {x : Nat × Nat × Nat} (h : lowestCause l = some x) : x ∈ l := by
  induction l generalizing x with
  | nil => cases h
  | cons y l ih =>
    unfold lowestCause at h
    split at h
    · cases h
      exact List.mem_cons_self
    · rename_i z hz
      split at h <;> cases h
      · exact List.mem_cons_of_mem y (ih hz)
      · exact List.mem_cons_self

/-- The cause of a bundle that was not corrected comes before those with a code of their own. -/
theorem lowestCause_uncorrected {l : List (Nat × Nat × Nat)} (h : ∀ y ∈ l, y.1 ≠ 0) : lowestCause ((0x01, 0, 0) :: l) = some (0x01, 0, 0) := by
  unfold lowestCause
  split
  · rfl
  · rename_i y hy
    have hcode := h y (lowestCause_mem hy)
    exact if_neg (by dsimp only; omega)

/-- An exception of the move slot has a code. -/
theorem moveFault_code (s : State) (c : Nat) (k : Core) (m : MoveSlot) (code d : Nat) (h : moveFault s c k m = some (code, d)) :
    code ≠ 0 := by
  have hcode : ∀ n : Nat, (if n = 0 then none else some (n, 0)) = some (code, d) → code ≠ 0 := by
    intro n hn
    split at hn <;> cases hn
    assumption
  unfold moveFault at h
  dsimp only at h
  split at h
  · cases h
  · exact hcode _ h
  · exact hcode _ h
  · split at h
    · cases h
      decide
    · split at h
      · cases h
        assumption
      · split at h
        · split at h
          · cases h
            decide
          · split at h
            · cases h
              decide
            · exact hcode _ h
        · cases h

/-- Every cause that register values decide has a code. -/
theorem dynamicCauses_code (s : State) (c : Nat) (k : Core) (b : Bundle) : ∀ y ∈ dynamicCauses s c k b, y.1 ≠ 0 := by
  have hone : ∀ (p : Prop) [Decidable p] (code sl d : Nat), code ≠ 0 → ∀ y ∈ (if p then [(code, sl, d)] else []), y.1 ≠ 0 := by
    intro p _ code sl d hcode y hy
    split at hy
    · obtain rfl := List.mem_singleton.1 hy
      exact hcode
    · cases hy
  intro y hy
  unfold dynamicCauses at hy
  simp only [List.mem_append] at hy
  obtain ((((hy | hy) | hy) | hy) | hy) | hy := hy
  · exact hone _ _ _ _ (by decide) y hy
  · exact hone _ _ _ _ (by decide) y hy
  · exact hone _ _ _ _ (by decide) y hy
  · split at hy
    · rename_i code d hmove
      obtain rfl := List.mem_singleton.1 hy
      exact moveFault_code s c k b.move code d hmove
    · cases hy
  · split at hy
    · split at hy
      · obtain rfl := List.mem_singleton.1 hy
        exact Nat.succ_ne_zero 7
      · cases hy
    · cases hy
  · exact hone _ _ _ _ (by decide) y hy

/-- A bundle that was not corrected halts its core with the poison exception (R136). -/
theorem issueBundle_uncorrected (s : State) (c : Nat) (b : Bundle) (h : canLook s c = true) :
    issueBundle c b true s = s.haltCore c 0x01 0 0 (s.core c).pc (s.core c).pc := by
  have hcause : lowestCause (bundleCauses s c b true) = some (0x01, 0, 0) := by
    refine lowestCause_uncorrected fun y hy => ?_
    split at hy
    · cases hy
    · exact dynamicCauses_code s c _ b y hy
  unfold issueBundle
  simp only [h, hcause, Bool.not_true, Bool.false_eq_true, if_false, reduceCtorEq, false_and]
  rfl

/-- A core that looks at a bundle runs or holds. -/
theorem st_of_canLook {s : State} {c : Nat} (h : canLook s c = true) : (s.core c).st = .running ∨ (s.core c).st = .holding := by
  simp only [canLook, Bool.and_eq_true, Bool.or_eq_true, beq_iff_eq] at h
  exact h.1.2

/-- A core that looks at a bundle halts with its record. -/
theorem haltCore_of_canLook {s : State} {c : Nat} (h : canLook s c = true) (cause slot detail : Nat) (b pc : BitVec 32) :
    s.haltCore c cause slot detail b pc =
      (s.emit { code := cause, uclass := 1, uinst := c, addr := bundleAddr c b, opid := opidBundle c b, detail := detail }).modCore c fun k =>
        { k with
          st := .halted, pc := pc, heldAt := none, waitStart := none, barWait := none, twHere := false
          exc := ⟨b, BitVec.ofNat 3 slot, BitVec.ofNat 8 detail, BitVec.ofNat 8 cause⟩ } := by
  have hst := st_of_canLook h
  have hhalted : (s.core c).st ≠ .halted := by obtain h | h := hst <;> rw [h] <;> decide
  have hwindow : (s.core c).st ≠ .window := by obtain h | h := hst <;> rw [h] <;> decide
  unfold State.haltCore
  dsimp only
  rw [if_neg hhalted]
  refine modCore_congr _ _ _ _ ?_
  rw [emit_core, if_neg hwindow, if_neg hwindow]

/-- Settles O59: of all causes the one of a bundle that was not corrected is the lowest. -/
theorem poisonedBundleHalts : Obligations.PoisonedBundleHalts := by
  unfold Obligations.PoisonedBundleHalts
  intro s c f rest u k hlook hf hbad hu
  have hissue := (issueBundle_uncorrected s c (decodeBundle f.bits) hlook).trans (haltCore_of_canLook hlook _ _ _ _ _)
  have hexec := bundleIssue_head s c u f rest hf hu
  rw [hbad, hissue, checkedIssue_of_not_issued (by rw [core_modCore_self, emit_core])] at hexec
  refine ⟨_, s.record { code := 0x01, uclass := 1, uinst := c, addr := bundleAddr c k.pc, opid := opidBundle c k.pc }, hexec, ?_⟩
  rw [core_modCore_self, emit_core]
  refine ⟨rfl, rfl, rfl, rfl, rfl, rfl, rfl, rfl, rfl, rfl, rfl, ⟨rfl, rfl, rfl, rfl, rfl, rfl, fun d hd => ?_⟩, rfl, rfl⟩
  rw [core_modCore_ne _ _ _ fun h => hd (Fin.ext h), emit_core]

/-! ### What a bundle leaves of its core's PC (R115, R135) -/

/-- The PC of core c has stayed. -/
def KeepsPc (c : Nat) (s t : State) : Prop := (t.core c).pc = (s.core c).pc

namespace KeepsPc

theorem refl (c : Nat) (s : State) : KeepsPc c s s := rfl

theorem trans {c : Nat} {s t u : State} (h : KeepsPc c s t) (h' : KeepsPc c t u) : KeepsPc c s u := Eq.trans h' h

theorem modCore (c : Nat) (s : State) (f : Core → Core) (h : (f (s.core c)).pc = (s.core c).pc) : KeepsPc c s (s.modCore c f) := by
  rw [KeepsPc, core_modCore_self, h]

theorem of_cores {c : Nat} {s t : State} (h : t.cores = s.cores) : KeepsPc c s t := by
  rw [KeepsPc, State.core, h]
  rfl

theorem ite {c : Nat} {s t u : State} {p : Prop} [Decidable p] (h : KeepsPc c s t) (h' : KeepsPc c s u) :
    KeepsPc c s (if p then t else u) := iteInduction (fun _ => h) fun _ => h'

theorem foldl {β : Type} (c : Nat) (f : State → β → State) (hf : ∀ s x, KeepsPc c s (f s x)) (l : List β) (s : State) :
    KeepsPc c s (l.foldl f s) := foldl_rel (refl c) trans f hf l s

theorem bite (c : Nat) (s : State) (uc ui : Nat) (op : Word) (a n : Nat) : KeepsPc c s (s.bite uc ui op a n) := of_cores rfl

theorem tileWrite (c : Nat) (s : State) (q a : Nat) (bs : List PByte) : KeepsPc c s (tileWrite s c q a bs) := by
  unfold Machine.tileWrite
  exact ite (refl c s) (ite (modCore c s _ rfl) (refl c s))

theorem setSreg_pc (k : Core) (r : BitVec 5) (v : Word) : (k.setSreg r v).pc = k.pc := by
  unfold Core.setSreg
  split <;> rfl

theorem ramp_pc (k : Core) (c b : Nat) : (k.ramp c b).pc = k.pc := by
  unfold Core.ramp
  exact foldl_keeps Core.pc (fun k a => k.rampArray c a b) (fun _ _ => rfl) _ k

theorem scalarApply (c : Nat) (b : BitVec 32) (x : ScalarSlot) (s t : State) : KeepsPc c t (scalarApply c b x s t) := by
  unfold Machine.scalarApply
  extract_lets k t'
  have ht : KeepsPc c t t' := by
    dsimp only [t']
    split
    · exact modCore c t _ (setSreg_pc _ _ _)
    · exact refl c t
  refine ht.trans ?_
  clear_value t'
  split
  · have hready : ∀ n, KeepsPc c t' (t'.modCore c fun y => if x.sd = 0 then y else { y with sReady := mset 0 y.sReady x.sd.toNat n }) :=
      fun n => modCore c t' _ (by split <;> rfl)
    exact ite ((hready _).trans (bite _ _ _ _ _ _ _)) (hready _)
  · exact tileWrite c t' _ _ _
  · exact modCore c t' _ rfl
  · exact modCore c t' _ rfl
  · exact modCore c t' _ rfl
  · exact refl c t'

theorem passApply (c : Nat) (b : BitVec 32) (m : MatrixSlot) (s t : State) : KeepsPc c t (passApply c b m s t) := by
  unfold Machine.passApply
  exact ite (refl c t) (modCore c t _ rfl)

theorem moveApply (c : Nat) (b : BitVec 32) (m : MoveSlot) (s t : State) : KeepsPc c t (moveApply c b m s t) := by
  unfold Machine.moveApply
  dsimp only
  split
  · exact refl c t
  · exact modCore c t _ rfl
  · exact modCore c t _ rfl
  · exact ite (bite c t _ _ _ _ _) (modCore c t _ rfl)
  · exact modCore c t _ rfl

theorem vecKeep (c : Nat) (b : BitVec 32) (x : VectorSlot) (o : VecOut) (t : State) : KeepsPc c t (vecKeep c b x o t) := by
  obtain ⟨-, -, -, -, -, -, -, hpc⟩ := keepCore_keeps t.cycle x o (t.core c)
  have hcore : KeepsPc c t (t.modCore c (keepCore t.cycle x o)) := modCore c t _ hpc
  have hentries : ∀ u : State, KeepsPc c u (o.accs.foldl (fun t e => t.setEntry e.1 e.2.1 e.2.2.1 e.2.2.2) u) :=
    foldl c (fun t (e : Nat × Nat × Nat × Bool) => t.setEntry e.1 e.2.1 e.2.2.1 e.2.2.2) (fun _ _ => of_cores rfl) o.accs
  have hstores : ∀ (q : Nat) (u : State), KeepsPc c u (o.stores.foldl (fun t e => Machine.tileWrite t c q e.1 e.2) u) :=
    fun q => foldl c (fun t (e : Nat × List PByte) => Machine.tileWrite t c q e.1 e.2)
      (fun u (e : Nat × List PByte) => tileWrite c u q e.1 e.2) o.stores
  have hbite : ∀ u : State, KeepsPc c u (keepBite c b x o u) := fun u => by
    obtain h | ⟨i, h⟩ := keepBite_state c b x o u <;> rw [h]
    · exact refl c u
    · exact of_cores rfl
  exact ((hcore.trans (hentries _)).trans (hstores _ _)).trans (hbite _)

theorem vecApply (c : Nat) (b : BitVec 32) (x : VectorSlot) (s t : State) : KeepsPc c t (vecApply c b x s t) := by
  unfold Machine.vecApply
  exact ite (refl c t) (vecKeep _ _ _ _ _)

theorem syncApply (c : Nat) (x : SyncSlot) (s t : State) : KeepsPc c t (syncApply c x s t) := by
  unfold Machine.syncApply
  dsimp only
  split
  · exact ite (modCore c t _ rfl) (refl c t)
  · exact modCore c t _ rfl
  · exact modCore c t _ (ramp_pc _ _ _)
  · exact modCore c t _ rfl
  · exact (modCore c t _ (setSreg_pc _ _ _)).trans (ite (refl c _) (of_cores rfl))
  · exact of_cores rfl
  · exact refl c t

end KeepsPc

/-- The issue of a bundle brings its core to the branch target or the following bundle (R135, R147). -/
theorem advance_core (c : Nat) (next : Option (BitVec 32)) (t : State) :
    ((advance c next t).core c).pc = next.getD ((t.core c).pc + 1) ∧ ((advance c next t).core c).st = .running := by
  unfold advance
  dsimp only
  rw [core_modCore_self]
  cases next with
  | none => exact ⟨rfl, rfl⟩
  | some b =>
    dsimp only
    split <;> exact ⟨rfl, rfl⟩

/-- After its bundle a core stands at the branch target or the following bundle: it runs, is halted after TRAP, or idle after END (R146 to
R148, R173). -/
theorem bundleEffect_core (s : State) (c : Nat) (b : Bundle) :
    ((bundleEffect c b s).core c).pc = (branchTarget (s.core c) b.scalar).getD ((s.core c).pc + 1) ∧
      ((bundleEffect c b s).core c).st = if b.scalar.op = 0x18 then .halted else if b.scalar.op = 0x19 then .idle else .running := by
  unfold bundleEffect
  extract_lets k pc t1 t2 t3 t4 t5 t6
  have hslots : KeepsPc c s t5 := ((((KeepsPc.scalarApply c pc b.scalar s s).trans (KeepsPc.passApply c pc b.matrix s t1)).trans
    (KeepsPc.moveApply c pc b.move s t2)).trans (KeepsPc.vecApply c pc b.vector s t3)).trans (KeepsPc.syncApply c b.sync s t4)
  obtain ⟨hpc, hst⟩ : (t6.core c).pc = (branchTarget k b.scalar).getD ((t5.core c).pc + 1) ∧ (t6.core c).st = .running :=
    advance_core c _ t5
  rw [hslots] at hpc
  clear_value t6
  by_cases htrap : b.scalar.op = 0x18
  · have htarget : branchTarget k b.scalar = none := by simp [branchTarget, htrap]
    rw [if_pos htrap, if_pos htrap, htarget]
    unfold State.haltCore
    dsimp only
    rw [if_neg (by rw [hst]; decide), core_modCore_self, emit_core, hst]
    exact ⟨rfl, rfl⟩
  · rw [if_neg htrap, if_neg htrap]
    by_cases hend : b.scalar.op = 0x19
    · rw [if_pos hend, if_pos hend, core_modCore_self, hst, ← hpc]
      exact ⟨rfl, rfl⟩
    · rw [if_neg hend, if_neg hend]
      exact ⟨hpc, hst⟩

/-! ### Fill, fetch and issue (R112, R134 to R136) -/

theorem map_fst_readP (s : State) (a n : Nat) : (readP s a n).map (·.1) = readB s a n := by
  simp [readP, readB, Function.comp_def]

/-- A fill copies the next bundle of the image into the ring (R112). -/
theorem streamFill_exec (s : State) (c : CoreId) (im : CoreImage) (hlive : s.live = true) (him : imageOf s c = some im)
    (hlen : (s.core c).fill.toNat < im.bundles.length) (hring : (s.core c).fill.toNat < (s.core c).pc.toNat + Config.ringBundles) :
    let b := (s.core c).fill.toNat
    let rd := fetchRange s (im.base + 32 * b) 32
    exec (.instructionStreamFill c) s =
      .next ((writeP rd (bundleAddr c (s.core c).fill) (readP rd (im.base + 32 * b) 32)).modCore c fun k =>
        { k with
          fill := BitVec.ofNat 32 (b + 1)
          ringLo := BitVec.ofNat 32 (max k.ringLo.toNat (b + 1 - Config.ringBundles)) }) := by
  intro b rd
  show Host.Outcome.next (if s.live then streamFill c s else s) = _
  refine congrArg Host.Outcome.next ((if_pos hlive).trans ?_)
  unfold streamFill
  rw [him]
  exact if_neg (by omega)

/-- The state in which a fetched bundle enters the buffer: a bundle that was not corrected is recorded and marked (R136). -/
def fetchChecked (c : Nat) (uncorrectable : Bool) (a : Nat) (s : State) : State :=
  if uncorrectable then setMark (s.emit { code := 0x15, uclass := 5, uinst := c * 16 + nbits a 7 4, addr := a - a % 64 }) (a / 64) else s

theorem fetchChecked_core (c : Nat) (u : Bool) (a : Nat) (s : State) (d : Nat) : (fetchChecked c u a s).core d = s.core d := by
  unfold fetchChecked
  split <;> rfl

/-- A fetch takes the next bundle below SEQ_FILL into the buffer (R134). -/
theorem fetch_exec (s : State) (c : CoreId) (u : Bool) (hlive : s.live = true) (hroom : (s.core c).fetched.length < 16)
    (hfill : (s.core c).pc.toNat + (s.core c).fetched.length < (s.core c).fill.toNat)
    (hlo : (s.core c).ringLo.toNat ≤ (s.core c).pc.toNat + (s.core c).fetched.length) :
    let n := (s.core c).pc.toNat + (s.core c).fetched.length
    let a := bundleAddr c (BitVec.ofNat 32 n)
    let fr := fetchRange s a 32
    exec (.instructionFetch c u) s = .next ((fetchChecked c u a fr).modCore c fun k =>
      { k with fetched := k.fetched ++ [⟨n, BitVec.ofNat 256 (readN fr a 32), u || poisonedIn fr a 32⟩] }) := by
  intro n a fr
  show Host.Outcome.next (if s.live then fetchBundle c u s else s) = _
  refine congrArg Host.Outcome.next ((if_pos hlive).trans ?_)
  unfold fetchBundle
  exact if_neg (by omega)

/-- A read of a range leaves whether a core looks at a bundle. -/
theorem canLook_fetchRange (s : State) (a n c : Nat) : canLook (fetchRange s a n) c = canLook s c := by
  have h := StoreFrame.fetchRange s a n
  unfold StoreFrame at h
  rw [h]
  rfl

theorem core_fetchRange (s : State) (a n c : Nat) : (fetchRange s a n).core c = s.core c := by
  rw [State.core, (StoreFrame.fetchRange s a n).cores]
  rfl

/-- A BAR whose condition holds has arrived before. -/
theorem barFirst_of_holds {s : State} {c g : Nat} (h : barHolds s c g = true) : barFirst s c g = s := by
  unfold barHolds at h
  unfold barFirst
  cases hw : (s.core c).barWait with
  | none => simp [hw] at h
  | some w => simp [hw]

/-- A bundle other than TESTWIN that issues at once takes its effect (R135). -/
theorem issueOrHold_now (s : State) (c : Nat) (b : Bundle) (h : IssuesNow s c b) (htestwin : b.scalar.op ≠ 0x17) :
    issueOrHold c b s = bundleEffect c b s := by
  obtain ⟨-, -, horder, hholds, hfetch⟩ := h
  have hfirst : (if b.sync.op = 3 then barFirst s c (syncGrp b.sync) else s) = s := by
    split
    case isFalse => rfl
    case isTrue hbar =>
      have hsync : syncWaits s c (s.core c) b = false := by
        simp only [Holds.any, bundleHolds, Bool.or_eq_false_iff] at hholds
        exact hholds.1.1.1.1.2.1
      rw [syncWaits, hbar, if_neg (by decide), if_pos rfl, Bool.not_eq_false'] at hsync
      exact barFirst_of_holds hsync
  unfold issueOrHold
  rw [if_neg htestwin, hfirst]
  dsimp only
  rw [horder, hholds, hfetch]
  rfl

@[simp] theorem modCore_byte (s : State) (c : Nat) (f : Core → Core) (a : Nat) : (s.modCore c f).byte a = s.byte a := rfl

/-- The bytes of one range copied to another place. -/
theorem writeP_readP_byte (s : State) (a src n i : Nat) (h : i < n) : (writeP s a (readP s src n)).byte (a + i) = s.byte (src + i) := by
  have hlen : i < ((readP s src n).map (·.1)).length := by simpa [readP] using h
  rw [writeP_byte_inside s a i (readP s src n) hlen]
  simp [readP]

/-- The issue of a bundle reads the descriptor of a gather before it looks further (R157). -/
theorem issueBundle_now (s : State) (c : Nat) (b : Bundle) (htestwin : b.scalar.op ≠ 0x17)
    (h : IssuesNow (if b.move.op = 3 then fetchRange s (tileAddr c (descOffset (s.core c) b.move)) 64 else s) c b) :
    issueBundle c b false s =
      bundleEffect c b (if b.move.op = 3 then fetchRange s (tileAddr c (descOffset (s.core c) b.move)) 64 else s) := by
  have hlook : canLook s c = true := by
    have hlook := h.1
    split at hlook
    · rwa [canLook_fetchRange] at hlook
    · exact hlook
  unfold issueBundle
  simp only [hlook, Bool.not_true, Bool.false_eq_true, if_false, true_and, h.2.1]
  exact issueOrHold_now _ c b h htestwin

/-- Settles O20: a fill copies a range, a fetch appends to the buffer, an issue is the effect of the bundle. -/
theorem instructionSupply : Obligations.InstructionSupply := by
  unfold Obligations.InstructionSupply
  intro s c im f rest u k n src rd a fa fr b s1
  refine ⟨fun hlive him hlen hring => ?fill, fun hlive hroom hfill hlo => ?fetch, fun hf hbad hissues htestwin => ?issue⟩
  case fill =>
    refine ⟨_, streamFill_exec s c im hlive him hlen hring, ?_, fun i hi => ?_, fun x hx => ?_⟩
    · rw [core_modCore_self]
      exact BitVec.eq_of_toNat_eq (by simp [k])
    · rw [modCore_byte]
      exact writeP_readP_byte rd a src 32 i hi
    · rw [modCore_byte]
      exact writeP_byte_outside rd a x (readP rd src 32) (by simpa [readP] using hx)
  case fetch =>
    refine ⟨_, fetch_exec s c u hlive hroom hfill hlo, ?_, ?_, fun hu => ?_⟩
    · rw [core_modCore_self, fetchChecked_core, core_fetchRange]
    · rw [core_modCore_self, fetchChecked_core, core_fetchRange]
    · have hrec : Recorded s (fetchChecked c true fa fr) 0x15 :=
        ⟨fr, _, rfl, (MemoryFrame.fetchRange s fa 32).ring, RingGrows.refl _⟩
      subst hu
      exact hrec.exists_rec
  case issue =>
    have hcore : s1.core c = k := by
      dsimp only [s1]
      split
      · exact core_fetchRange _ _ _ _
      · rfl
    obtain ⟨hpc, hst⟩ := bundleEffect_core s1 c b
    rw [hcore] at hpc
    refine ⟨_, ?_, hpc, hst⟩
    rw [bundleIssue_head s c .none f rest hf (by decide), checkedIssue_none, hbad, issueBundle_now s c _ htestwin hissues]

end Sys2Proof.Machine

/-! ## A transfer with rows beyond the hot-row slices (O15) -/

namespace Sys2Proof.Machine

/-! ### Reads of the words of slots (R196, R197) -/

/-- The words of slot `n` of the hot-row slices, counted over all of them, are consecutive (R254). -/
theorem hotSlot_word (n i : Nat) :
    hotSlotAddr (n / 8192) (n % 8192 / 8) (n % 8192 % 8) / 8 + i = Config.hotBase / 8 + (16 * n + i) := by
  unfold hotSlotAddr
  simp only [Config.hotBase]
  omega

/-- A read of a slot without flips changes nothing. -/
theorem fetchSlot_clean (s : State) (n : Nat) (h : ∀ i < 16, secded (mget 0 s.sramErrs (Config.hotBase / 8 + (16 * n + i))) = .clean) :
    fetchSlot s (n / 8192) (n % 8192) = s := by
  unfold fetchSlot
  refine foldl_const _ _ _ fun i hi => ?_
  dsimp only
  rw [hotSlot_word, sramRead_clean s _ (h i (List.mem_range.1 hi)), if_neg Bool.false_ne_true]

/-- A read of a slot whose first word alone has flips that are corrected is the read of that word. -/
theorem fetchSlot_first (s : State) (n : Nat) (hread : (sramRead s (Config.hotBase / 8 + 16 * n)).2 = false)
    (hrest : (sramRead s (Config.hotBase / 8 + 16 * n)).1.sramErrs = []) :
    fetchSlot s (n / 8192) (n % 8192) = (sramRead s (Config.hotBase / 8 + 16 * n)).1 := by
  have hrange : List.range 16 = 0 :: (List.range 15).map Nat.succ := List.range_succ_eq_map
  unfold fetchSlot
  rw [hrange, List.foldl_cons, hotSlot_word, Nat.add_zero]
  simp only [hread, Bool.false_eq_true, if_false]
  refine foldl_const _ _ _ fun i _ => ?_
  rw [sramRead_quiet _ _ hrest, if_neg Bool.false_ne_true]

/-- A source in the hot-row slices is read slot by slot; where only the last one has flips, in its first word, the read is that word's. -/
theorem transferFetch_last (s : State) (c n : Nat) (hclean : ∀ k < Config.hotBase / 8 + 16 * n, secded (mget 0 s.sramErrs k) = .clean)
    (hread : (sramRead s (Config.hotBase / 8 + 16 * n)).2 = false)
    (hrest : (sramRead s (Config.hotBase / 8 + 16 * n)).1.sramErrs = []) :
    transferFetch s c Config.hotBase (128 * (n + 1)) = (sramRead s (Config.hotBase / 8 + 16 * n)).1 := by
  have hslots : (Config.hotBase + 128 * (n + 1) + 127) / 128 - Config.hotBase / 128 = n + 1 := by
    simp only [Config.hotBase]
    omega
  have hbefore : (List.range n).foldl (fun t i => fetchSlot t (i / 8192) (i % 8192)) s = s :=
    foldl_const _ _ _ fun i hi => fetchSlot_clean s i fun j hj => hclean _ (by have := List.mem_range.1 hi; omega)
  unfold transferFetch
  rw [if_neg (fun h => absurd h.1 (by decide)), if_pos ⟨Nat.le_refl _, by decide⟩, hslots, List.range_succ, List.foldl_append]
  simp only [Nat.sub_self, Nat.zero_div, Nat.zero_add]
  rw [hbefore, List.foldl_cons, List.foldl_nil]
  exact fetchSlot_first s n hread hrest

/-! ### The transfer -/

/-- The number of the slot whose first word would have the number of the first accumulator entry (R196). -/
def entrySlot : Nat := 2 ^ 42 - 0x82000000

theorem entrySlot_word : Config.hotBase / 8 + 16 * entrySlot = accWords := by decide

/-- A copy whose one row reaches from the hot-row slices to that slot. -/
def longCopy : Transfer :=
  { kind := .copy, src := Config.hotBase, dst := 0, rows := 1, rowLen := 128 * (entrySlot + 1), srcPitch := 0, dstPitch := 0, desc := descOf [],
    te := false, tok := 0, seq := 0, bundle := 0, ran := false }

/-- The copy is at the front of a queue, and a flip stands in the first entry. -/
def longCopying : State :=
  { State.reset with sramErrs := [(accWords, 1)], cores := [(0, { st := .running, queues := [(0, [longCopy])] })] }

/-- The read of the copy's row corrects the flip in the entry (R197). -/
theorem longCopy_fetch : (transferFetch longCopying 0 Config.hotBase (128 * (entrySlot + 1))).acc = [(0, 1)] := by
  have hclean : ∀ k < Config.hotBase / 8 + 16 * entrySlot, secded (mget 0 longCopying.sramErrs k) = .clean := fun k hk => by
    rw [entrySlot_word] at hk
    have hword : mget 0 longCopying.sramErrs k = 0 := if_neg (by omega)
    rw [hword]
    rfl
  rw [transferFetch_last longCopying 0 entrySlot hclean (by rw [entrySlot_word]; decide) (by rw [entrySlot_word]; decide), entrySlot_word]
  decide

theorem popTransfer_acc (s : State) (c q : Nat) (t : Transfer) : (popTransfer s c q t).acc = s.acc := by
  unfold popTransfer State.addToken State.haltCore
  dsimp only
  repeat' split
  all_goals rfl

/-- A write of a transfer outside the accumulator banks keeps every entry. -/
theorem transferWrite_acc (s : State) (c a : Nat) (bs : List PByte) (h : a < Config.accBase ∨ Config.accEnd ≤ a) :
    (transferWrite s c a bs).acc = s.acc := by
  unfold transferWrite
  rw [if_neg (by omega)]
  exact (MemoryFrame.store s a bs).acc

/-- A copy that nothing holds back moves its rows and leaves its queue (R131, R132). -/
theorem copy_complete (s : State) (c q : Nat) (t : Transfer) (rest : List Transfer) (hq : (s.core c).queue q = t :: rest)
    (hkind : t.kind = .copy) (hblocked : transferBlocked s c t = false)
    (hslots : (t.segs.all fun (_, d, n) => slotCheck (fetchHeads s t) d n) = true) :
    transferComplete c q s = (popTransfer (copyRows (fetchHeads s t) c t.segs) c q t).drain c := by
  unfold transferComplete
  rw [hq]
  dsimp only
  rw [hkind]
  dsimp only
  rw [hblocked, hslots]
  rfl

/-- The move of one row. -/
theorem copyRows_single (s : State) (c a d n : Nat) :
    copyRows s c [(a, d, n)] = transferWrite (transferFetch s c a n) c d (transferRead (transferFetch s c a n) c a n) := rfl

/-- Refutes O15: the statement bounds no row of a transfer, and the row of `longCopy`, which begins in the hot-row slices, runs on to a word
that is numbered as an accumulator entry. Its read corrects the flip that stands there, so the entry changes though the transfer's ranges begin
outside the banks. -/
theorem not_copies : ¬ Obligations.Copies := by
  unfold Obligations.Copies
  rintro ⟨-, h⟩
  obtain ⟨t, hexec, -, -, -, hcopies⟩ := h longCopying 0 0 longCopy [] (by decide) (by decide) (by decide)
    (fun _ => ⟨by decide, by decide⟩) (fun hkind => absurd (Or.inl rfl) hkind)
  obtain ⟨hacc, -⟩ := hcopies (Or.inl rfl) rfl (by decide) rfl (by decide) (by decide)
  have hcomplete : exec (.transferComplete 0 0) longCopying =
      .next ((popTransfer (copyRows (fetchHeads longCopying longCopy) 0 longCopy.segs) 0 0 longCopy).drain 0) := by
    show Host.Outcome.next (if longCopying.live && !longCopying.stopped then transferComplete 0 0 longCopying else longCopying) = _
    rw [if_pos (by decide), copy_complete longCopying 0 0 longCopy [] (by decide) rfl (by decide) (by decide)]
  obtain rfl := Host.Outcome.next.inj (hcomplete.symm.trans hexec)
  have hsegs : longCopy.segs = [(Config.hotBase, 0, 128 * (entrySlot + 1))] := by decide
  have hheads : fetchHeads longCopying longCopy = longCopying := rfl
  have hwritten : (copyRows (fetchHeads longCopying longCopy) 0 longCopy.segs).acc = [(0, 1)] := by
    rw [hheads, hsegs, copyRows_single, transferWrite_acc _ 0 0 _ (by decide), longCopy_fetch]
  rw [drain_acc, popTransfer_acc, hwritten] at hacc
  exact absurd hacc (by decide)

end Sys2Proof.Machine

/-! ## Writes of the DRAM where no error stands (O53) -/

namespace Sys2Proof.Machine

/-! ### Patterns without an error (R190) -/

theorem mset_nil_default {α : Type} [DecidableEq α] (d : α) (i : Nat) : mset d [] i d = [] := if_pos rfl

/-- No pattern on a granule leaves its bytes. -/
theorem applyPattern_nil (bs : List Byte) : applyPattern bs [] = bs := by
  have hbyte : ∀ e : Byte × Nat, e.1 ^^^ BitVec.ofNat 8 (nbits 0 (8 * (e.2 % 2)) 8) = e.1 := fun e => by
    simp [nbits]
  unfold applyPattern
  simp only [List.foldl_nil, hbyte]
  exact List.zipIdx_map_fst 0 bs

theorem patternXor_nil : patternXor [] [] = [] := by
  simp [patternXor]

/-- A granule's own bytes written to it leave every byte. -/
theorem memSet_readB (s : State) (a n x : Nat) : mget 0 (memSet s.mem a (readB s a n)) x = mget 0 s.mem x := by
  by_cases hx : a ≤ x ∧ x < a + n
  · obtain ⟨i, rfl⟩ := Nat.exists_eq_add_of_le hx.1
    have hi : i < (readB s a n).length := by simp [readB]; omega
    rw [memSet_inside s.mem a _ i hi]
    simp [readB, State.byte]
  · exact memSet_outside s.mem a _ x (by simp [readB]; omega)

/-! ### Reads of the DRAM (R192, R193) -/

/-- Where no error stands in the DRAM of s, none does in that of t, and every byte and every injection has stayed. The lemmas of the namespace
say it of what a write does beside the write of its bytes. -/
def KeepsStored (s t : State) : Prop :=
  s.errs = [] → t.errs = [] ∧ (∀ a, t.byte a = s.byte a) ∧ ∀ v, (t.vault v).inj = (s.vault v).inj

namespace KeepsStored

theorem refl (s : State) : KeepsStored s s := fun h => ⟨h, fun _ => rfl, fun _ => rfl⟩

theorem trans {s t u : State} (h : KeepsStored s t) (h' : KeepsStored t u) : KeepsStored s u := fun hs => by
  obtain ⟨ht, hbytes, hinj⟩ := h hs
  obtain ⟨hu, hbytes', hinj'⟩ := h' ht
  exact ⟨hu, fun a => (hbytes' a).trans (hbytes a), fun v => (hinj' v).trans (hinj v)⟩

theorem foldl_mem {β : Type} (f : State → β → State) (l : List β) (hf : ∀ s, ∀ x ∈ l, KeepsStored s (f s x)) (s : State) :
    KeepsStored s (l.foldl f s) := foldl_rel_mem refl trans f l hf s

theorem of_eq {s t : State} (he : t.errs = s.errs) (hm : t.mem = s.mem) (hv : t.vaults = s.vaults) : KeepsStored s t :=
  fun hs => ⟨he.trans hs, fun a => by rw [State.byte, hm, State.byte], fun v => by rw [State.vault, hv, State.vault]⟩

theorem modVault (s : State) (v : Nat) (f : Vault → Vault) (hf : ∀ u, (f u).inj = u.inj) : KeepsStored s (s.modVault v f) := by
  refine fun hs => ⟨hs, fun _ => rfl, fun i => ?_⟩
  rw [vault_modVault]
  split
  · exact hf _
  · rfl

theorem noteEvent (s : State) (k : Nat) (u : BitVec 16) (c l : Nat) : KeepsStored s (s.noteEvent k u c l) := by
  unfold State.noteEvent
  dsimp only
  split <;> exact of_eq rfl rfl rfl

/-- A granule put back as it was. -/
theorem rewriteGranule (s : State) (g : Nat) (m : Bool) : KeepsStored s (rewriteGranule s g (readB s (64 * g) 64) m) := by
  refine fun hs => ⟨?_, fun a => memSet_readB s _ _ a, fun _ => rfl⟩
  show mset [] s.errs g [] = []
  rw [hs, mset_nil_default]

/-- A granule without symbol errors is read as it is stored; at most its metadata is corrected. -/
theorem readGranule (s : State) (g : Nat) : KeepsStored s (readGranule s g quiet quiet) := by
  intro hs
  have hpattern : patternOf (mget [] s.errs g) = [] := by rw [hs]; rfl
  have hclean : rsOfPattern [] = .clean := by decide
  have hput : ∀ m ce, KeepsStored s ((Machine.rewriteGranule s g (readB s (64 * g) 64) m).modVault (vaultOf (64 * g)) fun u => u.ecc ce 0 0) :=
    fun m ce => (rewriteGranule s g m).trans (modVault _ _ _ fun _ => rfl)
  unfold Machine.readGranule
  simp only [hpattern, quiet, show patternOf [] = [] from rfl, patternXor_nil, hclean, applyPattern_nil, Bool.false_eq_true, if_false]
  split
  · exact refl s hs
  · split
    · exact ((hput _ _).trans (noteEvent _ _ _ _ _)) hs
    · exact hput _ _ hs

/-- A range of the DRAM. -/
theorem fetchRange (s : State) (a n : Nat) (h : a < Config.tileBase) : KeepsStored s (fetchRange s a n) := by
  have hwords : wordsOf a n = [] := if_pos (Or.inr h)
  have htile : ∀ t, fetchTile t a n = t := fun t => by simp [fetchTile, hwords]
  unfold Machine.fetchRange
  rw [htile]
  exact foldl_mem _ _ (fun t g _ => readGranule t g) s

theorem copyBefore (s : State) (p : Nat) (h : 4096 * p < Config.tileBase) : KeepsStored s (copyBefore s p) := by
  unfold Machine.copyBefore
  dsimp only
  split
  · exact (fetchRange s _ _ h).trans (of_eq rfl rfl rfl)
  · exact refl s

theorem clearErrors (s : State) (g : Nat) : KeepsStored s (clearErrors s g) := by
  refine fun hs => ⟨?_, fun _ => rfl, fun _ => rfl⟩
  show mset [] s.errs g [] = []
  rw [hs, mset_nil_default]

end KeepsStored

/-! ### Writes (R111, R186, R194) -/

/-- A granule of a range begins before its end. -/
theorem granulesOf_lt {a n g : Nat} (h : g ∈ granulesOf a n) : 64 * g < a + n := by
  unfold granulesOf at h
  split at h
  · cases h
  · obtain ⟨i, hi, rfl⟩ := List.mem_map.1 h
    have := List.mem_range.1 hi
    omega

theorem pagesOf_lt {a n p : Nat} (h : p ∈ pagesOf a n) : 4096 * p < a + n := by
  unfold pagesOf at h
  split at h
  · cases h
  · obtain ⟨i, hi, rfl⟩ := List.mem_map.1 h
    have := List.mem_range.1 hi
    omega

/-- What a write to the DRAM reads before it: the granules that it writes in part, and the pages that are to be copied (R194, R374). -/
def beforeWrite (s : State) (a n : Nat) : State :=
  (pagesOf a n).foldl copyBefore
    ((granulesOf a n).foldl (fun t g => if decide (a ≤ 64 * g) && decide (64 * g + 64 ≤ a + n) then t else fetchRange t (64 * g) 64) s)

theorem beforeWrite_keeps (s : State) (a n : Nat) (h : inDram a n = true) : KeepsStored s (beforeWrite s a n) := by
  have hend : a + n ≤ Config.dramEnd := of_decide_eq_true h
  have hbelow : Config.dramEnd ≤ Config.tileBase := by decide
  refine KeepsStored.trans (KeepsStored.foldl_mem _ _ (fun t g hg => ?_) s) (KeepsStored.foldl_mem _ _ (fun t p hp => ?_) _)
  · have := granulesOf_lt hg
    split
    · exact KeepsStored.refl t
    · exact KeepsStored.fetchRange t _ _ (by omega)
  · have := pagesOf_lt hp
    exact KeepsStored.copyBefore t p (by omega)

/-- The state before the injections of a write. -/
def afterWrite (s : State) (a : Nat) (bs : List PByte) : State :=
  setDirty ((granulesOf a bs.length).foldl clearErrors (writeP (beforeWrite s a bs.length) a bs)) a bs.length

theorem writeDram_eq (s : State) (a : Nat) (bs : List PByte) :
    writeDram s a bs = (granulesOf a bs.length).foldl injectAt (afterWrite s a bs) := rfl

theorem writeDram_mem (s : State) (a : Nat) (bs : List PByte) :
    (writeDram s a bs).mem = memSet (beforeWrite s a bs.length).mem a (bs.map (·.1)) := by
  have hcleared := foldl_mem clearErrors (fun _ _ => rfl) (granulesOf a bs.length) (writeP (beforeWrite s a bs.length) a bs)
  rw [writeDram_eq, foldl_mem injectAt injectAt_mem]
  exact hcleared

/-- No error stands in the DRAM, and no injection is armed (R193, R218). -/
def Calm (s : State) : Prop := s.errs = [] ∧ ∀ v : VaultId, (s.vault v).inj.arm = false

theorem KeepsStored.calm {s t : State} (h : KeepsStored s t) (hs : Calm s) : Calm t := by
  obtain ⟨herrs, harm⟩ := hs
  obtain ⟨herrs', -, hinj⟩ := h herrs
  exact ⟨herrs', fun v => by rw [hinj, harm]⟩

/-- Without an armed injection a write injects nothing. -/
theorem injectAt_calm (s : State) (g : Nat) (h : Calm s) : injectAt s g = s := by
  have hvault : vaultOf (64 * g) < 64 := Nat.mod_lt _ (by decide)
  have harm : (s.vault (vaultOf (64 * g))).inj.arm = false := h.2 ⟨_, hvault⟩
  unfold injectAt
  simp [harm]

theorem writeDram_calm (s : State) (a : Nat) (bs : List PByte) (h : inDram a bs.length = true) (hs : Calm s) : Calm (writeDram s a bs) := by
  have hwritten : Calm (writeP (beforeWrite s a bs.length) a bs) := (beforeWrite_keeps s a _ h).calm hs
  have hafter : Calm (afterWrite s a bs) :=
    ((KeepsStored.foldl_mem clearErrors _ (fun t g _ => KeepsStored.clearErrors t g) _).trans (KeepsStored.of_eq rfl rfl rfl)).calm hwritten
  rw [writeDram_eq, foldl_const injectAt _ _ fun g _ => injectAt_calm _ g hafter]
  exact hafter

theorem store_calm (s : State) (a : Nat) (bs : List PByte) (hs : Calm s) : Calm (store s a bs) := by
  unfold store
  split
  · exact hs
  · split
    · exact writeDram_calm s a bs ‹_› hs
    · exact hs

/-- The bytes that a write sets, in a memory that agrees with the old one elsewhere. -/
theorem stores_of_mem {s t u : State} {a : Nat} {data : List Byte} (ht : t.mem = memSet u.mem a data)
    (hu : s.errs = [] → ∀ x, u.byte x = s.byte x) : Stores s t a data := by
  refine ⟨fun i hi => ?_, fun hs x hx => ?_⟩
  · rw [State.byte, ht]
    exact memSet_inside u.mem a data i hi
  · rw [State.byte, ht, memSet_outside u.mem a data x hx]
    exact hu hs x

/-- A write stores its bytes and keeps every other (R186, R194). -/
theorem store_stores (s : State) (a : Nat) (bs : List PByte) : Stores s (store s a bs) a (bs.map (·.1)) := by
  unfold store
  split
  case isTrue h =>
    subst h
    exact stores_of_mem (u := s) rfl fun _ _ => rfl
  case isFalse =>
    split
    case isTrue h => exact stores_of_mem (writeDram_mem s a bs) fun hs x => (beforeWrite_keeps s a _ h hs).2.1 x
    case isFalse => exact stores_of_mem (u := s) rfl fun _ _ => rfl

end Sys2Proof.Machine

/-! ## Accesses of the platform processors (O53) -/

namespace Sys2Proof.Machine

/-! ### Faults and loads (R201, R202, R491) -/

theorem StoreFrame.plt {s t : State} (h : StoreFrame s t) : t.plt = s.plt := by
  unfold StoreFrame at h
  rw [h]

/-- A load of bytes without poison delivers them. -/
theorem platDeliver_clean (s : State) (x : PlatAccess) (bs : List PByte) : (platDeliver s x bs []).plt.lastLoad = some (some bs) := rfl

/-- A load of poisoned bytes delivers nothing, and the bite is recorded. -/
theorem platDeliver_poisoned (s : State) (x : PlatAccess) (bs : List PByte) (bad : List Nat) (h : bad ≠ []) :
    (platDeliver s x bs bad).plt.lastLoad = some none ∧
      ∃ r, (platDeliver s x bs bad).errRing = s.errRing ++ [r] ∧ r.code = 0x13 ∧ r.uclass = 0xB := by
  obtain ⟨g, l, rfl⟩ := List.exists_cons_of_ne_nil h
  exact ⟨rfl, _, rfl, rfl, rfl⟩

/-- The marked granules of a range are none exactly where the range is not poisoned. -/
theorem poisonedGranules_eq_nil (s : State) (a n : Nat) (hn : 0 < n) : poisonedGranules s a n = [] ↔ poisonedIn s a n = false := by
  unfold poisonedGranules poisonedIn
  rw [if_neg (by omega)]
  simp [hn, List.filter_eq_nil_iff, List.any_eq_false]

/-- An access of a processor that runs is its reach or its fault (R491). -/
theorem platformAccess_exec (s : State) (x : PlatAccess) (hlive : s.live = true) (hcpu : s.plt.cpus.getLsbD x.cpu.val = true)
    (hruns : s.plt.cpuHalted.getLsbD x.cpu.val = false) (hdata : x.write = true → x.data.length = x.len) :
    exec (.platformAccess x) s = .next (if windowAllows s x then platReach s x
      else accessFault (s.emit { code := 0x9A, uclass := 0xB, uinst := x.cpu.val, addr := x.addr }) x) := by
  have hlength : (x.write && x.data.length != x.len) = false := by
    cases hw : x.write with
    | false => rfl
    | true => simp [hdata hw]
  show Host.Outcome.next (if s.live then platformAccess x s else s) = _
  refine congrArg Host.Outcome.next ((if_pos hlive).trans ?_)
  unfold platformAccess
  rw [hcpu, hruns, hlength]
  rfl

/-! ### Outside the caches (R110, R520) -/

/-- A load of the DRAM or of a tile store is a read of its range. -/
theorem platReach_load (s : State) (x : PlatAccess) (hcached : cached s x = false) (hop : x.op = .load)
    (hplace : inDram x.addr x.len = true ∨ (tileCore x.addr x.len).isSome = true) :
    platReach s x = platLoad (fetchRange s x.addr x.len) x := by
  have hwrite : x.write = false := by rw [PlatAccess.write, hop]; rfl
  unfold platReach
  simp only [hcached, hop, hwrite, Bool.false_eq_true, if_false, ne_eq, not_true_eq_false, false_and, Bool.false_and]
  by_cases hdram : inDram x.addr x.len = true
  · rw [if_pos hdram]
  · rw [if_neg hdram, if_pos (hplace.resolve_left hdram)]

/-- A store to the DRAM outside the group table writes its bytes, and takes a fault inside it (R110). -/
theorem platReach_store (s : State) (x : PlatAccess) (hcached : cached s x = false) (hop : x.op = .store) (hdram : inDram x.addr x.len = true) :
    platReach s x = if groupTableHit s x.addr x.len then accessFault s x else store s x.addr (clean x.data) := by
  have hwrite : x.write = true := by rw [PlatAccess.write, hop]; rfl
  unfold platReach
  simp [hcached, hop, hwrite, hdram]

/-- A cache operation outside the caches has no effect. -/
theorem platReach_cacheOp (s : State) (x : PlatAccess) (hcached : cached s x = false) (hload : x.op ≠ .load) (hstore : x.op ≠ .store) :
    platReach s x = s := by
  unfold platReach
  simp only [hcached, Bool.false_eq_true, if_false]
  exact if_pos ⟨hload, hstore⟩

/-- The pages that exist have numbers below 128. -/
theorem pagePresent_lt {n : Nat} (h : pagePresent n = true) : n < 128 := by
  simp only [pagePresent, Bool.or_eq_true, Bool.and_eq_true, decide_eq_true_eq, beq_iff_eq] at h
  omega

/-- A load of the register pages reaches its page. -/
theorem platReach_pageAccess (s : State) (x : PlatAccess) (hcached : cached s x = false) (hop : x.op = .load) (hmode : x.mode ≠ 0)
    (hlen : x.len = 8) (halign : x.addr % 8 = 0) (hbase : Config.pageBase ≤ x.addr) (hend : x.addr + 8 ≤ Config.pageEnd) :
    platReach s x = pageAccess s x := by
  have hwrite : x.write = false := by rw [PlatAccess.write, hop]; rfl
  have hregions : Config.dramEnd < Config.pageBase ∧ Config.tileBase + 32 * Config.tileWindow ≤ Config.pageBase ∧
      Config.hotEnd ≤ Config.pageBase ∧ Config.accEnd ≤ Config.pageBase := by decide
  obtain ⟨hd, ht, hh, ha⟩ := hregions
  have hdram : inDram x.addr x.len = false := decide_eq_false (by omega)
  have htile : tileCore x.addr x.len = none := by
    have hcore : ¬ (x.addr - Config.tileBase) / Config.tileWindow < 32 := by
      simp only [Config.tileBase, Config.tileWindow, Config.pageBase] at hbase ⊢
      omega
    unfold tileCore
    rw [if_neg (by omega)]
    exact if_neg fun h => hcore h.1
  have hhot : decide (x.addr + x.len ≤ Config.hotEnd) = false := decide_eq_false (by omega)
  have hacc : decide (x.addr + x.len ≤ Config.accEnd) = false := decide_eq_false (by omega)
  have hpages : (decide (Config.pageBase ≤ x.addr) && decide (x.addr + x.len ≤ Config.pageEnd) && x.mode != 0 && x.len == 8 &&
      x.addr % 8 == 0) = true := by
    have hbelow : (x.mode != 0) = true := bne_iff_ne.2 hmode
    rw [decide_eq_true hbase, decide_eq_true (by omega), hbelow, hlen, halign]
    rfl
  unfold platReach
  simp only [hcached, hop, hdram, htile, hhot, hacc, hpages, Bool.false_eq_true, if_false, ne_eq, not_true_eq_false, false_and,
    Option.isSome_none, Bool.and_false, Bool.false_and, if_true]

/-- A load of a register page delivers the register's value (R520, R521). -/
theorem platReach_page (s : State) (x : PlatAccess) (page off : Nat) (hcached : cached s x = false) (hop : x.op = .load) (hmode : x.mode ≠ 0)
    (hlen : x.len = 8) (hpage : pagePresent page = true) (halign : off % 8 = 0) (hoff : off < 2 ^ 16)
    (haddr : x.addr = Config.pageBase + page * 2 ^ 16 + off) :
    (platReach s x).plt.lastLoad =
      some (some (clean (toBytes 8 (regValue s (if x.mode = 1 then .platformS else .platformM) page off).toNat))) := by
  have hlt := pagePresent_lt hpage
  have hwrite : x.write = false := by rw [PlatAccess.write, hop]; rfl
  have hbase : Config.pageBase = 0x7F00000000 := rfl
  have hend : Config.pageEnd = 0x7F10000000 := rfl
  have hn : (x.addr - Config.pageBase) / 2 ^ 16 = page := by omega
  have ho : (x.addr - Config.pageBase) % 2 ^ 16 = off := by omega
  have hread : regRead s (if x.mode = 1 then .platformS else .platformM) page off =
      (0, regValue s (if x.mode = 1 then .platformS else .platformM) page off, afterRead s (if x.mode = 1 then .platformS else .platformM) page off) := by
    have hmay : mayRead s (if x.mode = 1 then .platformS else .platformM) = true := by split <;> rfl
    unfold regRead
    rw [hmay, hpage]
    simpa [halign] using hoff
  rw [platReach_pageAccess s x hcached hop hmode hlen (by omega) (by omega) (by omega)]
  unfold pageAccess
  simp only [hwrite, Bool.false_eq_true, if_false, hn, ho, hread]
  rfl

/-! ### The lines of the caches (R490) -/

theorem length_mdel_le {α : Type} (m : SMap α) (i : Nat) : (mdel m i).length ≤ m.length := by
  induction m with
  | nil => exact Nat.le_refl _
  | cons e m ih =>
    unfold mdel
    split
    · exact Nat.le_succ_of_le ih
    · exact Nat.succ_le_succ ih

/-- A listed key leaves a shorter map. -/
theorem length_mdel_lt {α : Type} (d : α) (m : SMap α) (i : Nat) (h : mget d m i ≠ d) : (mdel m i).length < m.length := by
  induction m with
  | nil => exact absurd rfl h
  | cons e m ih =>
    unfold mget at h
    unfold mdel
    split at h
    case isTrue hi =>
      rw [if_pos hi]
      exact Nat.lt_succ_of_le (length_mdel_le m i)
    case isFalse hi =>
      rw [if_neg hi]
      exact Nat.succ_lt_succ (ih h)

theorem length_mins {α : Type} (m : SMap α) (i : Nat) (x : α) : (mins m i x).length = m.length + 1 := by
  induction m with
  | nil => rfl
  | cons e m ih =>
    unfold mins
    split
    · rfl
    · exact congrArg (· + 1) ih

theorem length_mset_le {α : Type} [DecidableEq α] (d : α) (m : SMap α) (i : Nat) (x : α) : (mset d m i x).length ≤ m.length + 1 := by
  have hdel := length_mdel_le m i
  unfold mset
  split
  · omega
  · rw [length_mins]
    omega

/-- A write to a key that is listed, or of the default, makes a map no longer. -/
theorem length_mset_listed {α : Type} [DecidableEq α] (d : α) (m : SMap α) (i : Nat) (x : α) (h : mget d m i ≠ d ∨ x = d) :
    (mset d m i x).length ≤ m.length := by
  unfold mset
  split
  case isTrue => exact length_mdel_le m i
  case isFalse hx =>
    rw [length_mins]
    exact length_mdel_lt d m i (h.resolve_right hx)

@[simp] theorem line_setLine (s : State) (g h : Nat) (l : Option CacheLine) : (s.setLine g l).line h = if h = g then l else s.line h :=
  mget_mset none s.plt.cache g h l

theorem length_setLine_le (s : State) (g : Nat) (l : Option CacheLine) : (s.setLine g l).plt.cache.length ≤ s.plt.cache.length + 1 :=
  length_mset_le none s.plt.cache g l

theorem length_setLine_listed (s : State) (g : Nat) (l : Option CacheLine) (h : s.line g ≠ none ∨ l = none) :
    (s.setLine g l).plt.cache.length ≤ s.plt.cache.length := length_mset_listed none s.plt.cache g l h

/-- The bytes of granule g with their mark, as the cluster sees them: its line's, or those of the DRAM. -/
def State.seen (s : State) (g : Nat) : List Byte × Bool :=
  match s.line g with
  | some l => (l.bytes, l.psn)
  | none => (readB s (64 * g) 64, s.mark g)

theorem seen_of_line {s : State} {g : Nat} {l : CacheLine} (h : s.line g = some l) : s.seen g = (l.bytes, l.psn) := by
  rw [State.seen, h]

theorem nth_readB (s : State) (a n i : Nat) (h : i < n) : nth (readB s a n) i 0 = s.byte (a + i) := nth_map_range _ _ h

theorem seenByte_eq (s : State) (a : Nat) : seenByte s a = nth (s.seen (a / 64)).1 (a % 64) 0 := by
  unfold seenByte State.seen
  cases s.line (a / 64) with
  | some l => rfl
  | none =>
    dsimp only
    rw [nth_readB s _ _ _ (Nat.mod_lt a (by decide)), Nat.div_add_mod]

/-- Between s and t lines have come and gone between the caches, and what the cluster sees has stayed. -/
structure Fills (s t : State) : Prop where
  state : t = { s with plt := { s.plt with cache := t.plt.cache }, fresh := t.fresh }
  seen : ∀ g, t.seen g = s.seen g

namespace Fills

theorem refl (s : State) : Fills s s := ⟨rfl, fun _ => rfl⟩

theorem trans {s t u : State} (h : Fills s t) (h' : Fills t u) : Fills s u := by
  refine ⟨?_, fun g => (h'.seen g).trans (h.seen g)⟩
  have hu := h'.state
  rw [h.state] at hu
  exact hu

theorem errorFree {s t : State} (h : Fills s t) (hs : ErrorFree s) : ErrorFree t := by
  rw [h.state]
  exact hs

theorem draw (s : State) : Fills s s.draw := ⟨rfl, fun _ => rfl⟩

/-- A line set to the bytes and the mark that are seen there. -/
theorem setLine (s : State) (g : Nat) (l : CacheLine) (h : (l.bytes, l.psn) = s.seen g) : Fills s (s.setLine g (some l)) := by
  refine ⟨rfl, fun g' => ?_⟩
  by_cases hg : g' = g
  · subst hg
    rw [← h]
    exact seen_of_line (by rw [line_setLine, if_pos rfl])
  · unfold State.seen
    rw [line_setLine, if_neg hg]
    rfl

/-- A line that leaves a core's own cache stays in the shared one. -/
theorem roomL2 (s : State) (k : Nat) : Fills s (roomL2 s k) ∧ (roomL2 s k).plt.cache.length ≤ s.plt.cache.length := by
  unfold Machine.roomL2
  extract_lets mine g
  split
  · exact ⟨refl s, Nat.le_refl _⟩
  · cases hl : s.line g with
    | some l =>
      have hlisted : s.draw.line g ≠ none := fun h => Option.some_ne_none l (hl.symm.trans h)
      exact ⟨(draw s).trans (setLine s.draw g _ (seen_of_line hl).symm), length_setLine_listed s.draw g _ (Or.inl hlisted)⟩
    | none =>
      refine ⟨⟨rfl, fun g' => ?_⟩, length_setLine_listed s.draw g _ (Or.inr rfl)⟩
      unfold State.seen
      rw [Option.map_none, line_setLine]
      by_cases hg : g' = g
      · rw [if_pos hg, hg, hl]
        rfl
      · rw [if_neg hg]
        rfl

/-- With room in the shared cache and no error standing, a core gets a line with what is seen there. -/
theorem fillLine (k : Nat) (s : State) (g : Nat) (hfree : ErrorFree s) (hroom : s.plt.cache.length < sharedLines) :
    Fills s (fillLine k s g) ∧ ((fillLine k s g).line g).isSome = true ∧ (fillLine k s g).plt.cache.length ≤ s.plt.cache.length + 1 := by
  obtain ⟨hfills, hlength⟩ := roomL2 s k
  unfold Machine.fillLine
  cases hl : s.line g with
  | some l =>
    dsimp only
    split
    · exact ⟨refl s, by rw [hl]; rfl, Nat.le_succ _⟩
    · refine ⟨hfills.trans (setLine _ g _ ?_), by rw [line_setLine, if_pos rfl]; rfl, (length_setLine_le _ _ _).trans (Nat.succ_le_succ hlength)⟩
      rw [hfills.seen]
      exact (seen_of_line hl).symm
  | none =>
    dsimp only
    have hshared : roomShared (Machine.roomL2 s k) = Machine.roomL2 s k := if_pos (by rw [List.length_map]; omega)
    obtain ⟨herrs, hmeta, hsram, -⟩ := hfills.errorFree hfree
    have hfetch : fetchRange (Machine.roomL2 s k) (64 * g) 64 = Machine.roomL2 s k := fetchRange_quiet _ _ _ herrs hmeta hsram
    have hseen : s.seen g = (readB s (64 * g) 64, s.mark g) := by rw [State.seen, hl]
    rw [hshared, hfetch]
    refine ⟨hfills.trans (setLine _ g _ ?_), by rw [line_setLine, if_pos rfl]; rfl, (length_setLine_le _ _ _).trans (Nat.succ_le_succ hlength)⟩
    rw [hfills.seen, hseen, hfills.state]
    rfl

end Fills

/-! ### Loads and stores through the caches (R490) -/

/-- The granules of a range are those that its bytes lie in. -/
theorem mem_granulesOf {a n x : Nat} (h : a ≤ x) (h' : x < a + n) : x / 64 ∈ granulesOf a n := by
  unfold granulesOf
  rw [if_neg (by omega), List.mem_map]
  exact ⟨x / 64 - a / 64, List.mem_range.2 (by omega), by omega⟩

theorem granulesOf_ascending (a n : Nat) : (granulesOf a n).Pairwise (· < ·) := by
  unfold granulesOf
  split
  · exact List.Pairwise.nil
  · exact List.pairwise_map.2 (List.pairwise_lt_range.imp fun h => by omega)

/-- The addresses of consecutive granules. -/
theorem flatMap_granules (g m : Nat) : ((List.range m).map (g + ·)).flatMap (fun g => List.range' (64 * g) 64) = List.range' (64 * g) (64 * m) := by
  induction m with
  | zero => rfl
  | succ m ih =>
    rw [List.range_succ, List.map_append, List.flatMap_append, ih, Nat.mul_succ, ← List.range'_append_1]
    simp [Nat.mul_add]

/-- The addresses of a range within a longer one. -/
theorem filter_range' (lo len a n : Nat) (h : lo ≤ a) (h' : a + n ≤ lo + len) :
    (List.range' lo len).filter (fun x => decide (a ≤ x) && decide (x < a + n)) = List.range' a n := by
  obtain ⟨d, rfl⟩ := Nat.exists_eq_add_of_le h
  obtain ⟨e, rfl⟩ : ∃ e, len = d + (n + e) := ⟨len - d - n, by omega⟩
  rw [← List.range'_append_1, ← List.range'_append_1, List.filter_append, List.filter_append,
    List.filter_eq_nil_iff.2 fun x hx => ?below, List.filter_eq_self.2 fun x hx => ?within, List.filter_eq_nil_iff.2 fun x hx => ?above,
    List.nil_append, List.append_nil]
  case below =>
    have := List.mem_range'_1.1 hx
    simp only [Bool.and_eq_true, decide_eq_true_eq]
    omega
  case within =>
    have := List.mem_range'_1.1 hx
    simp only [Bool.and_eq_true, decide_eq_true_eq]
    omega
  case above =>
    have := List.mem_range'_1.1 hx
    simp only [Bool.and_eq_true, decide_eq_true_eq]
    omega

/-- The bytes of a range, granule by granule. -/
theorem flatMap_granulesOf {β : Type} (a n : Nat) (f : Nat → β) :
    ((granulesOf a n).flatMap fun g =>
      ((List.range 64).filter fun i => decide (a ≤ 64 * g + i) && decide (64 * g + i < a + n)).map fun i => f (64 * g + i)) =
      (List.range n).map fun i => f (a + i) := by
  have hgranule : ∀ g, (((List.range 64).filter fun i => decide (a ≤ 64 * g + i) && decide (64 * g + i < a + n)).map fun i => f (64 * g + i)) =
      ((List.range' (64 * g) 64).filter fun x => decide (a ≤ x) && decide (x < a + n)).map f := fun g => by
    rw [List.range'_eq_map_range, List.filter_map, List.map_map]
    rfl
  simp only [hgranule]
  unfold granulesOf
  split
  case isTrue h =>
    subst h
    rfl
  case isFalse h =>
    rw [← List.map_flatMap, ← List.filter_flatMap, flatMap_granules, filter_range' _ _ _ _ (by omega) (by omega), List.range'_eq_map_range,
      List.map_map]
    rfl

/-- The bytes of an access that lie in a granule, as the cluster sees them. -/
def seenBytes (s : State) (x : PlatAccess) (g : Nat) : List PByte :=
  ((List.range 64).filter fun i => decide (x.addr ≤ 64 * g + i) && decide (64 * g + i < x.addr + x.len)).map fun i =>
    (nth (s.seen g).1 i 0, (s.seen g).2)

theorem lineBytes_eq {s : State} {g : Nat} (x : PlatAccess) (h : (s.line g).isSome = true) : lineBytes s x g = seenBytes s x g := by
  obtain ⟨l, hl⟩ := Option.isSome_iff_exists.1 h
  unfold lineBytes seenBytes
  rw [hl, seen_of_line hl]

/-- A load through the caches gathers what the cluster sees. -/
theorem cacheLoad_fold (x : PlatAccess) (l : List Nat) (s : State) (bs : List PByte) (hfree : ErrorFree s)
    (hroom : s.plt.cache.length + l.length ≤ sharedLines) :
    (l.foldl (fun (r : State × List PByte) g =>
      let s := fillLine x.cpu.val r.1 g
      (s, r.2 ++ lineBytes s x g)) (s, bs)).2 = bs ++ l.flatMap (seenBytes s x) := by
  induction l generalizing s bs with
  | nil => exact (List.append_nil bs).symm
  | cons g l ih =>
    rw [List.length_cons] at hroom
    obtain ⟨hfills, hsome, hlength⟩ := Fills.fillLine x.cpu.val s g hfree (by omega)
    have hseen : ∀ g', seenBytes (fillLine x.cpu.val s g) x g' = seenBytes s x g' := fun g' => by rw [seenBytes, hfills.seen, seenBytes]
    rw [List.foldl_cons, ih _ _ (hfills.errorFree hfree) (by omega), lineBytes_eq x hsome, List.flatMap_cons, List.append_assoc, hseen]
    simp only [funext hseen]

/-- A load through the caches delivers what the cluster sees where none of it is marked. -/
theorem cacheAccess_load (s : State) (x : PlatAccess) (hop : x.op = .load) (hfree : ErrorFree s)
    (hroom : s.plt.cache.length + (granulesOf x.addr x.len).length ≤ sharedLines) (hclean : ∀ g ∈ granulesOf x.addr x.len, (s.seen g).2 = false) :
    (cacheAccess s x).plt.lastLoad = some (some (clean ((List.range x.len).map fun i => seenByte s (x.addr + i)))) := by
  have hbytes : (cacheLoad s x).2 = clean ((List.range x.len).map fun i => seenByte s (x.addr + i)) := by
    have hgranule : ∀ g ∈ granulesOf x.addr x.len, seenBytes s x g =
        ((List.range 64).filter fun i => decide (x.addr ≤ 64 * g + i) && decide (64 * g + i < x.addr + x.len)).map fun i =>
          (seenByte s (64 * g + i), false) := fun g hg => by
      refine List.map_congr_left fun i hi => ?_
      have hi := List.mem_range.1 (List.mem_of_mem_filter hi)
      rw [hclean g hg, seenByte_eq, show (64 * g + i) / 64 = g by omega, show (64 * g + i) % 64 = i by omega]
    unfold cacheLoad
    rw [cacheLoad_fold x _ s [] hfree hroom, List.nil_append, List.flatMap_congr hgranule, flatMap_granulesOf x.addr x.len fun a => (seenByte s a, false)]
    simp [clean]
  have hunmarked : poisonedOf x.addr (cacheLoad s x).2 = [] := by
    have hnone : ∀ b ∈ ((cacheLoad s x).2).zipIdx, b.1.2 = false := fun b hb => by
      rw [hbytes] at hb
      obtain ⟨e, -, he⟩ := List.mem_map.1 (List.fst_mem_of_mem_zipIdx hb)
      rw [← he]
    unfold poisonedOf
    rw [List.filter_eq_nil_iff.2 fun b hb => by rw [hnone b hb]; exact Bool.false_ne_true]
    rfl
  unfold cacheAccess
  rw [hop]
  dsimp only
  rw [hunmarked, platDeliver_clean, hbytes]

/-- A store into a line that a core holds sets the bytes of the access that lie in it. -/
theorem storeLine_seenByte (x : PlatAccess) (s : State) (g : Nat) (h : (s.line g).isSome = true) (a : Nat) :
    seenByte (storeLine x s g) a =
      if a / 64 = g ∧ x.addr ≤ a ∧ a < x.addr + x.len then nth x.data (a - x.addr) 0 else seenByte s a := by
  obtain ⟨l, hl⟩ := Option.isSome_iff_exists.1 h
  unfold storeLine
  rw [hl]
  dsimp only
  unfold seenByte
  rw [line_setLine]
  by_cases hg : a / 64 = g
  · have ha : 64 * g + a % 64 = a := by omega
    rw [if_pos hg]
    dsimp only
    rw [nth_map_range _ _ (Nat.mod_lt a (by decide)), ha, hg, hl]
    by_cases hin : x.addr ≤ a ∧ a < x.addr + x.len
    · rw [if_pos hin, if_pos ⟨rfl, hin⟩]
    · rw [if_neg hin, if_neg fun h => hin h.2]
  · rw [if_neg hg, if_neg fun h => hg h.1]
    rfl

/-- A store line by line sets the bytes of the access that lie in the granules. -/
theorem cacheStore_fold (x : PlatAccess) (l : List Nat) (s : State) (hfree : ErrorFree s) (hroom : s.plt.cache.length + l.length ≤ sharedLines)
    (a : Nat) :
    seenByte (l.foldl (fun s g => storeLine x (fillLine x.cpu.val s g) g) s) a =
      if a / 64 ∈ l ∧ x.addr ≤ a ∧ a < x.addr + x.len then nth x.data (a - x.addr) 0 else seenByte s a := by
  induction l generalizing s with
  | nil => simp
  | cons g l ih =>
    rw [List.length_cons] at hroom
    obtain ⟨hfills, hsome, hlength⟩ := Fills.fillLine x.cpu.val s g hfree (by omega)
    obtain ⟨c, hc⟩ := Option.isSome_iff_exists.1 hsome
    have hstored : ErrorFree (storeLine x (fillLine x.cpu.val s g) g) ∧
        (storeLine x (fillLine x.cpu.val s g) g).plt.cache.length ≤ (fillLine x.cpu.val s g).plt.cache.length := by
      unfold storeLine
      rw [hc]
      exact ⟨hfills.errorFree hfree, length_setLine_listed _ g _ (Or.inl (by rw [hc]; exact Option.some_ne_none c))⟩
    have hseen : seenByte (fillLine x.cpu.val s g) a = seenByte s a := by rw [seenByte_eq, hfills.seen, ← seenByte_eq]
    rw [List.foldl_cons, ih _ hstored.1 (by omega), storeLine_seenByte x _ g hsome, hseen]
    by_cases hin : x.addr ≤ a ∧ a < x.addr + x.len
    · by_cases hg : a / 64 = g <;> simp [hin, hg]
    · simp [hin]

/-! ### Cache operations (R490) -/

theorem inval_fold (l : List Nat) (s : State) (g : Nat) :
    (l.foldl (fun s g => s.setLine g none) s).line g = if g ∈ l then none else s.line g := by
  induction l generalizing s with
  | nil => rfl
  | cons h l ih =>
    rw [List.foldl_cons, ih, line_setLine]
    by_cases hg : g = h <;> simp [hg]

/-- A step on one granule that writes its changed line back, after which its line is `after`. -/
structure WritesBack (f : State → Nat → State) (after : CacheLine → Option CacheLine) : Prop where
  calm : ∀ s g, Calm s → Calm (f s g)
  others : ∀ s g h, h ≠ g → (f s g).line h = s.line h
  below : ∀ s g, Calm s → ∀ a < 64 * g, (f s g).byte a = s.byte a
  writes : ∀ s g l, s.line g = some l → l.dirty = true → l.bytes.length = 64 →
    readB (f s g) (64 * g) 64 = l.bytes ∧ (f s g).line g = after l

namespace WritesBack

variable {f : State → Nat → State} {after : CacheLine → Option CacheLine}

/-- Steps on other granules, all above one, leave its line and its bytes. -/
theorem foldl_above (h : WritesBack f after) (l : List Nat) (g : Nat) (hl : ∀ g' ∈ l, g < g') (s : State) (hs : Calm s) :
    readB (l.foldl f s) (64 * g) 64 = readB s (64 * g) 64 ∧ (l.foldl f s).line g = s.line g := by
  induction l generalizing s with
  | nil => exact ⟨rfl, rfl⟩
  | cons g' l ih =>
    have hlt := hl g' List.mem_cons_self
    obtain ⟨hbytes, hline⟩ := ih (fun e he => hl e (List.mem_cons_of_mem g' he)) (f s g') (h.calm s g' hs)
    rw [List.foldl_cons, hbytes, hline, h.others s g' g (by omega)]
    refine ⟨List.map_congr_left fun i hi => h.below s g' hs _ ?_, rfl⟩
    have := List.mem_range.1 hi
    omega

/-- Steps on other granules leave the line of one. -/
theorem foldl_others (h : WritesBack f after) (l : List Nat) (g : Nat) (hl : g ∉ l) (s : State) (hs : Calm s) :
    Calm (l.foldl f s) ∧ (l.foldl f s).line g = s.line g := by
  induction l generalizing s with
  | nil => exact ⟨hs, rfl⟩
  | cons g' l ih =>
    have hne : g ≠ g' := fun he => hl (he ▸ List.mem_cons_self)
    obtain ⟨hcalm, hline⟩ := ih (fun hmem => hl (List.mem_cons_of_mem g' hmem)) (f s g') (h.calm s g' hs)
    exact ⟨hcalm, hline.trans (h.others s g' g hne)⟩

/-- The steps over ascending granules write each changed line of 64 bytes back. -/
theorem foldl (h : WritesBack f after) (l : List Nat) (hl : l.Pairwise (· < ·)) (s : State) (hs : Calm s) (g : Nat) (hg : g ∈ l) (c : CacheLine)
    (hc : s.line g = some c) (hdirty : c.dirty = true) (hlen : c.bytes.length = 64) :
    readB (l.foldl f s) (64 * g) 64 = c.bytes ∧ (l.foldl f s).line g = after c := by
  obtain ⟨l1, l2, rfl⟩ := List.append_of_mem hg
  obtain ⟨-, hl2, hl12⟩ := List.pairwise_append.1 hl
  have hbefore : g ∉ l1 := fun hmem => Nat.lt_irrefl g (hl12 g hmem g List.mem_cons_self)
  obtain ⟨hcalm, hline⟩ := h.foldl_others l1 g hbefore s hs
  obtain ⟨hbytes, hafter⟩ := h.writes _ g c (hline.trans hc) hdirty hlen
  obtain ⟨hbytes', hline'⟩ := h.foldl_above l2 g (List.pairwise_cons.1 hl2).1 _ (h.calm _ g hcalm)
  rw [List.foldl_append, List.foldl_cons]
  exact ⟨hbytes'.trans hbytes, hline'.trans hafter⟩

end WritesBack

/-- A line that is written back: its bytes go to the DRAM. -/
theorem writeBack_dirty {s : State} {g : Nat} {l : CacheLine} (h : s.line g = some l) (hdirty : l.dirty = true) :
    writeBack s g = store (s.setLine g (some { l with dirty := false })) (64 * g) (marked l.psn l.bytes) := by
  unfold writeBack
  rw [h]
  exact if_pos hdirty

theorem line_store (s : State) (a : Nat) (bs : List PByte) (g : Nat) : (store s a bs).line g = s.line g := by
  rw [State.line, (StoreFrame.store s a bs).plt]
  rfl

/-- A granule without a changed line is left. -/
theorem writeBack_clean {s : State} {g : Nat} (h : ∀ l, s.line g = some l → l.dirty = false) : writeBack s g = s := by
  unfold writeBack
  split
  · rename_i l hl
    rw [h l hl]
    rfl
  · rfl

theorem writeBack_cases (s : State) (g : Nat) : writeBack s g = s ∨ ∃ l, s.line g = some l ∧ l.dirty = true := by
  by_cases h : ∃ l, s.line g = some l ∧ l.dirty = true
  · exact Or.inr h
  · exact Or.inl (writeBack_clean fun l hl => Bool.eq_false_iff.2 fun hd => h ⟨l, hl, hd⟩)

theorem writesBack_writeBack : WritesBack writeBack fun l => some { l with dirty := false } where
  calm s g hs := by
    obtain h | ⟨l, hl, hd⟩ := writeBack_cases s g
    · rwa [h]
    · rw [writeBack_dirty hl hd]
      exact store_calm _ _ _ hs
  others s g h hne := by
    obtain h' | ⟨l, hl, hd⟩ := writeBack_cases s g
    · rw [h']
    · rw [writeBack_dirty hl hd, line_store, line_setLine, if_neg hne]
  below s g hs a ha := by
    obtain h | ⟨l, hl, hd⟩ := writeBack_cases s g
    · rw [h]
    · rw [writeBack_dirty hl hd]
      exact (store_stores (s.setLine g (some { l with dirty := false })) (64 * g) (marked l.psn l.bytes)).2 hs.1 a (Or.inl ha)
  writes s g l hl hd hlen := by
    rw [writeBack_dirty hl hd, line_store, line_setLine, if_pos rfl]
    refine ⟨List.ext_getElem (by simp [readB, hlen]) fun i hi hi' => ?_, rfl⟩
    have hbytes := (store_stores (s.setLine g (some { l with dirty := false })) (64 * g) (marked l.psn l.bytes)).1 i (by simpa using hi')
    simpa [readB] using hbytes

theorem writesBack_flush : WritesBack (fun s g => (writeBack s g).setLine g none) fun _ => none where
  calm s g hs := writesBack_writeBack.calm s g hs
  others s g h hne := by rw [line_setLine, if_neg hne, writesBack_writeBack.others s g h hne]
  below s g hs := writesBack_writeBack.below s g hs
  writes s g l hl hd hlen := ⟨(writesBack_writeBack.writes s g l hl hd hlen).1, by rw [line_setLine, if_pos rfl]⟩

/-! ### The accesses -/

/-- An access that a window allows in a cached region goes through the caches. -/
theorem platReach_cached {s : State} {x : PlatAccess} (hcached : cached s x = true) : platReach s x = cacheAccess s x := if_pos hcached

/-- A line without poison, or an unmarked granule where there is none, is seen without poison. -/
theorem seen_unmarked {s : State} {g : Nat} (h : match s.line g with | some l => l.psn = false | none => s.mark g = false) :
    (s.seen g).2 = false := by
  unfold State.seen
  cases hl : s.line g with
  | some l => rwa [hl] at h
  | none => rwa [hl] at h

/-- A store through the caches sets the bytes of its range. -/
theorem cacheAccess_store (s : State) (x : PlatAccess) (hop : x.op = .store) (hfree : ErrorFree s)
    (hroom : s.plt.cache.length + (granulesOf x.addr x.len).length ≤ sharedLines) (a : Nat) :
    seenByte (cacheAccess s x) a = if x.addr ≤ a ∧ a < x.addr + x.len then nth x.data (a - x.addr) 0 else seenByte s a := by
  have hfold := cacheStore_fold x _ s hfree hroom a
  unfold cacheAccess
  rw [hop]
  dsimp only
  rw [hfold]
  by_cases hin : x.addr ≤ a ∧ a < x.addr + x.len
  · rw [if_pos hin, if_pos ⟨mem_granulesOf hin.1 hin.2, hin⟩]
  · rw [if_neg hin, if_neg fun h => hin h.2]

/-- Invalidating drops the lines of the range and leaves the memory. -/
theorem cacheAccess_inval (s : State) (x : PlatAccess) (hop : x.op = .inval) :
    (cacheAccess s x).mem = s.mem ∧ ∀ g ∈ granulesOf x.addr x.len, (cacheAccess s x).line g = none := by
  unfold cacheAccess
  rw [hop]
  exact ⟨foldl_mem (fun s g => s.setLine g none) (fun _ _ => rfl) _ s, fun g hg => by rw [inval_fold, if_pos hg]⟩

/-- Cleaning and flushing are the steps that write a line back, over the granules of the range. -/
theorem cacheAccess_clean (s : State) (x : PlatAccess) (hop : x.op = .clean) :
    cacheAccess s x = (granulesOf x.addr x.len).foldl writeBack s := by
  unfold cacheAccess
  rw [hop]

theorem cacheAccess_flush (s : State) (x : PlatAccess) (hop : x.op = .flush) :
    cacheAccess s x = (granulesOf x.addr x.len).foldl (fun s g => (writeBack s g).setLine g none) s := by
  unfold cacheAccess
  rw [hop]

/-- Settles O53: an access that runs is its reach, which is the caches' in a cached window and else its region's. -/
theorem platformAccesses : Obligations.PlatformAccesses := by
  unfold Obligations.PlatformAccesses
  intro s x page off gs f agent runs delivers hlive hcpu hruns hdata
  have hexec := platformAccess_exec s x hlive hcpu hruns hdata
  refine ⟨fun hdenied => ?_, fun hallowed hcached hpos => ?_, fun hallowed hcached hfree hroom => ?_⟩
  · rw [if_neg (by rw [hdenied]; exact Bool.false_ne_true)] at hexec
    exact ⟨_, hexec, rfl, rfl, rfl, _, rfl, rfl⟩
  · rw [if_pos hallowed] at hexec
    refine ⟨fun hop hplace => ⟨fun hclean => ⟨_, hexec, ?_⟩, fun hpoison => ⟨_, hexec, ?_⟩⟩, fun hop hdram => ⟨fun hout => ⟨_, hexec, ?_⟩,
      fun hhit => ⟨_, hexec, ?_⟩⟩, fun hload hstore => ?_, fun hop hmode hlen hpage halign hoff haddr => ⟨_, hexec, ?_⟩⟩
    · rw [platReach_load s x hcached hop hplace, platLoad, (poisonedGranules_eq_nil f x.addr x.len hpos).2 hclean]
      exact platDeliver_clean f x _
    · rw [platReach_load s x hcached hop hplace]
      refine platDeliver_poisoned f x _ _ fun hnil => ?_
      exact Bool.false_ne_true (((poisonedGranules_eq_nil f x.addr x.len hpos).1 hnil).symm.trans hpoison)
    · rw [platReach_store s x hcached hop hdram, hout, if_neg Bool.false_ne_true]
      have hstores := store_stores s x.addr (clean x.data)
      rwa [map_fst_clean] at hstores
    · rw [platReach_store s x hcached hop hdram, hhit, if_pos rfl]
      exact ⟨rfl, rfl⟩
    · rw [hexec, platReach_cacheOp s x hcached hload hstore]
    · exact platReach_page s x page off hcached hop hmode hlen hpage halign hoff haddr
  · rw [if_pos hallowed, platReach_cached hcached] at hexec
    obtain ⟨herrs, -, -, harm⟩ := id hfree
    have hcalm : Calm s := ⟨herrs, harm⟩
    have hascending : gs.Pairwise (· < ·) := granulesOf_ascending x.addr x.len
    refine ⟨fun hop hclean => ⟨_, hexec, cacheAccess_load s x hop hfree hroom fun g hg => seen_unmarked (hclean g hg)⟩,
      fun hop => ⟨_, hexec, cacheAccess_store s x hop hfree hroom⟩, fun hop => ⟨_, hexec, cacheAccess_inval s x hop⟩,
      fun g hg l hl hdirty hlen => ⟨fun hop => ⟨_, hexec, ?_⟩, fun hop => ⟨_, hexec, ?_⟩⟩⟩
    · rw [cacheAccess_clean s x hop]
      exact writesBack_writeBack.foldl gs hascending s hcalm g hg l hl hdirty hlen
    · rw [cacheAccess_flush s x hop]
      exact writesBack_flush.foldl gs hascending s hcalm g hg l hl hdirty hlen

end Sys2Proof.Machine

/-! ## The bundle word decoded and encoded again (O55) -/

namespace Sys2Proof.Machine

/-- Adjacent fields of a word, the upper one first, are one field. -/
theorem adjacent_fields {n : Nat} (w : BitVec n) (hi lo len₁ len₂ : Nat) (h : hi = lo + len₁) :
    (w.extractLsb' hi len₂).append (w.extractLsb' lo len₁) = w.extractLsb' lo (len₂ + len₁) :=
  BitVec.extractLsb'_append_extractLsb'_eq_extractLsb' h

theorem encodeHeader_decodeHeader (w : BitVec 8) : encodeHeader (decodeHeader w) = w := by
  revert w
  decide

theorem encodeScalar_decodeScalar (w : BitVec 40) : encodeScalar (decodeScalar w) = w := by
  unfold encodeScalar decodeScalar
  dsimp only [HAppend.hAppend]
  simp only [adjacent_fields, Nat.reduceAdd, BitVec.extractLsb'_eq_self]

theorem encodeMatrix_decodeMatrix (w : BitVec 64) : encodeMatrix (decodeMatrix w) = w := by
  unfold encodeMatrix decodeMatrix
  dsimp only [HAppend.hAppend]
  simp only [adjacent_fields, Nat.reduceAdd, BitVec.extractLsb'_eq_self]

theorem encodeVector_decodeVector (w : BitVec 64) : encodeVector (decodeVector w) = w := by
  unfold encodeVector decodeVector
  dsimp only [HAppend.hAppend]
  simp only [adjacent_fields, Nat.reduceAdd, BitVec.extractLsb'_eq_self]

theorem encodeMove_decodeMove (w : BitVec 48) : encodeMove (decodeMove w) = w := by
  unfold encodeMove decodeMove
  dsimp only [HAppend.hAppend]
  simp only [adjacent_fields, Nat.reduceAdd, BitVec.extractLsb'_eq_self]

theorem encodeSync_decodeSync (w : BitVec 32) : encodeSync (decodeSync w) = w := by
  unfold encodeSync decodeSync
  dsimp only [HAppend.hAppend]
  simp only [adjacent_fields, Nat.reduceAdd, BitVec.extractLsb'_eq_self]

/-- A word is the encoding of the bundle that it decodes to. -/
theorem encodeBundle_decodeBundle (w : BitVec 256) : encodeBundle (decodeBundle w) = w := by
  unfold encodeBundle decodeBundle
  dsimp only [HAppend.hAppend, bitsAt]
  simp only [encodeHeader_decodeHeader, encodeScalar_decodeScalar, encodeMatrix_decodeMatrix, encodeVector_decodeVector,
    encodeMove_decodeMove, encodeSync_decodeSync, adjacent_fields, Nat.reduceAdd, BitVec.extractLsb'_eq_self]

/-- Settles O55: slot by slot, the fields of a decoded word stand side by side again. -/
theorem bundlesDecodeAsEncoded : Obligations.BundlesDecodeAsEncoded := ⟨decodeBundle_encodeBundle, encodeBundle_decodeBundle⟩

end Sys2Proof.Machine

/-! ## Vector permutations (O8) -/

namespace Sys2Proof.Machine

/-- A permutation moves whole lanes from their source lanes. -/
theorem permutation_writesLanes (s : State) (i : Instr) (c : CoreId) (f : VFields) (op : BitVec 6) (new : Nat → Lane)
    (hb : opBundle i = some (c, vectorBundle (f.slot op))) (hx : op ≠ 0)
    (ho : vecOut s c (s.core c) (f.slot op) = vecPerm (s.core c) (f.slot op))
    (hnew : ∀ n < 256, permSource op.toNat f.imm.toNat n ((s.core c).vreg f.b) ((s.core c).vreg f.c) = new n) :
    WritesLanes s c i f new :=
  writesLanes_of s i c f op new _ hb hx _ ho rfl rfl rfl rfl fun n hn => (laneAt_lanes256 _ n hn).trans (hnew n hn)

/-- Settles O8: each operation is a permutation, whose source lanes are those of R153. -/
theorem vectorPermutations : Obligations.VectorPermutations := by
  unfold Obligations.VectorPermutations
  intro s c f k b d imm
  have lanes := fun (i : Instr) (op : BitVec 6) (new : Nat → Lane) => permutation_writesLanes s i c f op new
  exact ⟨lanes _ 0x34 _ rfl (by decide) rfl fun n _ => rfl,
    lanes _ 0x35 _ rfl (by decide) rfl fun n _ => congrArg (laneAt (k.vreg f.b)) (Nat.add_mod_mod n imm 256),
    lanes _ 0x36 _ rfl (by decide) rfl fun n _ => rfl,
    lanes _ 0x37 _ rfl (by decide) rfl fun n _ => rfl⟩

end Sys2Proof.Machine

/-! ## Branches (O4) -/

namespace Sys2Proof.Machine

theorem setSreg_keeps (k : Core) (r : BitVec 5) (v : Word) :
    (k.setSreg r v).pc = k.pc ∧ (k.setSreg r v).tokens = k.tokens ∧ (k.setSreg r v).step = k.step := by
  unfold Core.setSreg
  split <;> exact ⟨rfl, rfl, rfl⟩

/-- The issue of a bundle, a branch or not, leaves the scalar registers, the token counters and the step of its core (R135, R147). -/
theorem advance_registers (c : Nat) (next : Option (BitVec 32)) (t : State) :
    ((advance c next t).core c).sregs = (t.core c).sregs ∧ ((advance c next t).core c).tokens = (t.core c).tokens ∧
      ((advance c next t).core c).step = (t.core c).step := by
  unfold advance
  dsimp only
  rw [core_modCore_self]
  cases next with
  | none => exact ⟨rfl, rfl, rfl⟩
  | some b =>
    dsimp only
    split <;> exact ⟨rfl, rfl, rfl⟩

/-- State t is s after a bundle of core c that wrote scalar register r alone and went to `pc`: memory, marks, entries, records, the other
registers and the other cores have stayed. -/
def BranchedTo (s : State) (c : CoreId) (r : BitVec 5) (v : Word) (pc : BitVec 32) (t : State) : Prop :=
  (t.core c).pc = pc ∧ (t.core c).sregs = ((s.core c).setSreg r v).sregs ∧ (t.core c).tokens = (s.core c).tokens ∧
    (t.core c).step = (s.core c).step ∧ t.mem = s.mem ∧ t.marks = s.marks ∧ t.acc = s.acc ∧ t.errRing = s.errRing ∧
    ∀ d : CoreId, d ≠ c → t.core d = s.core d

/-- A write of a scalar register and the issue with a branch target. -/
theorem branchedTo_advance (s : State) (c : CoreId) (r : BitVec 5) (v : Word) (next : Option (BitVec 32)) :
    BranchedTo s c r v (next.getD ((s.core c).pc + 1)) (advance c next (s.modCore c fun k => k.setSreg r v)) := by
  obtain ⟨hpc, -⟩ := advance_core c next (s.modCore c fun k => k.setSreg r v)
  obtain ⟨hsregs, htokens, hstep⟩ := advance_registers c next (s.modCore c fun k => k.setSreg r v)
  obtain ⟨hpc', htokens', hstep'⟩ := setSreg_keeps (s.core c) r v
  rw [core_modCore_self] at hpc hsregs htokens hstep
  refine ⟨by rw [hpc, hpc'], hsregs, htokens.trans htokens', hstep.trans hstep', rfl, rfl, rfl, rfl, fun d hd => ?_⟩
  have hne : (d : Nat) ≠ c := fun h => hd (Fin.ext h)
  exact (core_modCore_ne _ _ _ hne).trans (core_modCore_ne _ _ _ hne)

/-- The issue with a branch target and no register written. -/
theorem branchedTo_advance_zero (s : State) (c : CoreId) (next : Option (BitVec 32)) :
    BranchedTo s c 0 0 (next.getD ((s.core c).pc + 1)) (advance c next s) := by
  obtain ⟨hpc, -⟩ := advance_core c next s
  obtain ⟨hsregs, htokens, hstep⟩ := advance_registers c next s
  exact ⟨hpc, hsregs.trans (congrArg Core.sregs (setSreg_zero _ _).symm), htokens, hstep, rfl, rfl, rfl, rfl,
    fun d hd => core_modCore_ne _ _ _ fun h => hd (Fin.ext h)⟩

/-- A scalar operation that runs onward and issues at once is its effect and the issue, with its branch target. -/
theorem scalar_exec_onward (s : State) (i : Instr) (c : CoreId) (x : ScalarSlot) (hb : opBundle i = some (c, scalarBundle x))
    (h : Issues s i) (hop : runsOnward x.op = true) :
    exec i s = .next (advance c (branchTarget (s.core c) x) (scalarApply c (s.core c).pc x s s)) := by
  unfold runsOnward at hop
  simp only [Bool.and_eq_true, bne_iff_ne] at hop
  obtain ⟨⟨htestwin, htrap⟩, hend⟩ := hop
  exact scalar_exec s i c x hb h htestwin htrap hend

/-- Settles O4: a branch is the issue with its target, LOOP after the write of its counter. -/
theorem branches : Obligations.Branches := by
  unfold Obligations.Branches
  intro s c sa imm k goes
  refine ⟨fun h => ?jmp, fun h => ?bz, fun h => ?bnz, fun h => ?loop⟩
  case jmp => exact ⟨_, scalar_exec_onward s _ c ⟨0x10, 0, 0, imm⟩ rfl h rfl, branchedTo_advance_zero s c _⟩
  case bz =>
    refine ⟨_, scalar_exec_onward s _ c ⟨0x11, 0, sa, imm⟩ rfl h rfl, ?_⟩
    have hnext : (branchTarget k ⟨0x11, 0, sa, imm⟩).getD (k.pc + 1) =
        if decide (k.sreg sa = 0) then imm.zeroExtend 32 else k.pc + 1 := by
      show (if k.sreg sa = 0 then some (imm.zeroExtend 32) else none).getD _ = _
      split <;> simp_all
    exact hnext ▸ branchedTo_advance_zero s c _
  case bnz =>
    refine ⟨_, scalar_exec_onward s _ c ⟨0x12, 0, sa, imm⟩ rfl h rfl, ?_⟩
    have hnext : (branchTarget k ⟨0x12, 0, sa, imm⟩).getD (k.pc + 1) =
        if decide (k.sreg sa ≠ 0) then imm.zeroExtend 32 else k.pc + 1 := by
      show (if k.sreg sa = 0 then none else some (imm.zeroExtend 32)).getD _ = _
      split <;> simp_all
    exact hnext ▸ branchedTo_advance_zero s c _
  case loop =>
    refine ⟨_, scalar_exec_onward s _ c ⟨0x13, sa, 0, imm⟩ rfl h rfl, ?_⟩
    have hnext : (branchTarget k ⟨0x13, sa, 0, imm⟩).getD (k.pc + 1) =
        if decide (k.sreg sa - 1 ≠ 0) then imm.zeroExtend 32 else k.pc + 1 := by
      show (if k.sreg sa - 1 = 0 then none else some (imm.zeroExtend 32)).getD _ = _
      split <;> simp_all
    exact hnext ▸ branchedTo_advance s c sa (k.sreg sa - 1) _

end Sys2Proof.Machine

/-! ## The scalar registers (O58) -/

namespace Sys2Proof.Machine

/-- After the reset values every scalar register is zero (R145, R511). -/
theorem toReset_sreg (k : Core) (r : BitVec 5) : k.toReset.sreg r = 0 := ite_self 0

/-- A read of a register other than s0 after a write to it and the issue. -/
theorem retire_setSreg_sreg (k : Core) (r : BitVec 5) (v : Word) (now : Nat) (h : r ≠ 0) : ((k.setSreg r v).retire now).sreg r = v := by
  show (k.setSreg r v).sreg r = v
  rw [sreg_setSreg, if_pos ⟨rfl, h⟩]

/-- Settles O58: reads after writes, the reset values, and the arithmetic of words. -/
theorem scalarRegisters : Obligations.ScalarRegisters := by
  unfold Obligations.ScalarRegisters
  constructor
  · intro k r q x
    rw [sreg_setSreg]
    by_cases hq : q = 0
    · subst hq
      rw [if_neg fun h => h.2 h.1.symm, if_pos rfl, sreg_zero]
    · rw [if_neg hq]
      refine if_congr ⟨And.left, fun h => ⟨h, h ▸ hq⟩⟩ rfl rfl
  intro s c sd sa sb a b wraps
  refine ⟨fun hlive hwin => ?_, fun hlive hgo => ?_, ?_⟩
  · refine ⟨_, congrArg Host.Outcome.next ((if_pos hlive).trans (coreReset_outside_window c s hwin)), fun r => ?_⟩
    rw [coreResetNow_core_self]
    exact toReset_sreg _ r
  · obtain ⟨t, -, h⟩ := unloaded_jobReset s hgo
    refine ⟨_, congrArg Host.Outcome.next (if_pos hlive), fun d r => ?_⟩
    rw [h.cores d]
    exact ite_self 0
  · have hwraps : ∀ (i : Instr) (g : Word → Word → Word) (n : Nat),
        (g ((s.core c).sreg sa) ((s.core c).sreg sb)).toNat = n % 2 ^ 64 →
        (Issues s i → exec i s = .next (s.modCore c fun k => (k.setSreg sd (g (k.sreg sa) (k.sreg sb))).retire s.cycle)) →
        wraps i n := by
      intro i g n hn hexec h hsd
      refine ⟨_, hexec h, ?_⟩
      rw [core_modCore_self, retire_setSreg_sreg _ _ _ _ hsd, hn]
    exact ⟨hwraps _ (· + ·) _ (BitVec.toNat_add _ _) (twoOperand_exec s _ c 0x02 sd sa sb (· + ·) rfl rfl rfl rfl),
      hwraps _ (· - ·) _ (by rw [BitVec.toNat_sub, Nat.add_comm]) (twoOperand_exec s _ c 0x03 sd sa sb (· - ·) rfl rfl rfl rfl),
      hwraps _ (· * ·) _ (BitVec.toNat_mul _ _) (twoOperand_exec s _ c 0x0B sd sa sb (· * ·) rfl rfl rfl rfl)⟩

end Sys2Proof.Machine

/-! ## Token counters (O18, O60) -/

namespace Sys2Proof.Machine

/-! ### Halting a core (R173) -/

/-- A core halted with an exception at bundle b (R173, R177). -/
def Core.halt (k : Core) (cause slot detail : Nat) (b pc : BitVec 32) : Core :=
  { k with
    st := .halted, pc := pc, heldAt := none, waitStart := none, barWait := none, twHere := false
    exc := ⟨b, BitVec.ofNat 3 slot, BitVec.ofNat 8 detail, BitVec.ofNat 8 cause⟩ }

/-- A core that is neither halted nor in a window halts with its record (R173). -/
theorem haltCore_eq {s : State} {c : Nat} (hhalted : (s.core c).st ≠ .halted) (hwindow : (s.core c).st ≠ .window)
    (cause slot detail : Nat) (b pc : BitVec 32) :
    s.haltCore c cause slot detail b pc =
      (s.emit { code := cause, uclass := 1, uinst := c, addr := bundleAddr c b, opid := opidBundle c b, detail := detail }).modCore c
        (·.halt cause slot detail b pc) := by
  unfold State.haltCore
  dsimp only
  rw [if_neg hhalted]
  refine modCore_congr _ _ _ _ ?_
  rw [emit_core, if_neg hwindow, if_neg hwindow]
  rfl

/-- A halt changes its core, and nothing else but the records (R173). -/
theorem haltCore_halts {s : State} {c : CoreId} (hhalted : (s.core c).st ≠ .halted) (hwindow : (s.core c).st ≠ .window)
    (cause slot detail : Nat) (b pc : BitVec 32) :
    let t := s.haltCore c cause slot detail b pc
    t.core c = (s.core c).halt cause slot detail b pc ∧ CoreFrame c s t ∧
      ∃ r, t.errRing = s.errRing ++ [r] ∧ r.code = BitVec.ofNat 8 cause ∧ r.uclass = 1 ∧ r.uinst = BitVec.ofNat 12 c.val := by
  intro t
  have ht : t = _ := haltCore_eq hhalted hwindow cause slot detail b pc
  rw [ht, core_modCore_self, emit_core]
  refine ⟨rfl, ⟨rfl, rfl, rfl, rfl, rfl, rfl, fun d hd => ?_⟩, _, rfl, rfl, rfl, rfl⟩
  rw [core_modCore_ne _ _ _ fun h => hd (Fin.ext h), emit_core]

/-! ### Increments (R158, R160 to R162) -/

/-- State t is s with n added to token counter i of core c: the memory, the entries and every other counter have stayed. -/
def AddsToken (s t : State) (c i n : Nat) : Prop :=
  ((t.core c).token i).toNat = ((s.core c).token i).toNat + n ∧ t.mem = s.mem ∧ t.acc = s.acc ∧
    ∀ d j, d ≠ c ∨ j ≠ i → (t.core d).token j = (s.core d).token j

/-- An increment that the counter can take is added to it (R160). -/
theorem addToken_adds (s : State) (c i n : Nat) (h : ((s.core c).token i).toNat + n < 2 ^ 32) : AddsToken s (s.addToken c i n) c i n := by
  have hadd : s.addToken c i n = s.modCore c fun k =>
      { k.setToken i (BitVec.ofNat 32 ((k.token i).toNat + n)) with
        incs := mset 0 (if k.incAt = s.cycle then k.incs else []) i (k.incsNow s.cycle i + n)
        incAt := s.cycle } := if_neg (Nat.not_le.2 h)
  have htoken : ∀ j, ((s.addToken c i n).core c).token j =
      if j = i then BitVec.ofNat 32 (((s.core c).token i).toNat + n) else (s.core c).token j := fun j => by
    rw [hadd, core_modCore_self]
    exact token_setToken (s.core c) i j _
  refine ⟨?_, by rw [hadd, modCore_mem], by rw [hadd, modCore_acc], fun d j hdj => ?_⟩
  · rw [htoken, if_pos rfl, BitVec.toNat_ofNat, Nat.mod_eq_of_lt h]
  · by_cases hd : d = c
    · subst hd
      rw [htoken, if_neg (hdj.resolve_left fun h => h rfl)]
    · rw [hadd, core_modCore_ne _ _ _ hd]

/-- An increment leaves the signals of every core. -/
theorem addToken_signals (s : State) (c i n d : Nat) : ((s.addToken c i n).core d).signals = (s.core d).signals := by
  have hmod : ∀ (t : State) (f : Core → Core), (∀ k, (f k).signals = k.signals) → ((t.modCore c f).core d).signals = (t.core d).signals := by
    intro t f hf
    rw [core_modCore]
    split
    · exact hf _
    · rfl
  unfold State.addToken State.haltCore
  dsimp only
  split
  · split
    · exact hmod _ _ fun _ => rfl
    · refine (hmod _ _ ?_).trans (congrArg Core.signals (emit_core s _ d))
      exact fun _ => rfl
  · exact hmod _ _ fun _ => rfl

/-- An increment beyond the counter halts a core that is not halted (R162). -/
theorem addToken_overflow {s : State} {c : Nat} (hhalted : (s.core c).st ≠ .halted) {i n : Nat}
    (h : 2 ^ 32 ≤ ((s.core c).token i).toNat + n) : s.addToken c i n = s.haltCore c 0x0A 6 i (s.core c).pc (s.core c).pc := by
  unfold State.addToken
  dsimp only
  rw [if_pos h, if_neg hhalted]

/-- Core c of s has halted with a token overflow at its next bundle, its counters as they were (R162). -/
def Overflows (s : State) (c : Nat) (t : State) : Prop :=
  (t.core c).tokens = (s.core c).tokens ∧ (t.core c).st = .halted ∧ (t.core c).exc.cause = 0x0A ∧
    (t.core c).exc.bundle = (s.core c).pc ∧ (t.core c).pc = (s.core c).pc

/-- An increment beyond the counter leaves it and halts its core (R162). -/
theorem addToken_overflows {s : State} {c : CoreId} (hhalted : (s.core c).st ≠ .halted) (hwindow : (s.core c).st ≠ .window) {i n : Nat}
    (h : 2 ^ 32 ≤ ((s.core c).token i).toNat + n) : Overflows s c (s.addToken c i n) := by
  rw [addToken_overflow hhalted h]
  obtain ⟨hcore, -⟩ := haltCore_halts hhalted hwindow 0x0A 6 i (s.core c).pc (s.core c).pc
  rw [Overflows, hcore]
  exact ⟨rfl, rfl, rfl, rfl, rfl⟩

/-- A completion notice adds one (R158). -/
theorem notice_exec (s : State) (dst : CoreId) (tok : BitVec 6) (hlive : s.live = true) :
    exec (.tokenIncrement (.notice dst tok)) s = .next (s.addToken dst tok.toNat 1) := congrArg Host.Outcome.next (if_pos hlive)

/-- The oldest signal of a core whose earlier writes are done leaves it and adds its increment (R161). -/
theorem signal_exec (s : State) (src : CoreId) (g : Signal) (rest : List Signal) (hlive : s.live = true)
    (hg : (s.core src).signals = g :: rest) (hdone : writesDone (s.core src) g.seq = true) :
    exec (.tokenIncrement (.signal src)) s =
      .next ((s.modCore src fun k => { k with signals := rest }).addToken g.dst g.tok.toNat g.inc.toNat) := by
  show Host.Outcome.next (if s.live then signalLeave src s else s) = _
  refine congrArg Host.Outcome.next ((if_pos hlive).trans ?_)
  unfold signalLeave
  dsimp only
  rw [hg]
  exact if_pos hdone

/-- Settles O18: each arrival is an addition to a counter. -/
theorem tokenIncrements : Obligations.TokenIncrements := by
  unfold Obligations.TokenIncrements
  intro s src dst tok g rest adds hlive
  refine ⟨fun hfits => ⟨_, notice_exec s dst tok hlive, addToken_adds s dst tok.toNat 1 hfits⟩, fun hfull hrun => ?_, fun hg hdone hfits => ?_⟩
  · obtain ⟨htokens, hst, hcause, -, -⟩ := addToken_overflows (s := s) (c := dst) (i := tok.toNat) (n := 1) (by rw [hrun]; decide)
      (by rw [hrun]; decide) (by omega)
    exact ⟨_, notice_exec s dst tok hlive, htokens, hst, hcause⟩
  · have hleft : ∀ d, ((s.modCore src fun k => { k with signals := rest }).core d).token = (s.core d).token := fun d => by
      rw [core_modCore]
      split <;> rfl
    refine ⟨_, signal_exec s src g rest hlive hg hdone, ?_, ?_⟩
    · rw [addToken_signals, core_modCore_self]
    · have hadds := addToken_adds (s.modCore src fun k => { k with signals := rest }) g.dst g.tok.toNat g.inc.toNat (by rwa [hleft])
      simpa only [AddsToken, hleft, modCore_mem, modCore_acc] using hadds

/-- Settles O60: whatever brings the increment, one beyond the counter halts its core. -/
theorem tokenOverflow : Obligations.TokenOverflow := by
  unfold Obligations.TokenOverflow
  intro s src c tok n tk g rest k overflows hhalted hwindow
  refine ⟨fun h => addToken_overflows hhalted hwindow h,
    fun hlive h => ⟨_, notice_exec s c tk hlive, addToken_overflows hhalted hwindow h⟩, fun hlive hg hdone hdst h => ?_⟩
  have hleft : (s.modCore src fun k => { k with signals := rest }).core c =
      { s.core c with signals := if c = src then rest else (s.core c).signals } := by
    rw [core_modCore]
    by_cases hc : c = src
    · rw [if_pos (congrArg Fin.val hc), if_pos hc]
    · rw [if_neg fun h => hc (Fin.ext h), if_neg hc]
  have hover : Overflows (s.modCore src fun k => { k with signals := rest }) c _ :=
    addToken_overflows (i := g.tok.toNat) (n := g.inc.toNat) (by rwa [hleft]) (by rwa [hleft]) (by rwa [hleft])
  refine ⟨_, signal_exec s src g rest hlive hg hdone, ?_⟩
  rw [hdst]
  unfold Overflows at hover
  rwa [hleft] at hover

end Sys2Proof.Machine

/-! ## Synchronisation (O17) -/

namespace Sys2Proof.Machine

/-! ### The fields of the sync operations (R159) -/

/-- A field of a word as a number. -/
theorem fld_eq_toNat {n : Nat} (x : BitVec n) (lo len : Nat) : fld x lo len = (x.extractLsb' lo len).toNat := by
  rw [BitVec.extractLsb'_toNat, Nat.shiftRight_eq_div_pow]
  rfl

/-- A bit of two words side by side. -/
theorem getLsbD_append_eq {v w : Nat} (x : BitVec v) (y : BitVec w) (i : Nat) :
    (x.append y).getLsbD i = if i < w then y.getLsbD i else x.getLsbD (i - w) := BitVec.getLsbD_append

/-- The slot of a WAIT. -/
def waitSlot (tok : BitVec 6) (consume src : Bool) (val : BitVec 20) : SyncSlot :=
  ⟨1, tok ++ BitVec.ofBool consume ++ BitVec.ofBool src ++ val⟩

theorem waitSlot_fields (tok : BitVec 6) (consume src : Bool) (val : BitVec 20) :
    syncToken (waitSlot tok consume src val) = tok.toNat ∧ syncConsume (waitSlot tok consume src val) = consume ∧
      syncSrc (waitSlot tok consume src val) = src ∧ syncReg (waitSlot tok consume src val) = val.truncate 5 ∧
      syncVal (waitSlot tok consume src val) = val.toNat := by
  unfold syncToken syncConsume syncSrc syncReg syncVal waitSlot
  simp only [fld_eq_toNat]
  refine ⟨congrArg BitVec.toNat ?_, ?_, ?_, ?_, congrArg BitVec.toNat ?_⟩
  · dsimp only [HAppend.hAppend]
    simp only [extract_append_hi, Nat.reduceSub, Nat.reduceLeDiff, BitVec.extractLsb'_eq_self]
  · dsimp only [HAppend.hAppend]
    simp only [getLsbD_append_eq, Nat.reduceLT, Nat.reduceSub, if_false, if_true, BitVec.getLsbD_ofBool, decide_true, Bool.true_and]
  · dsimp only [HAppend.hAppend]
    simp only [getLsbD_append_eq, Nat.reduceLT, Nat.reduceSub, if_false, if_true, BitVec.getLsbD_ofBool, decide_true, Bool.true_and]
  · dsimp only [HAppend.hAppend]
    simp only [extract_append_lo, Nat.reduceAdd, Nat.reduceLeDiff]
    exact (BitVec.setWidth_eq_extractLsb' (by decide)).symm
  · dsimp only [HAppend.hAppend]
    simp only [extract_append_lo, Nat.reduceAdd, Nat.reduceLeDiff, BitVec.extractLsb'_eq_self]

/-- The slot of a SIGNAL. -/
def signalSlot (tok : BitVec 6) (dst : BitVec 5) (inc : BitVec 16) : SyncSlot := ⟨2, tok ++ dst ++ (0 : BitVec 1) ++ inc⟩

theorem signalSlot_fields (tok : BitVec 6) (dst : BitVec 5) (inc : BitVec 16) :
    syncToken (signalSlot tok dst inc) = tok.toNat ∧ syncTarget (signalSlot tok dst inc) = dst.toNat ∧ syncInc (signalSlot tok dst inc) = inc := by
  unfold syncToken syncTarget syncInc signalSlot
  simp only [fld_eq_toNat]
  dsimp only [HAppend.hAppend]
  simp only [extract_append_hi, extract_append_lo, Nat.reduceAdd, Nat.reduceSub, Nat.reduceLeDiff, BitVec.extractLsb'_eq_self, and_self]

/-- The slot of a TSET. -/
def tsetSlot (tok : BitVec 6) (val : BitVec 20) : SyncSlot := ⟨4, tok ++ (0 : BitVec 2) ++ val⟩

theorem tsetSlot_fields (tok : BitVec 6) (val : BitVec 20) :
    syncToken (tsetSlot tok val) = tok.toNat ∧ syncVal (tsetSlot tok val) = val.toNat := by
  unfold syncToken syncVal tsetSlot
  simp only [fld_eq_toNat]
  dsimp only [HAppend.hAppend]
  simp only [extract_append_hi, extract_append_lo, Nat.reduceAdd, Nat.reduceSub, Nat.reduceLeDiff, BitVec.extractLsb'_eq_self, and_self]

/-- The slot of a CLAIM (5) or a WSET (6). -/
def workSlot (op ctr : BitVec 4) (sr : BitVec 5) : SyncSlot := ⟨op, ctr ++ sr ++ (0 : BitVec 19)⟩

theorem workSlot_fields (op ctr : BitVec 4) (sr : BitVec 5) :
    syncGrp (workSlot op ctr sr) = ctr.toNat ∧ syncSreg (workSlot op ctr sr) = sr := by
  unfold syncGrp syncSreg workSlot
  simp only [fld_eq_toNat]
  dsimp only [HAppend.hAppend]
  simp only [extract_append_hi, extract_append_lo, Nat.reduceAdd, Nat.reduceSub, Nat.reduceLeDiff, BitVec.extractLsb'_eq_self, and_self]

/-! ### What a sync operation does as it issues (R135, R160, R161, R165) -/

/-- A sync operation other than BAR that issues at once is its effect and the issue. -/
theorem sync_exec (s : State) (i : Instr) (c : CoreId) (x : SyncSlot) (hb : opBundle i = some (c, syncBundle x)) (h : Issues s i)
    (hop : x.op ≠ 3) : exec i s = .next ((syncApply c x s s).modCore c (·.retire (syncApply c x s s).cycle)) := by
  unfold Issues at h
  rw [hb] at h
  rw [op_issue s i c _ hb, issues_effect s c _ h (show (0 : BitVec 5) ≠ 0x17 by decide) hop (show (0 : BitVec 4) ≠ 3 by decide),
    sync_effect, advance_none]

/-- A sync operation that leaves its core changed by `f` goes with that to the next bundle. -/
theorem sync_core_exec (s : State) (i : Instr) (c : CoreId) (x : SyncSlot) (f g : Core → Core)
    (hb : opBundle i = some (c, syncBundle x)) (hop : x.op ≠ 3) (happly : syncApply c x s s = s.modCore c f)
    (hfg : f (s.core c) = g (s.core c)) (h : Issues s i) : exec i s = .next (s.modCore c fun k => (g k).retire s.cycle) := by
  rw [sync_exec s i c x hb h hop, happly, modCore_cycle, modCore_modCore]
  exact congrArg Host.Outcome.next (modCore_congr _ _ _ _ (congrArg (Core.retire · s.cycle) hfg))

/-- WAIT that issues consumes its threshold when CONSUME is set (R160). -/
theorem wait_exec (s : State) (c : CoreId) (tok : BitVec 6) (consume src : Bool) (val : BitVec 20)
    (h : Issues s (.wait c tok consume src val)) :
    exec (.wait c tok consume src val) s = .next (s.modCore c fun k =>
      (if consume then k.setToken tok.toNat (BitVec.ofNat 32 ((k.token tok.toNat).toNat -
        if src then (k.sreg (val.truncate 5)).toNat else val.toNat)) else k).retire s.cycle) := by
  obtain ⟨htoken, hconsume, hsrc, hreg, hval⟩ := waitSlot_fields tok consume src val
  have happly : syncApply c (waitSlot tok consume src val) s s =
      if consume then s.modCore c fun y => y.setToken tok.toNat (BitVec.ofNat 32 (((s.core c).token tok.toNat).toNat -
        if src then ((s.core c).sreg (val.truncate 5)).toNat else val.toNat)) else s := by
    show (if syncConsume (waitSlot tok consume src val) then _ else _) = _
    rw [waitThreshold, htoken, hconsume, hsrc, hreg, hval]
  cases consume with
  | true => exact sync_core_exec s _ c (waitSlot tok true src val) _ _ rfl (show (1 : BitVec 4) ≠ 3 by decide) happly rfl h
  | false =>
    rw [sync_exec s _ c (waitSlot tok false src val) rfl h (show (1 : BitVec 4) ≠ 3 by decide), happly]
    rfl

/-- SIGNAL that issues leaves its increment with the core (R161). -/
theorem signal_issue_exec (s : State) (c : CoreId) (tok : BitVec 6) (dst : BitVec 5) (inc : BitVec 16) (h : Issues s (.signal c tok dst inc)) :
    exec (.signal c tok dst inc) s = .next (s.modCore c fun k =>
      ({ k with signals := k.signals ++ [⟨k.seqNo, dst.toNat, tok, inc⟩] } : Core).retire s.cycle) := by
  obtain ⟨htoken, htarget, hinc⟩ := signalSlot_fields tok dst inc
  have happly : syncApply c (signalSlot tok dst inc) s s =
      s.modCore c fun y => { y with signals := y.signals ++ [⟨(s.core c).seqNo, dst.toNat, tok, inc⟩] } := by
    show s.modCore c (fun y => { y with signals := y.signals ++ [⟨(s.core c).seqNo, syncTarget (signalSlot tok dst inc),
      BitVec.ofNat 6 (syncToken (signalSlot tok dst inc)), syncInc (signalSlot tok dst inc)⟩] }) = _
    rw [htoken, htarget, hinc, BitVec.ofNat_toNat, BitVec.setWidth_eq]
  exact sync_core_exec s _ c (signalSlot tok dst inc) _ _ rfl (show (2 : BitVec 4) ≠ 3 by decide) happly rfl h

/-- TSET that issues writes its counter, the increments of its cycle added (R160). -/
theorem tset_exec (s : State) (c : CoreId) (tok : BitVec 6) (val : BitVec 20) (h : Issues s (.tset c tok val)) :
    exec (.tset c tok val) s = .next (s.modCore c fun k =>
      (k.setToken tok.toNat (BitVec.ofNat 32 (val.toNat + k.incsNow s.cycle tok.toNat))).retire s.cycle) := by
  obtain ⟨htoken, hval⟩ := tsetSlot_fields tok val
  have happly : syncApply c (tsetSlot tok val) s s =
      s.modCore c fun y => y.setToken tok.toNat (BitVec.ofNat 32 (val.toNat + (s.core c).incsNow s.cycle tok.toNat)) := by
    show s.modCore c (fun y => y.setToken (syncToken (tsetSlot tok val)) (BitVec.ofNat 32 (syncVal (tsetSlot tok val) +
      (s.core c).incsNow s.cycle (syncToken (tsetSlot tok val))))) = _
    rw [htoken, hval]
  exact sync_core_exec s _ c (tsetSlot tok val) _ _ rfl (show (4 : BitVec 4) ≠ 3 by decide) happly rfl h

/-! Work counters (R165) -/

/-- The state with work counter n set. -/
def State.setWork (s : State) (n : Nat) (v : BitVec 32) : State := { s with workCtrs := mset 0 s.workCtrs n v }

/-- State t is s with core c at k and work counter n at v: the memory, every other core and every other work counter have stayed. -/
def WorksTo (s t : State) (c : CoreId) (k : Core) (n : Nat) (v : BitVec 32) : Prop :=
  t.core c = k ∧ mget 0 t.workCtrs n = v ∧ t.mem = s.mem ∧ (∀ d : CoreId, d ≠ c → t.core d = s.core d) ∧
    ∀ m, m ≠ n → mget 0 t.workCtrs m = mget 0 s.workCtrs m

theorem worksTo_modCore (s : State) (c : CoreId) (f : Core → Core) (n : Nat) :
    WorksTo s (s.modCore c f) c (f (s.core c)) n (mget 0 s.workCtrs n) :=
  ⟨core_modCore_self _ _ _, rfl, rfl, fun _ hd => core_modCore_ne _ _ _ fun h => hd (Fin.ext h), fun _ _ => rfl⟩

theorem WorksTo.setWork {s t : State} {c : CoreId} {k : Core} {n : Nat} {v : BitVec 32} (h : WorksTo s t c k n v) (w : BitVec 32) :
    WorksTo s (t.setWork n w) c k n w := by
  obtain ⟨hcore, -, hmem, hcores, hctrs⟩ := h
  exact ⟨hcore, mget_mset_self _ _ _ _, hmem, hcores, fun m hm => (mget_mset_ne _ _ _ hm).trans (hctrs m hm)⟩

theorem WorksTo.modCore {s t : State} {c : CoreId} {k : Core} {n : Nat} {v : BitVec 32} (h : WorksTo s t c k n v) (f : Core → Core) :
    WorksTo s (t.modCore c f) c (f k) n v := by
  obtain ⟨hcore, hctr, hmem, hcores, hctrs⟩ := h
  exact ⟨(core_modCore_self _ _ _).trans (congrArg f hcore), hctr, hmem,
    fun d hd => (core_modCore_ne _ _ _ fun h => hd (Fin.ext h)).trans (hcores d hd), hctrs⟩

/-- CLAIM that issues reads its work counter, which counts up below its last value (R165). -/
theorem claim_exec (s : State) (c : CoreId) (ctr : BitVec 4) (sr : BitVec 5) (h : Issues s (.claim c ctr sr)) :
    let v : BitVec 32 := mget 0 s.workCtrs ctr.toNat
    ∃ t, exec (.claim c ctr sr) s = .next t ∧
      WorksTo s t c (((s.core c).setSreg sr (v.zeroExtend 64)).retire s.cycle) ctr.toNat (if v = 0xFFFFFFFF then v else v + 1) := by
  intro v
  obtain ⟨hgrp, hsreg⟩ := workSlot_fields 5 ctr sr
  have happly : syncApply c (workSlot 5 ctr sr) s s =
      if v = 0xFFFFFFFF then s.modCore c fun y => y.setSreg sr (v.zeroExtend 64)
      else (s.modCore c fun y => y.setSreg sr (v.zeroExtend 64)).setWork ctr.toNat (v + 1) := by
    show (if mget 0 s.workCtrs (syncGrp (workSlot 5 ctr sr)) = 0xFFFFFFFF then
        s.modCore c fun y => y.setSreg (syncSreg (workSlot 5 ctr sr)) ((mget 0 s.workCtrs (syncGrp (workSlot 5 ctr sr))).zeroExtend 64)
      else (s.modCore c fun y => y.setSreg (syncSreg (workSlot 5 ctr sr))
        ((mget 0 s.workCtrs (syncGrp (workSlot 5 ctr sr))).zeroExtend 64)).setWork (syncGrp (workSlot 5 ctr sr))
          (mget 0 s.workCtrs (syncGrp (workSlot 5 ctr sr)) + 1)) = _
    simp only [hgrp, hsreg, v]
  refine ⟨_, sync_exec s _ c (workSlot 5 ctr sr) rfl h (show (5 : BitVec 4) ≠ 3 by decide), ?_⟩
  rw [happly]
  have hread := worksTo_modCore s c (fun y => y.setSreg sr (v.zeroExtend 64)) ctr.toNat
  by_cases hv : v = 0xFFFFFFFF
  · rw [if_pos hv, if_pos hv]
    exact hread.modCore _
  · rw [if_neg hv, if_neg hv]
    exact (hread.setWork (v + 1)).modCore _

/-- WSET that issues writes its work counter (R165). -/
theorem wset_exec (s : State) (c : CoreId) (ctr : BitVec 4) (sr : BitVec 5) (h : Issues s (.wset c ctr sr)) :
    ∃ t, exec (.wset c ctr sr) s = .next t ∧
      WorksTo s t c ((s.core c).retire s.cycle) ctr.toNat (((s.core c).sreg sr).truncate 32) := by
  obtain ⟨hgrp, hsreg⟩ := workSlot_fields 6 ctr sr
  have happly : syncApply c (workSlot 6 ctr sr) s s = s.setWork ctr.toNat (((s.core c).sreg sr).truncate 32) := by
    show s.setWork (syncGrp (workSlot 6 ctr sr)) (((s.core c).sreg (syncSreg (workSlot 6 ctr sr))).truncate 32) = _
    rw [hgrp, hsreg]
  refine ⟨_, sync_exec s _ c (workSlot 6 ctr sr) rfl h (show (6 : BitVec 4) ≠ 3 by decide), ?_⟩
  rw [happly]
  have hstays : WorksTo s s c (s.core c) ctr.toNat (mget 0 s.workCtrs ctr.toNat) := ⟨rfl, rfl, rfl, fun _ _ => rfl, fun _ _ => rfl⟩
  exact (hstays.setWork _).modCore _

/-! ### A bundle that nothing refuses, and a WAIT that holds (R138, R160, R164, R173) -/

/-- A bundle without breakpoint and variable operation, whose scalar and sync slots alone may hold operations. -/
structure IsScalarOrSync (b : Bundle) : Prop where
  hdr : b.hdr = plainHeader false
  matrix : b.matrix = nopMatrix
  vector : b.vector = nopVector
  move : b.move = nopMove
  claim : b.sync.op ≠ 5#4

/-- Such a bundle has no cause of an exception when its encoding is not reserved and its scalar slot neither accesses the tile store nor
branches (R173, R174). -/
theorem IsScalarOrSync.noCauses {b : Bundle} (hb : IsScalarOrSync b) (s : State) (c : Nat) (hres : reservedEncoding b = none)
    (hbranch : isBranch b.scalar = false) (hsld : b.scalar.op ≠ 0x0C#5) (hsst : b.scalar.op ≠ 0x0D#5) : bundleCauses s c b false = [] := by
  obtain ⟨hhdr, hmatrix, hvector, hmove, hclaim⟩ := hb
  have hdests : (scalarDests b).Nodup := by
    refine List.Nodup.filter _ ?_
    rw [if_neg (show b.sync.op ≠ 5 from hclaim), List.append_nil]
    split <;> simp
  have hmark : vmarkBad b = false := by simp [vmarkBad, isVariable, hhdr, hmove, plainHeader, nopMove, hclaim]
  have hstatic : staticCauses (s.core c) (imageLen s c) b false = [] := by
    simp [staticCauses, hres, hmark, hhdr, plainHeader, hbranch, hdests]
  have hdynamic : dynamicCauses s c (s.core c) b = [] := by
    have hwrites : writesConflict s c (s.core c) b = false := by
      unfold writesConflict tileWrites
      rw [if_neg (show b.scalar.op ≠ 0x0D from hsst), hvector, hmove]
      rfl
    have hnovector : vecFault s c (s.core c) b.vector = false := by rw [hvector]; rfl
    have hnomove : moveFault s c (s.core c) b.move = none := by rw [hmove]; rfl
    have hnomatrix : b.matrix.op ≠ 1#4 := by rw [hmatrix]; decide
    simp [dynamicCauses, hwrites, hsld, hsst, hnovector, hnomove, hnomatrix, hhdr, plainHeader]
  unfold bundleCauses
  dsimp only
  rw [hstatic, hdynamic, ite_self]
  rfl

/-- A bundle without cause that a core looks at issues or holds (R135). -/
theorem issueBundle_noCauses {s : State} {c : Nat} {b : Bundle} (hlook : canLook s c = true) (hmove : b.move.op ≠ 3)
    (hcauses : bundleCauses s c b false = []) : issueBundle c b false s = issueOrHold c b s := by
  unfold issueBundle
  simp only [hlook, hmove, hcauses, Bool.not_true, Bool.false_eq_true, and_false, if_false]
  rfl

/-- A bundle that a hold bit holds, neither TESTWIN nor BAR (R138, R139). -/
theorem issueOrHold_held {s : State} {c : Nat} {b : Bundle} (htestwin : b.scalar.op ≠ 0x17) (hbar : b.sync.op ≠ 3)
    (hheld : (bundleHolds s c (s.core c) b).any = true) : issueOrHold c b s = holdBundle c b s := by
  unfold issueOrHold
  rw [if_neg htestwin, if_neg hbar]
  dsimp only
  rw [hheld, Bool.or_true, if_pos rfl]

/-- A core that holds at a bundle, the timer of its condition running since cycle `now` or before (R138, R164). -/
def Core.hold (k : Core) (b : Bundle) (now : Nat) : Core :=
  { k with st := .holding, heldAt := some b, waitStart := some (k.waitStart.getD now) }

/-- A bundle whose sync condition does not hold starts its timer (R164). -/
theorem holdBundle_waits {s : State} {c : Nat} {b : Bundle} (hsync : syncWaits s c (s.core c) b = true) :
    holdBundle c b s = s.modCore c (·.hold b s.cycle) := by
  rw [holdBundle, hsync]
  rfl

/-- The encoding of a WAIT with a threshold of its own is not reserved (R159). -/
theorem waitSlot_notReserved (tok : BitVec 6) (consume : Bool) (val : BitVec 20) :
    reservedEncoding (syncBundle (waitSlot tok consume false val)) = none := by
  obtain ⟨-, -, hsrc, -, -⟩ := waitSlot_fields tok consume false val
  have hused : syncUsed (waitSlot tok consume false val) = 2 ^ 28 - 1 := if_neg (by rw [← Bool.not_eq_false, not_not]; exact hsrc)
  have hall : (waitSlot tok consume false val).body.toNat &&& (2 ^ 28 - 1) = (waitSlot tok consume false val).body.toNat := by
    rw [Nat.and_two_pow_sub_one_eq_mod, Nat.mod_eq_of_lt (BitVec.isLt _)]
  have hclean : syncBad (waitSlot tok consume false val) = [] := by
    unfold syncBad
    dsimp only
    rw [hused, hall, Nat.sub_self]
    rfl
  have hfind : (slotFindings (syncBundle (waitSlot tok consume false val))).find? (fun f => !f.2.isEmpty) = none := by
    show List.find? _ [(1, []), (2, scalarBad nopScalar), (3, matrixBad nopMatrix), (4, vectorBad nopVector), (5, moveBad nopMove),
      (6, syncBad (waitSlot tok consume false val))] = none
    rw [hclean]
    decide
  unfold reservedEncoding
  rw [hfind]
  rfl

/-- A WAIT whose counter is below its own threshold holds, and its timer runs (R160, R164). -/
theorem wait_holds (s : State) (c : CoreId) (tok : BitVec 6) (consume : Bool) (val : BitVec 20) (hlook : canLook s c = true)
    (hbelow : ((s.core c).token tok.toNat).toNat < val.toNat) :
    exec (.wait c tok consume false val) s = .next (s.modCore c (·.hold (syncBundle (waitSlot tok consume false val)) s.cycle)) ∧
      ∀ k : Core, k.tokens = (s.core c).tokens → waitHolds k (waitSlot tok consume false val) = false := by
  obtain ⟨htoken, -, hsrc, -, hval⟩ := waitSlot_fields tok consume false val
  have hwaits : ∀ k : Core, k.tokens = (s.core c).tokens → waitHolds k (waitSlot tok consume false val) = false := by
    intro k hk
    have hk' : k.token tok.toNat = (s.core c).token tok.toNat := by rw [Core.token, hk]; rfl
    rw [waitHolds, waitThreshold, hsrc, if_neg Bool.false_ne_true, hval, htoken, hk']
    exact decide_eq_false (Nat.not_le.2 hbelow)
  refine ⟨?_, hwaits⟩
  have hquiet : IsScalarOrSync (syncBundle (waitSlot tok consume false val)) :=
    ⟨rfl, rfl, rfl, rfl, show (1 : BitVec 4) ≠ 5 by decide⟩
  have hcauses := hquiet.noCauses s c (waitSlot_notReserved tok consume val) rfl (show (0 : BitVec 5) ≠ 0x0C by decide)
    (show (0 : BitVec 5) ≠ 0x0D by decide)
  have hsync : syncWaits s c (s.core c) (syncBundle (waitSlot tok consume false val)) = true := by
    show (!waitHolds (s.core c) (waitSlot tok consume false val)) = true
    rw [hwaits _ rfl]
    rfl
  have hholds : (bundleHolds s c (s.core c) (syncBundle (waitSlot tok consume false val))).any = true := by
    simp [Holds.any, bundleHolds, hsync]
  rw [op_issue s _ c (syncBundle (waitSlot tok consume false val)) rfl,
    issueBundle_noCauses hlook (show (0 : BitVec 4) ≠ 3 by decide) hcauses,
    issueOrHold_held (show (0 : BitVec 5) ≠ 0x17 by decide) (show (1 : BitVec 4) ≠ 3 by decide) hholds, holdBundle_waits hsync]

/-- Settles O17: what each operation makes of its core or its work counter, and that a WAIT below its threshold holds. -/
theorem syncOperations : Obligations.SyncOperations := by
  unfold Obligations.SyncOperations
  constructor
  · intro s c tok dst sr inc val ctr consume src th v
    exact ⟨wait_exec s c tok consume src val, signal_issue_exec s c tok dst inc, tset_exec s c tok val, claim_exec s c ctr sr,
      wset_exec s c ctr sr⟩
  · intro s c tok consume val hready hbelow
    obtain ⟨hlook, -, -⟩ := hready
    obtain ⟨hexec, hwaits⟩ := wait_holds s c tok consume val hlook hbelow
    refine ⟨_, hexec, ?_⟩
    unfold State.holds
    rw [core_modCore_self]
    refine ⟨rfl, ?_, rfl, rfl, rfl, rfl, rfl, rfl, rfl, rfl, rfl, fun d hd => core_modCore_ne _ _ _ fun h => hd (Fin.ext h)⟩
    show (!waitHolds ((s.core c).hold _ s.cycle) (waitSlot tok consume false val) || _) = true
    rw [hwaits ((s.core c).hold _ s.cycle) rfl]
    rfl

end Sys2Proof.Machine

/-! ## Exceptions of bundles (O21) -/

namespace Sys2Proof.Machine

theorem CoreFrame.trans {c : CoreId} {s t u : State} (h : CoreFrame c s t) (h' : CoreFrame c t u) : CoreFrame c s u := by
  obtain ⟨hmem, hmarks, hacc, hctrs, hbars, hjob, hcores⟩ := h
  obtain ⟨hmem', hmarks', hacc', hctrs', hbars', hjob', hcores'⟩ := h'
  exact ⟨hmem'.trans hmem, hmarks'.trans hmarks, hacc'.trans hacc, hctrs'.trans hctrs, hbars'.trans hbars, hjob'.trans hjob,
    fun d hd => (hcores' d hd).trans (hcores d hd)⟩

theorem coreFrame_modCore (s : State) (c : CoreId) (f : Core → Core) : CoreFrame c s (s.modCore c f) :=
  ⟨rfl, rfl, rfl, rfl, rfl, rfl, fun _ hd => core_modCore_ne _ _ _ fun h => hd (Fin.ext h)⟩

/-- No command of one operation is a VGATHER. -/
theorem opBundle_move {i : Instr} {c : CoreId} {b : Bundle} (hb : opBundle i = some (c, b)) : b.move.op ≠ 3 := by
  have hother : (b.move.op == 3) = false := by
    unfold opBundle at hb
    split at hb <;> cases hb <;> rfl
  exact beq_eq_false_iff_ne.1 hother

/-- The lowest cause of a bundle halts its core (R173, R174). -/
theorem issueBundle_cause {s : State} {c : Nat} {b : Bundle} {x : Nat × Nat × Nat} (hlook : canLook s c = true) (hmove : b.move.op ≠ 3)
    (hx : lowestCause (bundleCauses s c b false) = some x) :
    issueBundle c b false s = s.haltCore c x.1 x.2.1 x.2.2 (s.core c).pc (s.core c).pc := by
  unfold issueBundle
  simp only [hlook, hmove, hx, Bool.not_true, Bool.false_eq_true, and_false, if_false]
  rfl

/-- A core that looks at a bundle is neither halted nor in a window. -/
theorem not_halted_of_canLook {s : State} {c : Nat} (h : canLook s c = true) : (s.core c).st ≠ .halted ∧ (s.core c).st ≠ .window := by
  obtain h | h := st_of_canLook h <;> rw [h] <;> decide

/-- TRAP that issues halts its core after its bundle (R146, R173). -/
theorem trap_exec (s : State) (c : CoreId) (imm : BitVec 25) (h : Issues s (.trap c imm)) :
    exec (.trap c imm) s =
      .next ((s.modCore c (·.retire s.cycle)).haltCore c 0x0E 2 (fld imm 0 8) (s.core c).pc ((s.core c).pc + 1)) := by
  rw [op_issue s _ c _ rfl, issues_effect s c _ h (show (0x18 : BitVec 5) ≠ 0x17 by decide) (show (0 : BitVec 4) ≠ 3 by decide)
    (show (0 : BitVec 4) ≠ 3 by decide)]
  rfl

/-- Settles O21: an exception is the halt of its core, that of TRAP after the issue of its bundle. -/
theorem exceptionsHaltTheirCore : Obligations.ExceptionsHaltTheirCore := by
  unfold Obligations.ExceptionsHaltTheirCore
  constructor
  · intro s i c b x k hb hlook hx
    obtain ⟨hhalted, hwindow⟩ := not_halted_of_canLook hlook
    obtain ⟨hcore, hframe, r, hring, hcode, hclass, hinst⟩ := haltCore_halts hhalted hwindow x.1 x.2.1 x.2.2 k.pc k.pc
    refine ⟨_, r, (op_issue s i c b hb).trans (congrArg Host.Outcome.next (issueBundle_cause hlook (opBundle_move hb) hx)), ?_⟩
    rw [hcore]
    exact ⟨rfl, rfl, rfl, rfl, rfl, rfl, rfl, hring, hcode, hclass, hinst, hframe⟩
  · intro s c imm h
    have hrun : ((s.modCore c (·.retire s.cycle)).core c).st = .running := by rw [core_modCore_self]; rfl
    obtain ⟨hcore, hframe, r, hring, hcode, -⟩ := haltCore_halts (s := s.modCore c (·.retire s.cycle)) (c := c) (by rw [hrun]; decide)
      (by rw [hrun]; decide) 0x0E 2 (fld imm 0 8) (s.core c).pc ((s.core c).pc + 1)
    refine ⟨_, r, trap_exec s c imm h, ?_⟩
    rw [hcore]
    have hdetail : BitVec.ofNat 8 (fld imm 0 8) = imm.truncate 8 := by
      rw [fld_eq_toNat, BitVec.ofNat_toNat, BitVec.setWidth_eq, BitVec.truncate, BitVec.setWidth_eq_extractLsb' (by decide)]
    exact ⟨rfl, rfl, congrArg (fun d => (⟨(s.core c).pc, 2, d, 0x0E⟩ : Exc)) hdetail, hring, hcode, (coreFrame_modCore s c _).trans hframe⟩

end Sys2Proof.Machine

/-! ## TESTWIN (O22) -/

namespace Sys2Proof.Machine

/-- The bundle of TESTWIN. -/
def testwinBundle : Bundle := scalarBundle ⟨0x17, 0, 0, 0⟩

/-- TESTWIN raises no exception: its core goes to the rendezvous (R170). -/
theorem testwin_exec (s : State) (c : CoreId) (hlook : canLook s c = true) :
    exec (.testwin c) s = .next (testwinIssue c testwinBundle s) := by
  have hquiet : IsScalarOrSync testwinBundle := ⟨rfl, rfl, rfl, rfl, by decide⟩
  have hcauses := hquiet.noCauses s c (by decide) rfl (by decide) (by decide)
  rw [op_issue s _ c testwinBundle rfl, issueBundle_noCauses hlook (by decide) hcauses]
  rfl

/-- A core that waits at TESTWIN for its partner since cycle `now` or before (R164, R170). -/
def Core.meet (k : Core) (now : Nat) : Core :=
  { k with st := .holding, heldAt := some testwinBundle, twHere := true, waitStart := some (k.waitStart.getD now) }

/-- TESTWIN of a core whose work is done: it waits for its partner, passes with it, or both halt (R170). -/
theorem testwinIssue_done (s : State) (c : Nat) (hdone : allDone s c = true) (hearliest : (s.core c).earliest ≤ s.cycle) :
    testwinIssue c testwinBundle s =
      let t := s.modCore c (·.meet s.cycle)
      let q := t.core (partner c)
      if q.twHere then
        if q.twCount = (s.core c).twCount then meetPartners t c
        else (t.haltCore c 0x0D 2 0 (s.core c).pc (s.core c).pc).haltCore (partner c) 0x0D 2 0 q.pc q.pc
      else t := by
  have hhere : (allDone s c && decide ((s.core c).earliest ≤ s.cycle)) = true := by rw [hdone, decide_eq_true hearliest]; rfl
  unfold testwinIssue
  dsimp only
  rw [hhere]
  rfl

theorem partner_ne (c : CoreId) : partner c ≠ c := by
  unfold partner
  omega

/-! ### Pairs and windows (R170, R171) -/

@[simp] theorem pair_modPair_self (s : State) (p : Nat) (f : Pair → Pair) : (s.modPair p f).pair p = f (s.pair p) := by
  unfold State.modPair State.pair mmod
  exact mget_mset_self _ _ _ _

@[simp] theorem modPair_core (s : State) (p : Nat) (f : Pair → Pair) (c : Nat) : (s.modPair p f).core c = s.core c := rfl

@[simp] theorem modCore_pair (s : State) (c : Nat) (f : Core → Core) (p : Nat) : (s.modCore c f).pair p = s.pair p := rfl

/-- A core in a test window that began in cycle `now` (R171). -/
def Core.enterWindow (k : Core) (now : Nat) : Core := { k with preWindow := k.st, st := .window, winStart := some now, winStep := k.step }

theorem beginWindow_eq (s : State) (c : Nat) : beginWindow s c = s.modCore c (·.enterWindow s.cycle) := rfl

/-- A core that has passed its TESTWIN (R170). -/
def Core.pass (k : Core) (now : Nat) : Core := { k.retire now with twHere := false, twCount := k.twCount + 1 }

/-- A core that meets its partner at TESTWIN: it passes, and begins its window when the pair is due (R170). -/
def Core.passOrEnter (k : Core) (due : Bool) (now : Nat) : Core :=
  if due then { (k.pass now).enterWindow now with winForced := false } else k.pass now

theorem passOrEnter_fields (k : Core) (due : Bool) (now : Nat) :
    (k.passOrEnter due now).pc = k.pc + 1 ∧ (k.passOrEnter due now).twCount = k.twCount + 1 ∧
      (k.passOrEnter due now).st = if due then .window else .running := by
  cases due <;> exact ⟨rfl, rfl, rfl⟩

/-- Partners that meet pass; of a due pair both begin their window, and the pair is due no more (R170, R171). -/
theorem meetPartners_spec (s : State) (c : Nat) (hne : partner c ≠ c) :
    let t := meetPartners s c
    let due := (s.pair (c % 16)).due
    t.core c = (s.core c).passOrEnter due s.cycle ∧ t.core (partner c) = (s.core (partner c)).passOrEnter due s.cycle ∧
      (t.pair (c % 16)).due = false := by
  have hpass : ∀ (u : State) (d : Nat), (advance d none u).modCore d (fun k => { k with twHere := false, twCount := k.twCount + 1 }) =
      u.modCore d (·.pass u.cycle) := fun u d => by
    rw [advance_none, modCore_modCore]
    rfl
  unfold meetPartners Core.passOrEnter
  simp only [hpass, beginWindow_eq, modCore_pair, modCore_cycle, List.foldl_cons, List.foldl_nil]
  cases hdue : (s.pair (c % 16)).due with
  | true => simp [hne, hne.symm]
  | false => simp [hne, hne.symm, hdue]

/-- A halt leaves the other cores. -/
theorem haltCore_core_ne (s : State) {c d : Nat} (h : d ≠ c) (cause slot detail : Nat) (b pc : BitVec 32) :
    (s.haltCore c cause slot detail b pc).core d = s.core d := by
  unfold State.haltCore
  dsimp only
  split
  · rfl
  · rw [core_modCore_ne _ _ _ h, emit_core]

/-- A core that is neither halted nor in a window is halted. -/
theorem haltCore_core_self {s : State} {c : Nat} (hhalted : (s.core c).st ≠ .halted) (hwindow : (s.core c).st ≠ .window)
    (cause slot detail : Nat) (b pc : BitVec 32) :
    (s.haltCore c cause slot detail b pc).core c = (s.core c).halt cause slot detail b pc := by
  rw [haltCore_eq hhalted hwindow, core_modCore_self, emit_core]

/-- Settles O22: alone a core waits; with its partner there both pass, begin their window, or halt. -/
theorem testwinRendezvous : Obligations.TestwinRendezvous := by
  unfold Obligations.TestwinRendezvous
  intro s c k q due hready hdone
  obtain ⟨hlook, hearliest, -⟩ := hready
  have hne := partner_ne c
  refine ⟨_, (testwin_exec s c hlook).trans (congrArg Host.Outcome.next (testwinIssue_done s c hdone hearliest)), ?_⟩
  dsimp only
  have hself : (s.modCore c (·.meet s.cycle)).core c = k.meet s.cycle := core_modCore_self _ _ _
  have hother : (s.modCore c (·.meet s.cycle)).core (partner c) = q := core_modCore_ne _ _ _ hne
  rw [hother]
  cases hq : q.twHere with
  | false =>
    rw [if_pos rfl, if_neg Bool.false_ne_true, hself]
    exact ⟨rfl, rfl, rfl⟩
  | true =>
    rw [if_neg (by decide), if_pos rfl]
    by_cases hcount : q.twCount = k.twCount
    · rw [if_pos hcount, if_pos hcount]
      obtain ⟨hc, hp, hdue⟩ := meetPartners_spec (s.modCore c (·.meet s.cycle)) c hne
      rw [hself, modCore_pair] at hc
      rw [hother, modCore_pair] at hp
      obtain ⟨hpc, hn, hst⟩ := passOrEnter_fields (k.meet s.cycle) due s.cycle
      obtain ⟨-, hn', -⟩ := passOrEnter_fields q due s.cycle
      rw [hc, hp]
      exact ⟨hpc, hn, hn'.trans (congrArg (· + 1) hcount), hst, hdue⟩
    · rw [if_neg hcount, if_neg hcount]
      intro hhalted hwindow
      have hc := haltCore_core_self (s := s.modCore c (·.meet s.cycle)) (c := c) (by rw [hself]; exact SeqState.noConfusion)
        (by rw [hself]; exact SeqState.noConfusion) 0x0D 2 0 k.pc k.pc
      have hp : ((s.modCore c (·.meet s.cycle)).haltCore c 0x0D 2 0 k.pc k.pc).core (partner c) = q :=
        (haltCore_core_ne _ hne _ _ _ _ _).trans hother
      rw [haltCore_core_ne _ hne.symm, hc, haltCore_core_self (by rwa [hp]) (by rwa [hp]), hp]
      exact ⟨rfl, rfl, rfl, rfl⟩

end Sys2Proof.Machine

/-! ## Timeouts and the control of a core (O23) -/

namespace Sys2Proof.Machine

/-! ### Timeouts (R164, R170, R174) -/

/-- Where the device lives and no stop is in force, a command of the cores takes its effect (R480). -/
theorem if_runs {s : State} (hlive : s.live = true) (hgo : s.stopped = false) (t : State) : (if s.live && !s.stopped then t else s) = t := by
  rw [hlive, hgo]
  rfl

/-- A timer that runs is out once WAIT_TMO microseconds have passed (R164, R176). -/
theorem timerOut_iff {s : State} {c start : Nat} (hstart : (s.core c).waitStart = some start) (htmo : (s.core c).waitTmo ≠ 0) :
    timerOut s c = true ↔ start + 800 * (s.core c).waitTmo.toNat ≤ s.cycle := by
  unfold timerOut
  dsimp only
  rw [hstart]
  rw [Bool.and_eq_true, bne_iff_ne, decide_eq_true_iff]
  exact and_iff_right htmo

/-- Core c of s has halted at its bundle with a cause, and nothing else has changed but the records (R173). -/
def TimedOut (s : State) (c : CoreId) (cause : BitVec 8) (t : State) : Prop :=
  (t.core c).st = .halted ∧ (t.core c).exc.cause = cause ∧ (t.core c).pc = (s.core c).pc ∧ CoreFrame c s t

/-- A holding core whose own fields change before it halts at its bundle has timed out. -/
theorem timedOut_haltCore {s : State} {c : CoreId} (f : Core → Core) (hf : (f (s.core c)).st = .holding) (cause slot detail : Nat) :
    TimedOut s c (BitVec.ofNat 8 cause) ((s.modCore c f).haltCore c cause slot detail (s.core c).pc (s.core c).pc) := by
  have hself : (s.modCore c f).core c = f (s.core c) := core_modCore_self _ _ _
  obtain ⟨hcore, hframe, -⟩ := haltCore_halts (s := s.modCore c f) (c := c) (by rw [hself, hf]; decide) (by rw [hself, hf]; decide)
    cause slot detail (s.core c).pc (s.core c).pc
  unfold TimedOut
  rw [hcore]
  exact ⟨rfl, rfl, rfl, (coreFrame_modCore s c f).trans hframe⟩

/-- A holding core that halts at its bundle has timed out. -/
theorem timedOut_of_holding {s : State} {c : CoreId} (hst : (s.core c).st = .holding) (cause slot detail : Nat) :
    TimedOut s c (BitVec.ofNat 8 cause) (s.haltCore c cause slot detail (s.core c).pc (s.core c).pc) := by
  obtain ⟨hcore, hframe, -⟩ := haltCore_halts (s := s) (c := c) (by rw [hst]; decide) (by rw [hst]; decide)
    cause slot detail (s.core c).pc (s.core c).pc
  unfold TimedOut
  rw [hcore]
  exact ⟨rfl, rfl, rfl, hframe⟩

theorem waitTimeout_eq {s : State} {c : Nat} {b : Bundle} (hheld : (s.core c).heldAt = some b) (hst : (s.core c).st = .holding)
    (hop : b.sync.op = 1) (hwaits : waitHolds (s.core c) b.sync = false) :
    waitTimeout c s =
      if timerOut s c = true then s.haltCore c 0x0B 6 (syncToken b.sync) (s.core c).pc (s.core c).pc else s := by
  unfold waitTimeout
  simp only [hheld, hst, hop, hwaits, and_true, true_and]

theorem barrierTimeout_eq {s : State} {c : Nat} {b : Bundle} (hheld : (s.core c).heldAt = some b) (hst : (s.core c).st = .holding)
    (hop : b.sync.op = 3) (hwaits : barHolds s c (syncGrp b.sync) = false) :
    barrierTimeout c s =
      if timerOut s c = true then
        (s.modCore c fun k => { k with barLate := k.barLate ++ k.barWait.toList }).haltCore c 0x0C 6 (syncGrp b.sync) (s.core c).pc (s.core c).pc
      else s := by
  unfold barrierTimeout
  simp only [hheld, hst, hop, hwaits, and_true, true_and]

theorem rendezvousTimeout_eq {s : State} {c : Nat} (hhere : (s.core c).twHere = true) (hst : (s.core c).st = .holding) :
    rendezvousTimeout c s = if timerOut s c = true then s.haltCore c 0x0B 2 0xFF (s.core c).pc (s.core c).pc else s := by
  unfold rendezvousTimeout
  simp only [hhere, hst, true_and]

/-! ### SEQ_CTRL (R162, R175, R176) -/

/-- A halted core that runs again (R175). -/
def Core.resume (k : Core) : Core :=
  { k with st := .running, exc := {}, brkSkip := k.exc.cause == 0x0F, waitStart := none, overflow := none }

/-- RESUME of a core halted with a resumable cause runs it, or halts it by the overflow that came meanwhile (R162, R175). -/
theorem resumeCore_eq {s : State} {c : Nat} (hst : (s.core c).st = .halted)
    (hcause : (s.core c).exc.cause = 0x0B ∨ (s.core c).exc.cause = 0x0E ∨ (s.core c).exc.cause = 0x0F) :
    ((s.core c).overflow = none → resumeCore c s = s.modCore c Core.resume) ∧
      ∀ n, (s.core c).overflow = some n →
        resumeCore c s = (s.modCore c Core.resume).haltCore c 0x0A 6 n (s.core c).pc (s.core c).pc := by
  have hresume : (s.modCore c fun k =>
      { k with st := .running, exc := {}, brkSkip := (s.core c).exc.cause == 0x0F, waitStart := none, overflow := none }) =
      s.modCore c Core.resume := modCore_congr _ _ _ _ rfl
  unfold resumeCore
  dsimp only
  rw [if_pos ⟨hst, hcause⟩, hresume]
  exact ⟨fun hover => by rw [hover], fun n hover => by rw [hover]⟩

/-- Settles O23: a timeout is a halt once the timer is out; RESUME runs the core, or halts it by the overflow that waits. -/
theorem timeoutsAndControl : Obligations.TimeoutsAndControl := by
  unfold Obligations.TimeoutsAndControl
  constructor
  · intro s c b start k hlive hgo hst hstart htmo out halts
    have hout : timerOut s c = true ↔ out := timerOut_iff hstart htmo
    have hhalts : ∀ (i : Instr) (cause : BitVec 8) (u : State), exec i s = .next (if timerOut s c = true then u else s) →
        TimedOut s c cause u → halts i cause := by
      intro i cause u hexec hu
      refine ⟨_, hexec, ?_⟩
      by_cases h : out
      · rw [if_pos h, if_pos (hout.2 h)]
        exact hu
      · rw [if_neg h, if_neg (mt hout.1 h)]
    refine ⟨fun hheld => ⟨fun hop hwaits => ?_, fun hop hwaits => ?_⟩, fun hhere => ?_⟩
    · exact hhalts _ _ _ (congrArg Host.Outcome.next ((if_runs hlive hgo _).trans (waitTimeout_eq hheld hst hop hwaits)))
        (timedOut_of_holding hst 0x0B _ _)
    · exact hhalts _ _ _ (congrArg Host.Outcome.next ((if_runs hlive hgo _).trans (barrierTimeout_eq hheld hst hop hwaits)))
        (timedOut_haltCore _ hst 0x0C _ _)
    · exact hhalts _ _ _ (congrArg Host.Outcome.next ((if_runs hlive hgo _).trans (rendezvousTimeout_eq hhere hst)))
        (timedOut_of_holding hst 0x0B _ _)
  · intro s c k hlive
    refine ⟨fun hst hcause => ?_, fun hst => ?_, congrArg Host.Outcome.next (if_pos hlive)⟩
    · obtain ⟨hruns, hhalts⟩ := resumeCore_eq hst hcause
      have hself : (s.modCore c Core.resume).core c = k.resume := core_modCore_self _ _ _
      refine ⟨_, congrArg Host.Outcome.next (if_pos hlive), ?_⟩
      cases hover : k.overflow with
      | none =>
        rw [hruns hover, hself]
        exact ⟨rfl, rfl, coreFrame_modCore s c _, rfl, rfl⟩
      | some n =>
        obtain ⟨hcore, hframe, -⟩ := haltCore_halts (s := s.modCore c Core.resume) (c := c) (by rw [hself]; exact SeqState.noConfusion)
          (by rw [hself]; exact SeqState.noConfusion) 0x0A 6 n k.pc k.pc
        rw [hhalts n hover, hcore, hself]
        exact ⟨rfl, rfl, (coreFrame_modCore s c _).trans hframe, rfl, rfl⟩
    · refine congrArg Host.Outcome.next ((if_pos hlive).trans (modCore_congr _ _ _ _ ?_))
      exact if_pos hst

end Sys2Proof.Machine


/-! ## What the completion of issued work leaves of the cores and of the history (O24) -/

namespace Sys2Proof.Machine

/-- Core k' is k but for what the completion of its issued work changes: queues, arrays, held writes, signals, token counters, and a halt. -/
def WorkCore (k k' : Core) : Prop :=
  k' = { k with
    tokens := k'.tokens, incs := k'.incs, incAt := k'.incAt, overflow := k'.overflow, pc := k'.pc, st := k'.st, exc := k'.exc
    queues := k'.queues, heldWrites := k'.heldWrites, signals := k'.signals, heldAt := k'.heldAt, waitStart := k'.waitStart
    barWait := k'.barWait, twHere := k'.twHere, preWindow := k'.preWindow, arrays := k'.arrays }

theorem WorkCore.trans {k k' k'' : Core} (h : WorkCore k k') (h' : WorkCore k' k'') : WorkCore k k'' := by
  unfold WorkCore at h'
  rw [h] at h'
  exact h'

/-- Between s and t the cores have changed as the completion of issued work changes them, and of the integrity state only the entries that
wait for the history. The lemmas of the namespace say it of reads and writes of the stores, and of passes, transfers and signals. -/
structure WorkFrame (s t : State) : Prop where
  integ : t.integ = { s.integ with histPending := t.integ.histPending }
  core : ∀ d, WorkCore (s.core d) (t.core d)

namespace WorkFrame

theorem refl (s : State) : WorkFrame s s := ⟨rfl, fun _ => rfl⟩

theorem trans {s t u : State} (h : WorkFrame s t) (h' : WorkFrame t u) : WorkFrame s u := by
  refine ⟨?_, fun d => (h.core d).trans (h'.core d)⟩
  have hi := h'.integ
  rw [h.integ] at hi
  exact hi

theorem foldl {β : Type} (f : State → β → State) (hf : ∀ s x, WorkFrame s (f s x)) (l : List β) (s : State) :
    WorkFrame s (l.foldl f s) := foldl_rel refl trans f hf l s

theorem of_eq {s t : State} (hi : t.integ = s.integ) (hc : t.cores = s.cores) : WorkFrame s t :=
  ⟨by rw [hi], fun d => by rw [State.core, State.core, hc]; exact rfl⟩

theorem emit (s : State) (i : RecInfo) : WorkFrame s (s.emit i) := of_eq rfl rfl

theorem modVault (s : State) (v : Nat) (f : Vault → Vault) : WorkFrame s (s.modVault v f) := of_eq rfl rfl

theorem writeP (s : State) (a : Nat) (bs : List PByte) : WorkFrame s (writeP s a bs) := of_eq rfl rfl

theorem setMark (s : State) (g : Nat) : WorkFrame s (setMark s g) := of_eq rfl rfl

theorem setEntry (s : State) (ph n z : Nat) (p : Bool) : WorkFrame s (s.setEntry ph n z p) := of_eq rfl rfl

theorem modCore (s : State) (c : Nat) (f : Core → Core) (hf : ∀ k, WorkCore k (f k)) : WorkFrame s (s.modCore c f) := by
  refine ⟨rfl, fun d => ?_⟩
  rw [core_modCore]
  split
  · exact hf _
  · exact rfl

/-! Reads and writes of the stores -/

theorem noteEvent (s : State) (k : Nat) (u : BitVec 16) (c l : Nat) : WorkFrame s (s.noteEvent k u c l) := by
  unfold State.noteEvent
  dsimp only
  split <;> exact ⟨rfl, fun _ => rfl⟩

theorem sramFlip (s : State) (k : Nat) (e : BitVec 72) : WorkFrame s (sramFlip s k e) := by
  unfold Machine.sramFlip
  dsimp only
  split
  · exact of_eq rfl rfl
  · split <;> exact of_eq rfl rfl

theorem sramRead (s : State) (k : Nat) : WorkFrame s (sramRead s k).1 := by
  unfold Machine.sramRead
  dsimp only
  split
  · exact refl s
  · dsimp only
    refine trans ?_ (noteEvent _ _ _ _ _)
    split
    · exact (sramFlip s k _).trans (modVault _ _ _)
    · exact sramFlip s k _
  · exact emit s _

theorem fetchTile (s : State) (a n : Nat) : WorkFrame s (fetchTile s a n) := by
  refine foldl _ (fun t w => ?_) _ s
  dsimp only
  split
  · exact (sramRead t w).trans (setMark _ _)
  · exact sramRead t w

theorem flushDetections (s : State) (v : Nat) : WorkFrame s (flushDetections s v) := by
  unfold Machine.flushDetections
  dsimp only
  split <;> exact of_eq rfl rfl

theorem detectAt (s : State) (v die a code : Nat) : WorkFrame s (detectAt s v die a code) := by
  unfold Machine.detectAt
  extract_lets w s' u inst
  have hs : WorkFrame s s' := by
    dsimp only [s']
    split
    · exact refl s
    · exact (flushDetections s v).trans (modVault _ _ _)
  refine hs.trans ?_
  split <;> exact of_eq rfl rfl

theorem readGranule (s : State) (g : Nat) (x y : Disturb) : WorkFrame s (readGranule s g x y) := by
  unfold Machine.readGranule
  extract_lets a v stored data unit storedMeta good bad decoded
  have corrected : ∀ b m v f, WorkFrame s ((rewriteGranule s g b m).modVault v f) := fun _ _ _ _ => of_eq rfl rfl
  have hgood : ∀ d fix r, WorkFrame s (good d s fix r) := by
    intro d fix r
    dsimp only [good]
    split
    · exact (corrected _ _ _ _).trans (noteEvent _ _ _ _ _)
    · exact corrected _ _ _ _
  have hbad : ∀ d, WorkFrame s (bad d s) := fun d => (corrected _ _ _ _).trans (detectAt _ _ _ _ _)
  split
  · split
    · exact refl s
    · exact hgood _ _ _
  · exact hgood _ _ _
  · split
    · exact hgood _ _ _
    · exact hgood _ _ _
    · exact hbad _

theorem fetchRange (s : State) (a n : Nat) : WorkFrame s (fetchRange s a n) :=
  (foldl _ (fun t g => readGranule t g quiet quiet) _ s).trans (fetchTile _ _ _)

theorem copyBefore (s : State) (p : Nat) : WorkFrame s (copyBefore s p) := by
  unfold Machine.copyBefore
  dsimp only
  split
  · exact trans (fetchRange s _ _) (of_eq rfl rfl)
  · exact refl s

theorem injectAt (s : State) (g : Nat) : WorkFrame s (injectAt s g) := by
  unfold Machine.injectAt
  extract_lets v i n named pat t t'
  have ht : WorkFrame s t' := by
    dsimp only [t']
    split <;> exact of_eq rfl rfl
  split
  · split
    · exact trans ht (of_eq rfl rfl)
    · split
      · exact trans ht (of_eq rfl rfl)
      · exact ht
  · exact refl s

theorem writeDram (s : State) (a : Nat) (bs : List PByte) : WorkFrame s (writeDram s a bs) := by
  unfold Machine.writeDram
  extract_lets n gs whole s1 s2 s3 s4
  have h1 : WorkFrame s s1 := foldl _ (fun t g => by split; exacts [refl t, fetchRange t _ _]) _ s
  have h2 : WorkFrame s1 s2 := foldl _ copyBefore _ s1
  have h4 : WorkFrame s3 s4 := foldl _ (fun t g => (of_eq rfl rfl : WorkFrame t (clearErrors t g))) _ s3
  have h5 : WorkFrame s4 (setDirty s4 a n) := of_eq rfl rfl
  exact ((h1.trans h2).trans (writeP s2 a bs)).trans ((h4.trans h5).trans (foldl _ injectAt _ _))

theorem store (s : State) (a : Nat) (bs : List PByte) : WorkFrame s (store s a bs) := by
  unfold Machine.store
  split
  · exact refl s
  · split
    · exact writeDram s a bs
    · exact writeP s a bs

theorem readEntry (s : State) (ph n : Nat) : WorkFrame s (readEntry s ph n) := by
  unfold Machine.readEntry
  extract_lets r s'
  have hs : WorkFrame s s' := by
    dsimp only [s']
    split
    · exact (sramRead s _).trans (setEntry _ _ _ _ _)
    · exact sramRead s _
  refine hs.trans ?_
  split
  · exact refl s'
  · exact emit s' _

theorem markRecord (s : State) (v slot : Nat) (e : HotEntry) : WorkFrame s (markRecord s v slot e) := by
  unfold Machine.markRecord
  split
  · exact refl s
  · exact store s _ _

theorem badSlot (s : State) (v slot : Nat) : WorkFrame s (badSlot s v slot) := by
  unfold Machine.badSlot
  dsimp only
  split
  · exact refl s
  · split
    · exact modVault s _ _
    · exact ((setMark s _).trans (setMark _ _)).trans (markRecord _ _ _ _)

theorem fetchSlot (s : State) (v slot : Nat) : WorkFrame s (fetchSlot s v slot) := by
  refine foldl _ (fun t i => ?_) _ s
  dsimp only
  split
  · exact (sramRead t _).trans (badSlot _ _ _)
  · exact sramRead t _

theorem transferFetch (s : State) (c a n : Nat) : WorkFrame s (transferFetch s c a n) := by
  unfold Machine.transferFetch
  split
  · refine foldl _ (fun t i => ?_) _ s
    dsimp only
    split
    · exact readEntry t _ _
    · exact refl t
  · split
    · exact foldl _ (fun t i => fetchSlot t _ _) _ s
    · exact fetchRange s a n

theorem transferWrite (s : State) (c a : Nat) (bs : List PByte) : WorkFrame s (transferWrite s c a bs) := by
  unfold Machine.transferWrite
  split
  · refine foldl _ (fun t i => ?_) _ s
    dsimp only
    split
    · exact setEntry t _ _ _ _
    · exact refl t
  · exact store s a bs

theorem copyRows (s : State) (c : Nat) (segs : List (Nat × Nat × Nat)) : WorkFrame s (copyRows s c segs) :=
  (foldl _ (fun t (x : Nat × Nat × Nat) => transferFetch t c x.1 x.2.2) _ s).trans
    (foldl _ (fun t (x : Nat × Nat × Nat) => transferWrite t c x.2.1 _) _ _)

theorem fetchHeads (s : State) (t : Transfer) : WorkFrame s (fetchHeads s t) := by
  unfold Machine.fetchHeads
  split
  · exact refl s
  · refine foldl _ (fun u x => ?_) _ s
    dsimp only
    split
    · exact fetchRange u _ _
    · exact refl u

theorem writeResult (s0 : State) (ph c : Nat) (p : PassParams) (w : Weights) (f : Option ArrayFault) (gp cp : Nat → Bool) (s : State)
    (g col : Nat) : WorkFrame s (writeResult s0 ph c p w f gp cp s g col) := by
  unfold Machine.writeResult
  dsimp only
  split
  · exact (readEntry s _ _).trans (setEntry _ _ _ _ _)
  · exact setEntry s _ _ _ _

theorem runPass (s : State) (c ph : Nat) (p : Pass) (w : Weights) (f : Option ArrayFault) : WorkFrame s (runPass s c ph p w f).1 := by
  unfold Machine.runPass
  extract_lets par s' k acts ws gPsn cPsn failed stands t n first
  have hs : WorkFrame s s' := (fetchRange s _ _).trans (fetchRange _ _ _)
  have ht : WorkFrame s' t := by
    refine foldl _ (fun t g => foldl _ (fun t col => ?_) _ t) _ s'
    split
    · exact writeResult s' ph c par w f gPsn cPsn t g col
    · exact refl t
  refine (hs.trans ht).trans ?_
  dsimp only
  split
  · exact refl t
  · exact emit t _

theorem drainHeld (n : Nat) (s : State) (c : Nat) : WorkFrame s (drainHeld n s c) := by
  induction n generalizing s with
  | zero => exact refl s
  | succ n ih =>
    unfold Machine.drainHeld
    split
    · exact refl s
    · split
      · exact refl s
      · refine trans (trans ?_ (writeP _ _ _)) (ih _)
        exact modCore s c _ fun _ => rfl

theorem drain (s : State) (c : Nat) : WorkFrame s (s.drain c) := drainHeld _ s c

theorem haltCore (s : State) (c cause slot detail : Nat) (b pc : BitVec 32) : WorkFrame s (s.haltCore c cause slot detail b pc) := by
  unfold State.haltCore
  dsimp only
  split
  · exact refl s
  · exact (emit s _).trans (modCore _ _ _ fun _ => rfl)

theorem addToken (s : State) (c t n : Nat) : WorkFrame s (s.addToken c t n) := by
  unfold State.addToken
  dsimp only
  split
  · split
    · exact modCore s c _ fun _ => rfl
    · exact haltCore s c _ _ _ _ _
  · exact modCore s c _ fun _ => rfl

theorem modHalf (s : State) (c a h : Nat) (f : HalfUnit → HalfUnit) : WorkFrame s (s.modHalf c a h f) := modCore s c _ fun _ => rfl

theorem retireChain (s : State) (c a h : Nat) : WorkFrame s (retireChain s c a h) := by
  unfold Machine.retireChain
  dsimp only
  split
  · exact (modHalf s c a h _).trans (drain _ c)
  · exact refl s

theorem failTargets (s : State) (c a h : Nat) (p : Pass) (f : ArrayFault) : WorkFrame s (failTargets s c a h p f) := by
  refine foldl _ (fun t g => ?_) _ s
  split
  · split
    · exact modHalf t c a g _
    · exact refl t
  · exact refl t

theorem launch (s : State) (c a h : Nat) (p : Pass) : WorkFrame s (launch s c a h p) := by
  refine modCore s c _ fun k => ?_
  unfold Core.admitVector
  dsimp only
  split <;> split <;> exact rfl

theorem passComplete (c a h : Nat) (fault : Option ArrayFault) (s : State) : WorkFrame s (passComplete c a h fault s) := by
  unfold Machine.passComplete
  dsimp only
  split
  · rename_i p ph _ _
    refine iteInduction (fun _ => refl s) fun _ => ?_
    have hlaunch : WorkFrame s (if p.started then s else Machine.launch s c a h p) :=
      iteInduction (fun _ => refl s) fun _ => launch s c a h p
    have hswap : ∀ t : State, WorkFrame t (if p.par.keep then t else t.modCore c fun k => k.modArray a fun x => swapStages x h) :=
      fun t => iteInduction (fun _ => refl t) fun _ => modCore t c _ fun _ => rfl
    have hrun := fun w => (hlaunch.trans (hswap _)).trans (runPass _ c ph p w fault)
    split
    · exact ((hrun _).trans (emit _ _)).trans (failTargets _ _ _ _ _ _)
    · exact ((hrun _).trans (modHalf _ _ _ _ _)).trans (retireChain _ _ _ _)
  · exact refl s

theorem finishPasses (s : State) (c : Nat) : WorkFrame s (finishPasses s c) := by
  refine foldl _ (fun s a => foldl _ (fun s h => ?_) _ s) _ s
  split
  · split
    · exact passComplete c a h none s
    · exact refl s
  · exact refl s

theorem dropPasses (s : State) (c : Nat) : WorkFrame s (dropPasses s c) := by
  refine trans ?_ (drain _ c)
  exact modCore s c _ fun _ => rfl

/-! Transfers -/

theorem setQueue (s : State) (c q : Nat) (f : Core → List Transfer) : WorkFrame s (s.modCore c fun k => k.setQueue q (f k)) :=
  modCore s c _ fun _ => rfl

theorem popTransfer (s : State) (c q : Nat) (t : Transfer) : WorkFrame s (popTransfer s c q t) := by
  unfold Machine.popTransfer
  dsimp only
  split
  · exact (setQueue s c q _).trans (addToken _ _ _ _)
  · exact setQueue s c q _

theorem transferComplete (c q : Nat) (s : State) : WorkFrame s (transferComplete c q s) := by
  unfold Machine.transferComplete
  split
  · exact refl s
  · rename_i t _ _
    have hheads := fetchHeads s t
    have hrefused : ∀ b p, WorkFrame s ((failTransfer (Machine.fetchHeads s t) c q).haltCore c 0x09 5 0 b p) :=
      fun b p => (hheads.trans (setQueue _ c q _)).trans (haltCore _ c 0x09 5 0 b p)
    have hmoved := ((hheads.trans (copyRows _ c t.segs)).trans (popTransfer _ c q t)).trans (drain _ c)
    have hcopy : ∀ {p b : Prop} [Decidable p] [Decidable b] (x y),
        WorkFrame s (if p then s else if b then (failTransfer (Machine.fetchHeads s t) c q).haltCore c 0x09 5 0 x y
          else (Machine.popTransfer (Machine.copyRows (Machine.fetchHeads s t) c t.segs) c q t).drain c) := by
      intro p b _ _ x y
      exact iteInduction (fun _ => refl s) fun _ => iteInduction (fun _ => hrefused _ _) fun _ => hmoved
    split
    · exact hcopy _ _
    · exact hcopy _ _
    · split
      · exact popTransfer s c q t
      · exact refl s

theorem versionFault (s : State) (c q : Nat) (t : Transfer) (code head shard : Nat) :
    WorkFrame s (versionFault s c q t code head shard) :=
  (setQueue s c q _).trans (emit _ _)

theorem ranTransfer (s : State) (c q : Nat) : WorkFrame s (ranTransfer s c q) := setQueue s c q _

/-- A head is read, then its transfer fails or its new head is written (R359, R360). -/
theorem headStep (s : State) (c q : Nat) (t : Transfer) (a v g st h : Nat) (bad good : Prop) [Decidable bad] [Decidable good] :
    WorkFrame s (
      if bad then Machine.versionFault (Machine.fetchRange s a 64) c q t 0x65 h 0
      else if good then Machine.ranTransfer (writeHead (Machine.fetchRange s a 64) a v g st) c q
      else Machine.versionFault (Machine.fetchRange s a 64) c q t 0x62 h 0) := by
  have hread := fetchRange s a 64
  refine iteInduction (fun _ => ?_) fun _ => iteInduction (fun _ => ?_) fun _ => ?_
  · exact hread.trans (versionFault _ c q t _ _ _)
  · exact (hread.trans (store _ _ _)).trans (ranTransfer _ c q)
  · exact hread.trans (versionFault _ c q t _ _ _)

theorem openVersion (c q : Nat) (s : State) : WorkFrame s (openVersion c q s) := by
  unfold Machine.openVersion
  split
  · refine iteInduction (fun _ => ?_) fun _ => refl s
    dsimp only
    split
    · exact refl s
    · exact headStep s c q _ _ _ _ _ _ _ _
  · exact refl s

theorem publishVersion (c q : Nat) (s : State) : WorkFrame s (publishVersion c q s) := by
  unfold Machine.publishVersion
  split
  · refine iteInduction (fun _ => ?_) fun _ => refl s
    dsimp only
    split
    · exact refl s
    · exact headStep s c q _ _ _ _ _ _ _ _
  · exact refl s

theorem gatherRun (c q : Nat) (s : State) : WorkFrame s (gatherRun c q s) := by
  unfold Machine.gatherRun
  split
  · refine iteInduction (fun _ => ?_) fun _ => refl s
    dsimp only
    split
    · exact refl s
    · have hheads : ∀ l : List Nat, WorkFrame s (l.foldl (fun s a => Machine.fetchRange s a 64) s) :=
        fun l => foldl _ (fun t a => fetchRange t a 64) l s
      have hbytes : ∀ (l : List Nat) (f : Nat → Nat) (t : State), WorkFrame t (l.foldl (fun s i => Machine.fetchRange s (f i) 1) t) :=
        fun l f t => foldl _ (fun t i => fetchRange t (f i) 1) l t
      split
      · exact (hheads _).trans (versionFault _ c q _ _ _ _)
      · exact (((hheads _).trans (hbytes _ _ _)).trans (store _ _ _)).trans ((ranTransfer _ c q).trans (drain _ c))
  · exact refl s

theorem runFront (c : Nat) (s : State) (q : Nat) : WorkFrame s (runFront c s q) :=
  (((openVersion c q s).trans (publishVersion c q _)).trans (gatherRun c q _)).trans (transferComplete c q _)

theorem runTransfers (c n : Nat) (s : State) : WorkFrame s (runTransfers c n s) := by
  induction n generalizing s with
  | zero => exact refl s
  | succ n ih => exact iteInduction (fun _ => refl s) fun _ => (foldl _ (runFront c) _ s).trans (ih _)

/-! Signals -/

theorem signalLeave (c : Nat) (s : State) : WorkFrame s (signalLeave c s) := by
  unfold Machine.signalLeave
  dsimp only
  split
  · exact refl s
  · refine iteInduction (fun _ => trans ?_ (addToken _ _ _ _)) fun _ => refl s
    exact modCore s c _ fun _ => rfl

theorem runSignals (c : Nat) (s : State) : WorkFrame s (runSignals c s) := foldl _ (fun t _ => signalLeave c t) _ s

theorem finishCore (c : Nat) (s : State) : WorkFrame s (finishCore c s) :=
  ((finishPasses s c).trans (dropPasses _ c)).trans ((runTransfers c _ _).trans (runSignals c _))

end WorkFrame

end Sys2Proof.Machine

/-! ## Campion's windows and tests (O24) -/

namespace Sys2Proof.Machine

/-! ### Windows that begin (R171, R437, R438) -/

theorem pairCores_nodup (p : Nat) : (pairCores p).Nodup := by simp [pairCores]

/-- The restart of a pair's count leaves the cores, but that no forced window of theirs has begun, and the records. -/
theorem restartPair_keeps (s : State) (p : Nat) :
    (∀ d, (restartPair s p).core d = if d ∈ pairCores p then { s.core d with winForced := false } else s.core d) ∧
      ((restartPair s p).pair p).due = false ∧ ((restartPair s p).pair p).start = s.cycle ∧ (restartPair s p).errRing = s.errRing := by
  have hpair : (restartPair s p).pair p = (s.modPair p fun x => { x with due := false, start := s.cycle, overdueSent := false }).pair p :=
    foldl_keeps (fun t : State => t.pair p) _ (fun _ _ => modCore_pair _ _ _ _) _ _
  refine ⟨fun d => core_foldl_modCore _ _ (pairCores_nodup p) _ d, ?_, ?_, ?_⟩
  · rw [hpair, pair_modPair_self]
  · rw [hpair, pair_modPair_self]
  · rfl

/-- Both cores of a pair begin their window (R437). -/
theorem beginWindows_core (s : State) (p d : Nat) :
    (((pairCores p).foldl beginWindow s).core d) = if d ∈ pairCores p then (s.core d).enterWindow s.cycle else s.core d := by
  have hcycle : (pairCores p).foldl beginWindow s = (pairCores p).foldl (fun t c => t.modCore c (·.enterWindow s.cycle)) s := rfl
  rw [hcycle]
  exact core_foldl_modCore _ _ (pairCores_nodup p) s d

/-- A pair that becomes due is due from now on; with both cores idle it begins its window at once (R171, R437). -/
theorem pairDue_eq {s : State} {p : Nat} (hdue : (s.pair p).due = false) (hbusy : pairBusy s p = false)
    (hstart : (s.pair p).start + 200000000 ≤ s.cycle) :
    pairDue p s =
      let t := s.modPair p fun x => { x with due := true, dueAt := s.cycle, overdueSent := false }
      if (pairCores p).all fun d => (s.core d).st == .idle then restartPair ((pairCores p).foldl beginWindow t) p else t := by
  have hnow : decide (s.cycle < (s.pair p).start + dueCycles) = false := decide_eq_false (Nat.not_lt.2 hstart)
  unfold pairDue
  dsimp only
  rw [hdue, hbusy, hnow]
  rfl

/-- A pair that stays due is recorded overdue for both cores (R172). -/
theorem testOverdue_eq {s : State} {p : Nat} (hdue : (s.pair p).due = true) (hsent : (s.pair p).overdueSent = false)
    (hat : (s.pair p).dueAt + 80000000 ≤ s.cycle) :
    testOverdue p s =
      let t := ((s.emit { code := 0x1F, uclass := 1, uinst := p }).emit { code := 0x1F, uclass := 1, uinst := p + 16 }).modPair p fun x =>
        { x with overdueSent := true }
      { t with integ := { t.integ with overdue := satAdd 8 t.integ.overdue 2 } } := by
  have hnow : decide (s.cycle < (s.pair p).dueAt + overdueCycles) = false := decide_eq_false (Nat.not_lt.2 hat)
  unfold testOverdue
  dsimp only
  rw [hdue, hsent, hnow]
  rfl

/-- The state in which a forced window of core c has begun (R438). -/
def forcedBegun (c : Nat) (s : State) : State :=
  let t := s.emit { code := 0x20, uclass := 1, uinst := c }
  (beginWindow { t with integ := { t.integ with forced := satAdd 8 t.integ.forced 1 } } c).modCore c fun k => { k with winForced := true }

/-- A forced window begins, and with the partner's the pair's count starts again (R438). -/
theorem forcedWindow_eq {s : State} {c : Nat} (hlab : s.integ.lab = false) (hdue : (s.pair (c % 16)).due = true)
    (hat : (s.pair (c % 16)).dueAt + 120000000 ≤ s.cycle) (hwin : (s.core c).winStart = none) (hforced : (s.core c).winForced = false)
    (hready : windowReady (s.core c) s.cycle = true) :
    forcedWindow c s =
      if ((forcedBegun c s).core (partner c)).winForced then restartPair (forcedBegun c s) (c % 16) else forcedBegun c s := by
  have hnow : decide (s.cycle < (s.pair (c % 16)).dueAt + forceCycles) = false := decide_eq_false (Nat.not_lt.2 hat)
  unfold forcedWindow
  dsimp only
  rw [hlab, hdue, hnow, hwin, hforced, hready]
  rfl

theorem forcedBegun_core (c : Nat) (s : State) :
    (forcedBegun c s).core c = { (s.core c).enterWindow s.cycle with winForced := true } := by
  unfold forcedBegun
  rw [core_modCore_self, beginWindow_eq, core_modCore_self]
  rfl

/-! ### Windows that end (R171, R437, R440, R511, R513) -/

/-- Between s and t the count of windows has stayed, and of every core whether it is in a window, and the step at which that began. -/
structure WindowFrame (s t : State) : Prop where
  windows : t.integ.windows = s.integ.windows
  start : ∀ d, (t.core d).winStart = (s.core d).winStart
  step : ∀ d, (t.core d).winStep = (s.core d).winStep

namespace WindowFrame

theorem refl (s : State) : WindowFrame s s := ⟨rfl, fun _ => rfl, fun _ => rfl⟩

theorem trans {s t u : State} (h : WindowFrame s t) (h' : WindowFrame t u) : WindowFrame s u :=
  ⟨h'.windows.trans h.windows, fun d => (h'.start d).trans (h.start d), fun d => (h'.step d).trans (h.step d)⟩

theorem of_workFrame {s t : State} (h : WorkFrame s t) : WindowFrame s t := by
  refine ⟨by rw [h.integ], fun d => ?_, fun d => ?_⟩
  all_goals
    have hd := h.core d
    unfold WorkCore at hd
    rw [hd]

theorem modCore (s : State) (c : Nat) (f : Core → Core) (hstart : ∀ k, (f k).winStart = k.winStart) (hstep : ∀ k, (f k).winStep = k.winStep) :
    WindowFrame s (s.modCore c f) := by
  refine ⟨rfl, fun d => ?_, fun d => ?_⟩ <;> rw [core_modCore] <;> split
  · exact hstart _
  · rfl
  · exact hstep _
  · rfl

theorem mismatchEvent (s : State) (uclass uinst addr : Nat) (lastPass : BitVec 32) : WindowFrame s (mismatchEvent s uclass uinst addr lastPass) :=
  ⟨rfl, fun _ => rfl, fun _ => rfl⟩

/-- A core reset leaves the windows (R511, R513). -/
theorem waitedCoreReset (s : State) (c : Nat) : WindowFrame s (waitedCoreReset s c) := by
  unfold Machine.waitedCoreReset
  refine iteInduction (fun _ => ?_) fun _ => refl s
  have hwait : ∀ w, WindowFrame s { s with waitingReset := w } := fun _ => ⟨rfl, fun _ => rfl, fun _ => rfl⟩
  exact ((hwait _).trans (of_workFrame (WorkFrame.finishCore c _))).trans (modCore _ c _ (fun _ => rfl) fun _ => rfl)

theorem foldl {β : Type} (f : State → β → State) (hf : ∀ s x, WindowFrame s (f s x)) (l : List β) (s : State) :
    WindowFrame s (l.foldl f s) := foldl_rel refl trans f hf l s

end WindowFrame

/-- The ramp of a core's arrays leaves what the core knows of its windows. -/
theorem ramp_window (k : Core) (c b : Nat) : (k.ramp c b).winStart = k.winStart ∧ (k.ramp c b).winStep = k.winStep := by
  unfold Core.ramp
  exact ⟨foldl_keeps Core.winStart (fun k a => k.rampArray c a b) (fun _ _ => rfl) _ k,
    foldl_keeps Core.winStep (fun k a => k.rampArray c a b) (fun _ _ => rfl) _ k⟩

/-- A core that leaves its window is in none; the others are where they were (R171). -/
theorem leaveWindow_core (s : State) (c d : Nat) :
    ((leaveWindow s c).core d).winStart = (if d = c then none else (s.core d).winStart) ∧
      ((leaveWindow s c).core d).winStep = (s.core d).winStep := by
  unfold leaveWindow
  dsimp only
  cases hw : (s.core c).winStart with
  | none =>
    refine ⟨?_, rfl⟩
    by_cases h : d = c
    · rw [if_pos h, h]
      exact hw
    · rw [if_neg h]
  | some w =>
    dsimp only
    rw [core_modCore]
    split
    · obtain ⟨hstart, hstep⟩ := ramp_window _ c s.cycle
      exact ⟨hstart, hstep⟩
    · exact ⟨rfl, rfl⟩

theorem leaveWindow_windows (s : State) (c : Nat) : (leaveWindow s c).integ.windows = s.integ.windows := by
  unfold leaveWindow
  dsimp only
  split <;> rfl

/-- Cores leave their windows, and the resets that waited for that take place (R171, R513). -/
def leaveWindows (cores : List Nat) (s : State) : State := cores.foldl (fun t c => waitedCoreReset (leaveWindow t c) c) s

theorem leaveWindows_cons (c : Nat) (cores : List Nat) (s : State) :
    leaveWindows (c :: cores) s = leaveWindows cores (waitedCoreReset (leaveWindow s c) c) := rfl

/-- Cores that have left their windows are in none; the others are where they were. -/
theorem leaveWindows_spec (cores : List Nat) (s : State) :
    (leaveWindows cores s).integ.windows = s.integ.windows ∧
      (∀ d, ((leaveWindows cores s).core d).winStart = if d ∈ cores then none else (s.core d).winStart) ∧
      ∀ d, ((leaveWindows cores s).core d).winStep = (s.core d).winStep := by
  induction cores generalizing s with
  | nil => exact ⟨rfl, fun _ => rfl, fun _ => rfl⟩
  | cons c cores ih =>
    have hreset := WindowFrame.waitedCoreReset (leaveWindow s c) c
    obtain ⟨hwindows, hstart, hstep⟩ := ih (waitedCoreReset (leaveWindow s c) c)
    rw [leaveWindows_cons]
    refine ⟨hwindows.trans (hreset.windows.trans (leaveWindow_windows s c)), fun d => ?_,
      fun d => (hstep d).trans ((hreset.step d).trans (leaveWindow_core s c d).2)⟩
    rw [hstart, hreset.start, (leaveWindow_core s c d).1]
    by_cases hd : d ∈ cores
    · rw [if_pos hd, if_pos (List.mem_cons_of_mem c hd)]
    · rw [if_neg hd]
      simp [hd]

/-- The cores whose windows TEST_WINDOW_END names: the forced one of the pair, or both of the pair (R437, R438). -/
def windowCores (p : Nat) (forced : Option CoreId) : List Nat :=
  match forced with
  | some d => if d.val % 16 = p then [d.val] else []
  | none => pairCores p

/-- Whether a core had a control-parity error inside its window (R441). -/
def parityHit (parity : Option CoreId) (c : Nat) : Bool :=
  match parity with
  | some d => d.val == c
  | none => false

/-- Windows end and are counted (R171). -/
def endWindows (cores : List Nat) (s : State) : State :=
  { leaveWindows cores s with
    integ := { (leaveWindows cores s).integ with windows := satAdd 32 (leaveWindows cores s).integ.windows cores.length } }

/-- A control-parity error inside a window is a mismatch against its core (R441). -/
def parityMismatches (cores : List Nat) (s : State) : State :=
  cores.foldl (fun t c => mismatchEvent t 1 c 0 (t.core c).lastPass) s

/-- A core whose window showed its pair's signature: the step of its window is its last passing step (R440). -/
def Core.notePass (k : Core) : Core := { k with lastPass := k.winStep }

/-- With both cores of a pair through, equal signatures are a new passing step of the cores listed, different ones wait for the reference
(R440). -/
def compareSignatures (p : Nat) (sigEqual : Bool) (passing : List Nat) (s : State) : State :=
  if pairBusy s p then s
  else if sigEqual then passing.foldl (fun t c => t.modCore c Core.notePass) s
  else s.modPair p fun x => { x with mismatch := true }

/-- The windows named that have lasted 200 µs end, and the signatures of a pair that is through are compared (R171, R440, R441). -/
theorem windowEnd_eq {s : State} {p : Nat} {forced : Option CoreId} (sigEqual : Bool) (parity : Option CoreId)
    (hcores : windowCores p forced ≠ []) (hends : ∀ d ∈ windowCores p forced, ∃ w, (s.core d).winStart = some w ∧ w + 160000 ≤ s.cycle) :
    windowEnd p forced sigEqual parity s =
      compareSignatures p sigEqual ((pairCores p).filter fun c => !parityHit parity c)
        (parityMismatches ((windowCores p forced).filter (parityHit parity)) (endWindows (windowCores p forced) s)) := by
  refine if_neg ?_
  rw [Bool.or_eq_true, not_or, Bool.not_eq_true, Bool.not_eq_true, Bool.not_eq_false']
  refine ⟨List.isEmpty_eq_false_iff.2 hcores, List.all_eq_true.2 fun d hd => ?_⟩
  obtain ⟨w, hw, hlong⟩ := hends d hd
  rw [hw]
  exact decide_eq_true hlong

theorem compareSignatures_window (p : Nat) (sigEqual : Bool) (passing : List Nat) (s : State) :
    WindowFrame s (compareSignatures p sigEqual passing s) := by
  refine iteInduction (fun _ => .refl s) fun _ => iteInduction (fun _ => ?_) fun _ => ⟨rfl, fun _ => rfl, fun _ => rfl⟩
  exact WindowFrame.foldl _ (fun t c => .modCore t c Core.notePass (fun _ => rfl) fun _ => rfl) _ s

/-- Windows that end are counted, and their cores are in none (R171). -/
theorem windowEnd_over {s : State} {p : Nat} {forced : Option CoreId} (sigEqual : Bool) (parity : Option CoreId)
    (hcores : windowCores p forced ≠ []) (hends : ∀ d ∈ windowCores p forced, ∃ w, (s.core d).winStart = some w ∧ w + 160000 ≤ s.cycle) :
    (∀ d ∈ windowCores p forced, ((windowEnd p forced sigEqual parity s).core d).winStart = none) ∧
      (windowEnd p forced sigEqual parity s).integ.windows = satAdd 32 s.integ.windows (windowCores p forced).length := by
  obtain ⟨hwindows, hstart, -⟩ := leaveWindows_spec (windowCores p forced) s
  have hframe := (WindowFrame.foldl (fun t c => mismatchEvent t 1 c 0 (t.core c).lastPass) (fun t c => .mismatchEvent t 1 c 0 _)
    ((windowCores p forced).filter (parityHit parity)) (endWindows (windowCores p forced) s)).trans
      (compareSignatures_window p sigEqual ((pairCores p).filter fun c => !parityHit parity c) _)
  rw [windowEnd_eq sigEqual parity hcores hends]
  refine ⟨fun d hd => (hframe.start d).trans ((hstart d).trans (if_pos hd)), hframe.windows.trans ?_⟩
  rw [← hwindows]
  rfl

/-- With both windows of a pair over, equal signatures are a new passing step of its cores, different ones wait for the reference (R440). -/
theorem windowEnd_compared {s : State} {p : Nat} (sigEqual : Bool)
    (hends : ∀ d ∈ pairCores p, ∃ w, (s.core d).winStart = some w ∧ w + 160000 ≤ s.cycle) :
    if sigEqual then ∀ d ∈ pairCores p, ((windowEnd p none sigEqual none s).core d).lastPass = (s.core d).winStep
    else ((windowEnd p none sigEqual none s).pair p).mismatch = true := by
  obtain ⟨-, hstart, hstep⟩ := leaveWindows_spec (pairCores p) s
  have hidle : pairBusy (endWindows (pairCores p) s) p = false := by
    refine List.any_eq_false.2 fun d hd => ?_
    have hnone : ((endWindows (pairCores p) s).core d).winStart = none := (hstart d).trans (if_pos hd)
    rw [hnone]
    exact Bool.false_ne_true
  have heq : windowEnd p none sigEqual none s = compareSignatures p sigEqual (pairCores p) (endWindows (pairCores p) s) :=
    windowEnd_eq (forced := none) sigEqual none (List.cons_ne_nil _ _) hends
  rw [heq, compareSignatures, hidle]
  cases sigEqual with
  | true =>
    intro d hd
    refine Eq.trans ?_ (hstep d)
    exact congrArg Core.lastPass ((core_foldl_modCore _ _ (pairCores_nodup p) _ d).trans (if_pos hd))
  | false => exact congrArg Pair.mismatch (pair_modPair_self _ p _)

/-! ### The reference engine (R440, R448) -/

/-- From s to t the records `l` have entered the error ring, and Campion's pairs have stayed. -/
structure RingGains (s t : State) (l : List Rec) : Prop where
  ring : t.errRing = s.errRing ++ l
  pairs : t.integ.pairs = s.integ.pairs

namespace RingGains

theorem nothing {s t : State} (hring : t.errRing = s.errRing) (hpairs : t.integ.pairs = s.integ.pairs) : RingGains s t [] :=
  ⟨by rw [hring, List.append_nil], hpairs⟩

theorem refl (s : State) : RingGains s s [] := nothing rfl rfl

theorem trans {s t u : State} {l m : List Rec} (h : RingGains s t l) (h' : RingGains t u m) : RingGains s u (l ++ m) :=
  ⟨by rw [h'.ring, h.ring, List.append_assoc], h'.pairs.trans h.pairs⟩

theorem modCore (s : State) (c : Nat) (f : Core → Core) : RingGains s (s.modCore c f) [] := nothing rfl rfl

theorem idleCores (s : State) : RingGains s s.idleCores [] :=
  foldl_rel (R := fun s t => RingGains s t []) refl trans _ (fun t c => modCore t c _) _ s

theorem jobEvent (s : State) (kind : Nat) : RingGains s (s.jobEvent kind) [] := by
  have h := SessionFrame.jobEvent s kind
  unfold SessionFrame at h
  rw [h]
  exact nothing rfl rfl

theorem haltJob (s : State) : RingGains s s.haltJob [] := by
  unfold State.haltJob
  split
  · exact refl s
  · refine iteInduction (motive := fun t => RingGains s t []) (fun _ => refl s) fun _ => ?_
    have hstopped : ∀ (t : State) j w, RingGains t { t with job := j, commitWait := w } [] := fun _ _ _ => nothing rfl rfl
    exact ((idleCores s).trans (hstopped _ _ _)).trans (jobEvent _ 5)

theorem addAction (s : State) (a : Action) : RingGains s (s.addAction a) [] :=
  iteInduction (motive := fun t => RingGains s t []) (fun _ => refl s) fun _ => nothing rfl rfl

theorem dropLanes (s : State) (uclass uinst loc code : Nat) : RingGains s (dropLanes s uclass uinst loc code) [] :=
  iteInduction (motive := fun t => RingGains s t []) (fun _ => nothing rfl rfl) fun _ => refl s

theorem stopAtBoundary (s : State) : RingGains s s.stopAtBoundary [] := by
  unfold State.stopAtBoundary
  split
  · exact refl s
  · exact nothing rfl rfl

/-- A mismatch enters one record against its unit (R440). -/
theorem mismatchEvent (s : State) (uclass uinst addr : Nat) (lastPass : BitVec 32) :
    ∃ r : Rec, RingGains s (mismatchEvent s uclass uinst addr lastPass) [r] ∧ r.code = 0x1E ∧ r.uclass = BitVec.ofNat 4 uclass ∧
      r.uinst = BitVec.ofNat 12 uinst :=
  ⟨_, ⟨rfl, rfl⟩, rfl, rfl, rfl⟩

/-- A mismatch that is classified permanent enters one record of it (R448). -/
theorem classify (s : State) (uclass uinst loc : Nat) :
    ∃ r : Rec, RingGains s (classify s uclass uinst loc 0x1E) [r] ∧ r.code = 0x23 ∧ r.detail = 0x1E := by
  let i : RecInfo := { code := 0x23, uclass := uclass, uinst := uinst, addr := loc, detail := 0x1E }
  refine ⟨s.record i, ?_, rfl, rfl⟩
  unfold Machine.classify
  extract_lets t1 _ t2 t3 atOnce t4 used
  have hrecord : RingGains s t2 [s.record i] := ⟨rfl, rfl⟩
  have hlater : atOnce = false := Bool.and_false _
  have hacted : RingGains t3 t4 [] := by
    dsimp only [t4]
    rw [if_neg (Bool.eq_false_iff.1 hlater)]
    split
    · exact addAction t3 _
    · exact refl t3
  refine (hrecord.trans (dropLanes _ uclass uinst loc 0x1E)).trans (hacted.trans ?_)
  exact iteInduction (motive := fun t => RingGains t4 t []) (fun _ => haltJob t4) fun _ =>
    iteInduction (motive := fun t => RingGains t4 t []) (fun _ => refl t4) fun _ => stopAtBoundary t4

theorem pair {s t : State} {l : List Rec} (h : RingGains s t l) (p : Nat) : t.pair p = s.pair p := by
  rw [State.pair, State.pair, h.pairs]

end RingGains

/-- A core's signature against the reference: one that agrees is a passing step, one that differs a mismatch of the unit tested, permanent
when the rerun reproduces it (R440, R448). -/
def recompute (unit sub : Nat) (s : State) (c : Nat) (ok rerunOk : Bool) : State :=
  if ok then s.modCore c Core.notePass
  else
    let u := testedUnit unit sub c
    let t := mismatchEvent s u.1 u.2 0 (s.core c).lastPass
    if rerunOk then t else classify t u.1 u.2 0 0x1E

/-- Both cores of the pair meet the reference; when both agree with it, the reference engine is named (R440). -/
theorem referenceRecompute_eq {s : State} {p : Nat} (hwaits : (s.pair p).mismatch = true) (unit sub : Nat) (ok1 ok2 r1 r2 : Bool) :
    referenceRecompute p unit sub ok1 ok2 r1 r2 s =
      let t := recompute unit sub (recompute unit sub (s.modPair p fun x => { x with mismatch := false }) p ok1 r1) (p + 16) ok2 r2
      if ok1 && ok2 then mismatchEvent t 0xC 0 0 0 else t := by
  unfold referenceRecompute
  rw [hwaits]
  rfl

/-- The records of a core whose signature differs: the mismatch of its unit, and the classification of one that the rerun reproduces. -/
def Reported (unit sub c : Nat) (rerunOk : Bool) (l : List Rec) : Prop :=
  (∃ r ∈ l, r.code = 0x1E ∧ r.uclass = BitVec.ofNat 4 (testedUnit unit sub c).1 ∧ r.uinst = BitVec.ofNat 12 (testedUnit unit sub c).2) ∧
    (rerunOk = false → ∃ r ∈ l, r.code = 0x23 ∧ r.detail = 0x1E)

theorem Reported.mono {unit sub c : Nat} {rerunOk : Bool} {l m : List Rec} (h : Reported unit sub c rerunOk l) (hsub : l ⊆ m) :
    Reported unit sub c rerunOk m := by
  obtain ⟨⟨r, hr, hfields⟩, hperm⟩ := h
  refine ⟨⟨r, hsub hr, hfields⟩, fun hrerun => ?_⟩
  obtain ⟨q, hq, hcodes⟩ := hperm hrerun
  exact ⟨q, hsub hq, hcodes⟩

/-- A core that differs from the reference is reported, one that agrees is not. -/
theorem recompute_gains (unit sub : Nat) (s : State) (c : Nat) (ok rerunOk : Bool) :
    ∃ l, RingGains s (recompute unit sub s c ok rerunOk) l ∧ (ok = true → l = []) ∧ (ok = false → Reported unit sub c rerunOk l) := by
  cases ok with
  | true => exact ⟨[], .modCore s c _, fun _ => rfl, nofun⟩
  | false =>
    obtain ⟨r, hr, hcode, hclass, hinst⟩ :=
      RingGains.mismatchEvent s (testedUnit unit sub c).1 (testedUnit unit sub c).2 0 (s.core c).lastPass
    cases rerunOk with
    | true => exact ⟨[r], hr, nofun, fun _ => ⟨⟨r, by simp, hcode, hclass, hinst⟩, nofun⟩⟩
    | false =>
      obtain ⟨q, hq, hperm⟩ := RingGains.classify
        (mismatchEvent s (testedUnit unit sub c).1 (testedUnit unit sub c).2 0 (s.core c).lastPass)
        (testedUnit unit sub c).1 (testedUnit unit sub c).2 0
      exact ⟨[r, q], hr.trans hq, nofun, fun _ => ⟨⟨r, by simp, hcode, hclass, hinst⟩, fun _ => ⟨q, by simp, hperm⟩⟩⟩

/-- What the comparison of a pair with the reference records (R440, R448). -/
theorem referenceRecompute_spec {s : State} {p : Nat} (hwaits : (s.pair p).mismatch = true) (unit sub : Nat) (ok1 ok2 r1 r2 : Bool) :
    ∃ l, (referenceRecompute p unit sub ok1 ok2 r1 r2 s).errRing = s.errRing ++ l ∧
      ((referenceRecompute p unit sub ok1 ok2 r1 r2 s).pair p).mismatch = false ∧
      (ok1 = false → Reported unit sub p r1 l) ∧ (ok2 = false → Reported unit sub (p + 16) r2 l) ∧
      (ok1 = true → ok2 = true → ∃ r : Rec, l = [r] ∧ r.code = 0x1E ∧ r.uclass = 0xC) := by
  have hclosed : ((s.modPair p fun x => { x with mismatch := false }).pair p).mismatch = false :=
    congrArg Pair.mismatch (pair_modPair_self s p _)
  obtain ⟨l1, hgain1, hnone1, hreport1⟩ := recompute_gains unit sub (s.modPair p fun x => { x with mismatch := false }) p ok1 r1
  obtain ⟨l2, hgain2, hnone2, hreport2⟩ := recompute_gains unit sub _ (p + 16) ok2 r2
  have hgain := hgain1.trans hgain2
  rw [referenceRecompute_eq hwaits]
  dsimp only
  by_cases hboth : (ok1 && ok2) = true
  · obtain ⟨rfl, rfl⟩ := Bool.and_eq_true_iff.1 hboth
    obtain rfl := hnone1 rfl
    obtain rfl := hnone2 rfl
    obtain ⟨r, hr, hcode, hclass, -⟩ := RingGains.mismatchEvent _ 0xC 0 0 0
    have hall := hgain.trans hr
    exact ⟨[r], hall.ring, (congrArg Pair.mismatch (hall.pair p)).trans hclosed, nofun, nofun, fun _ _ => ⟨r, rfl, hcode, hclass⟩⟩
  · rw [if_neg hboth]
    exact ⟨l1 ++ l2, hgain.ring, (congrArg Pair.mismatch (hgain.pair p)).trans hclosed,
      fun h => (hreport1 h).mono (List.subset_append_left _ _), fun h => (hreport2 h).mono (List.subset_append_right _ _),
      fun h1 h2 => absurd (Bool.and_eq_true_iff.2 ⟨h1, h2⟩) hboth⟩

/-! ### Campion (O24) -/

section
variable {s : State} (hlive : s.live = true) (hgo : s.stopped = false)
include hlive hgo

/-- PAIR_DUE of a pair whose count has run (R171, R437). -/
theorem pairDue_spec (p : PairId) (hdue : (s.pair p).due = false) (hbusy : pairBusy s p = false)
    (hstart : (s.pair p).start + 200000000 ≤ s.cycle) :
    ∃ t, exec (.pairDue p) s = .next t ∧
      if (pairCores p).all fun d => (s.core d).st == .idle then
        (∀ d ∈ pairCores p, (t.core d).st = .window ∧ (t.core d).winStart = some s.cycle) ∧ (t.pair p).due = false ∧
          (t.pair p).start = s.cycle
      else t = s.modPair p fun x => { x with due := true, dueAt := s.cycle, overdueSent := false } := by
  refine ⟨_, congrArg Host.Outcome.next (if_runs hlive hgo _), ?_⟩
  rw [pairDue_eq hdue hbusy hstart]
  dsimp only
  by_cases hidle : ((pairCores p).all fun d => (s.core d).st == .idle) = true
  · rw [if_pos hidle, if_pos hidle]
    obtain ⟨hcore, hdue', hstart', -⟩ := restartPair_keeps ((pairCores p).foldl beginWindow (s.modPair p fun x =>
      { x with due := true, dueAt := s.cycle, overdueSent := false })) p
    refine ⟨fun d hd => ?_, hdue', hstart'⟩
    rw [hcore, if_pos hd, beginWindows_core, if_pos hd]
    exact ⟨rfl, rfl⟩
  · rw [if_neg hidle, if_neg hidle]

/-- TEST_OVERDUE of a pair due for 100 ms (R172). -/
theorem testOverdue_spec (p : PairId) (hdue : (s.pair p).due = true) (hsent : (s.pair p).overdueSent = false)
    (hat : (s.pair p).dueAt + 80000000 ≤ s.cycle) :
    ∃ t r q, exec (.testOverdue p) s = .next t ∧ t.errRing = s.errRing ++ [r, q] ∧ r.code = 0x1F ∧ q.code = 0x1F ∧
      r.uinst = BitVec.ofNat 12 p.val ∧ q.uinst = BitVec.ofNat 12 (p.val + 16) ∧ (t.pair p).overdueSent = true := by
  let i : RecInfo := { code := 0x1F, uclass := 1, uinst := p }
  let j : RecInfo := { code := 0x1F, uclass := 1, uinst := p + 16 }
  have hsent' : ((((s.emit i).emit j).modPair p fun x => { x with overdueSent := true }).pair p).overdueSent = true :=
    congrArg Pair.overdueSent (pair_modPair_self _ p _)
  refine ⟨_, s.record i, (s.emit i).record j, congrArg Host.Outcome.next ((if_runs hlive hgo _).trans (testOverdue_eq hdue hsent hat)), ?_,
    rfl, rfl, rfl, rfl, hsent'⟩
  exact List.append_assoc s.errRing [s.record i] [(s.emit i).record j]

/-- FORCED_TEST_WINDOW of a core whose work has completed (R438). -/
theorem forcedWindow_spec (c : CoreId) (hdue : (s.pair (c.val % 16)).due = true) (hat : (s.pair (c.val % 16)).dueAt + 120000000 ≤ s.cycle)
    (hlab : s.integ.lab = false) (hwin : (s.core c).winStart = none) (hforced : (s.core c).winForced = false)
    (hready : windowReady (s.core c) s.cycle = true) :
    ∃ t r, exec (.forcedTestWindow c) s = .next t ∧ t.errRing = s.errRing ++ [r] ∧ r.code = 0x20 ∧
      (t.core c).st = .window ∧ (t.core c).winStart = some s.cycle := by
  refine ⟨_, s.record { code := 0x20, uclass := 1, uinst := c }, congrArg Host.Outcome.next (if_runs hlive hgo _), ?_⟩
  have hbegun : (forcedBegun c s).errRing = s.errRing ++ [s.record { code := 0x20, uclass := 1, uinst := c }] := rfl
  have hcore := forcedBegun_core c s
  rw [forcedWindow_eq hlab hdue hat hwin hforced hready]
  split
  · obtain ⟨hkeeps, -, -, hring⟩ := restartPair_keeps (forcedBegun c s) (c % 16)
    refine ⟨hring.trans hbegun, rfl, ?_⟩
    rw [hkeeps, hcore]
    split <;> exact ⟨rfl, rfl⟩
  · rw [hcore]
    exact ⟨hbegun, rfl, rfl, rfl⟩

/-- TEST_WINDOW_END of windows that have lasted 200 µs (R171, R440). -/
theorem testWindowEnd_spec (p : PairId) (forced : Option CoreId) (eq : Bool) (parity : Option CoreId)
    (hcores : windowCores p forced ≠ []) (hends : ∀ d ∈ windowCores p forced, ∃ w, (s.core d).winStart = some w ∧ w + 160000 ≤ s.cycle) :
    ∃ t, exec (.testWindowEnd p forced eq parity) s = .next t ∧ (∀ d ∈ windowCores p forced, (t.core d).winStart = none) ∧
      t.integ.windows = satAdd 32 s.integ.windows (windowCores p forced).length ∧
      (forced = none → parity = none →
        if eq then ∀ d ∈ pairCores p, (t.core d).lastPass = (s.core d).winStep else (t.pair p).mismatch = true) := by
  obtain ⟨hstart, hwindows⟩ := windowEnd_over eq parity hcores hends
  refine ⟨_, congrArg Host.Outcome.next (if_runs hlive hgo _), hstart, hwindows, ?_⟩
  rintro rfl rfl
  exact windowEnd_compared eq hends

/-- CAMPION_UNIT_TEST outside the lab mode (R439). -/
theorem campionUnitTest_spec (u : TestUnit) (hlab : s.integ.lab = false) :
    exec (.campionUnitTest u true) s = .next s ∧
      ∃ t r, exec (.campionUnitTest u false) s = .next t ∧ t.errRing = s.errRing ++ [r] ∧ r.code = 0x1E := by
  have hpass : unitTest u true s = s := if_pos (Bool.or_true _)
  have hfail : unitTest u false s = mismatchEvent s (unitUnderTest u).1 (unitUnderTest u).2 0 0 := by
    unfold unitTest
    rw [hlab]
    rfl
  obtain ⟨r, hr, hcode, -⟩ := RingGains.mismatchEvent s (unitUnderTest u).1 (unitUnderTest u).2 0 0
  exact ⟨congrArg Host.Outcome.next ((if_runs hlive hgo _).trans hpass), _, r,
    congrArg Host.Outcome.next ((if_runs hlive hgo _).trans hfail), hr.ring, hcode⟩

end

/-- Settles O24: each command by the equation of its effect, the windows' ends through what a core reset leaves of the windows, and the
reference engine by the records that the comparison of each core adds. -/
theorem campionWindows : Obligations.CampionWindows := by
  unfold Obligations.CampionWindows
  refine ⟨fun s p c u forced eq parity => ?_, fun s p unit sub ok1 ok2 r1 r2 => ?_⟩
  · intro x y cores hlive hgo
    refine ⟨pairDue_spec hlive hgo p, testOverdue_spec hlive hgo p, forcedWindow_spec hlive hgo c, fun hcores hends => ?_,
      campionUnitTest_spec hlive hgo u⟩
    obtain ⟨t, hexec, hstart, hwindows, hcompared⟩ := testWindowEnd_spec hlive hgo p forced eq parity hcores hends
    exact ⟨t, hexec, hstart, hwindows, fun hforced hparity _ => hcompared hforced hparity⟩
  · intro differs hlive hwaits
    obtain ⟨l, hring, hclosed, hdiffers1, hdiffers2, hagree⟩ := referenceRecompute_spec hwaits unit sub.toNat ok1 ok2 r1 r2
    have hdrop : (referenceRecompute p unit sub.toNat ok1 ok2 r1 r2 s).errRing.drop s.errRing.length = l := by
      rw [hring, List.drop_left]
    refine ⟨_, congrArg Host.Outcome.next (if_pos hlive), hclosed, ?_, ?_, fun h1 h2 => ?_⟩
    · dsimp only [differs]
      rw [hdrop]
      exact hdiffers1
    · dsimp only [differs]
      rw [hdrop]
      exact hdiffers2
    · obtain ⟨r, rfl, hcode, hclass⟩ := hagree h1 h2
      exact ⟨r, hring, hcode, hclass⟩

end Sys2Proof.Machine

/-! ## Events of the vaults (O26) -/

namespace Sys2Proof.Machine

/-! ### What a stop of the job and a classification leave (R33, R424, R448, R451) -/

/-- State t is s but for the cores, the job and what goes to the host: what a stop of the job changes. -/
def StopFrame (s t : State) : Prop :=
  t = { s with cores := t.cores, job := t.job, commitWait := t.commitWait, sessions := t.sessions, hostOut := t.hostOut }

theorem StopFrame.trans {s t u : State} (h : StopFrame s t) (h' : StopFrame t u) : StopFrame s u := by
  unfold StopFrame at h'
  rw [h] at h'
  exact h'

theorem StopFrame.integ {s t : State} (h : StopFrame s t) : t.integ = s.integ := by rw [h]

theorem idleCores_frame (s : State) : StopFrame s s.idleCores :=
  foldl_rel (R := StopFrame) (fun _ => rfl) StopFrame.trans _ (fun t c => show StopFrame t (t.modCore c _) from rfl) _ s

theorem jobEvent_frame (s : State) (kind : Nat) : StopFrame s (s.jobEvent kind) := by
  have h := SessionFrame.jobEvent s kind
  unfold SessionFrame at h
  rw [h]
  exact rfl

theorem haltJob_frame (s : State) : StopFrame s s.haltJob := by
  unfold State.haltJob
  split
  · exact rfl
  · have hstopped : ∀ t j w, StopFrame t { t with job := j, commitWait := w } := fun _ _ _ => rfl
    refine iteInduction (fun _ => rfl) fun _ => ?_
    exact ((idleCores_frame s).trans (hstopped _ _ _)).trans (jobEvent_frame _ 5)

theorem stopAtBoundary_frame (s : State) : StopFrame s s.stopAtBoundary := by
  unfold State.stopAtBoundary
  split <;> exact rfl

/-- Between s and t records have only been added, and the vaults have stayed. -/
structure KeepsVaults (s t : State) : Prop where
  ring : RingGrows s t
  vaults : t.vaults = s.vaults

namespace KeepsVaults

theorem refl (s : State) : KeepsVaults s s := ⟨RingGrows.refl s, rfl⟩

theorem trans {s t u : State} (h : KeepsVaults s t) (h' : KeepsVaults t u) : KeepsVaults s u :=
  ⟨h.ring.trans h'.ring, h'.vaults.trans h.vaults⟩

theorem of_eq {s t : State} (h : t.errRing = s.errRing) (hv : t.vaults = s.vaults) : KeepsVaults s t := ⟨RingGrows.of_eq h, hv⟩

theorem of_stop {s t : State} (h : StopFrame s t) : KeepsVaults s t := by
  rw [h]
  exact of_eq rfl rfl

theorem emit (s : State) (i : RecInfo) : KeepsVaults s (s.emit i) := ⟨RingGrows.emit s i, rfl⟩

theorem writeAmendment (s : State) (kind : Nat) (grade : BitVec 8) (m : List Byte) : KeepsVaults s (writeAmendment s kind grade m) :=
  iteInduction (fun _ => refl s) fun _ => of_eq rfl rfl

theorem withdrawPart (s : State) : KeepsVaults s (withdrawPart s) := by
  have hwithdrawn : ∀ t w, KeepsVaults t { t with integ := w } := fun _ _ => of_eq rfl rfl
  exact iteInduction (fun _ => refl s) fun _ => ((emit s _).trans (hwithdrawn _ _)).trans (writeAmendment _ _ _ _)

theorem withdrawNow (s : State) : KeepsVaults s (withdrawNow s) :=
  iteInduction (fun _ => refl s) fun _ => (withdrawPart s).trans (of_stop (haltJob_frame _))

theorem addAction (s : State) (a : Action) : KeepsVaults s (s.addAction a) := iteInduction (fun _ => refl s) fun _ => of_eq rfl rfl

theorem dropLanes (s : State) (uclass uinst loc code : Nat) : KeepsVaults s (dropLanes s uclass uinst loc code) :=
  iteInduction (fun _ => of_eq rfl rfl) fun _ => refl s

/-- A permanent classification acts on the job and the part, and leaves the vaults (R448, R449, R451). -/
theorem classify (s : State) (uclass uinst loc code : Nat) : KeepsVaults s (classify s uclass uinst loc code) := by
  unfold Machine.classify
  extract_lets t1 _ t2 t3 atOnce t4 used
  have hcounted : KeepsVaults s t2 := (emit s _).trans (of_eq rfl rfl)
  have hacted : KeepsVaults t3 t4 := by
    refine iteInduction (fun _ => withdrawNow t3) fun _ => ?_
    split
    · exact addAction t3 _
    · exact refl t3
  refine (hcounted.trans (dropLanes t2 uclass uinst loc code)).trans (hacted.trans ?_)
  exact iteInduction (fun _ => of_stop (haltJob_frame t4)) fun _ =>
    iteInduction (fun _ => refl t4) fun _ => of_stop (stopAtBoundary_frame t4)

end KeepsVaults

/-! ### Command paths (R195, R449) -/

theorem writeAmendment_integ (s : State) (kind : Nat) (grade : BitVec 8) (m : List Byte) :
    (writeAmendment s kind grade m).integ = s.integ := by
  unfold writeAmendment
  split <;> rfl

theorem withdrawPart_withdrawn (s : State) : (withdrawPart s).integ.withdrawn = true := by
  unfold withdrawPart
  split
  · assumption
  · exact congrArg Integrity.withdrawn (writeAmendment_integ _ _ _ _)

theorem withdrawNow_withdrawn (s : State) : (withdrawNow s).integ.withdrawn = true := by
  unfold withdrawNow
  split
  · assumption
  · rw [(haltJob_frame _).integ]
    exact withdrawPart_withdrawn s

/-- The classification of a command path withdraws the part at once (R449). -/
theorem classify_path_withdrawn (s : State) (uinst loc : Nat) : (classify s 6 uinst loc 0x18).integ.withdrawn = true :=
  withdrawNow_withdrawn _

/-- A record stands behind the ring in which it was written. -/
theorem record_mem_drop {s t : State} {i : RecInfo} (h : RingGrows (s.emit i) t) : s.record i ∈ t.errRing.drop s.errRing.length := by
  obtain ⟨l, hl⟩ := h
  rw [← hl, emit_errRing]
  simp

/-! ### Detections (R199) -/

/-- The end of a window that has passed writes the summary of what it replaced, if anything, and counts anew. -/
theorem detectionSummary_spec (s : State) (v : Nat) (hpast : (s.vault v).detWindow < s.nowNs / 1000000) :
    let t := detectionSummary v s
    (t.vault v).detCount = 0 ∧ (t.vault v).detFirst = none ∧ ((s.vault v).detFirst = none → t.errRing = s.errRing) ∧
      ∀ inst a, (s.vault v).detFirst = some (inst, a) →
        ∃ r, t.errRing = s.errRing ++ [r] ∧ r.code = 0x16 ∧ r.addr = a ∧ r.count = BitVec.ofNat 32 (s.vault v).detSkipped := by
  unfold detectionSummary
  rw [if_pos hpast]
  unfold flushDetections
  dsimp only
  rw [vault_modVault_self, vault_modVault_self]
  refine ⟨rfl, rfl, fun hnone => ?_, fun inst a hfirst => ?_⟩
  · rw [hnone]
    rfl
  · rw [hfirst]
    exact ⟨_, rfl, rfl, (BitVec.ofNat_toNat 48 a).trans a.setWidth_eq, rfl⟩

/-! ### Refresh and injection (R212, R218) -/

theorem refreshBank_pointer (s : State) (v die bank : Nat) (hon : (s.vault v).otstop = false) :
    mget 0 ((refreshBank v die bank s).vault v).refreshPtr (die * 32 + bank) =
      (mget 0 (s.vault v).refreshPtr (die * 32 + bank) + 4) % 6144 := by
  unfold refreshBank
  rw [hon, if_neg Bool.false_ne_true, vault_modVault_self]
  exact mget_mset_self _ _ _ _

/-- A write of VLT_INJ while no injection is armed takes every field. -/
theorem writeInject_unarmed (i : Inject) (x : Word) (h : i.arm = false) :
    writeInject i x = ⟨x.getLsbD 63, x.extractLsb' 60 3, x.extractLsb' 54 6, x.extractLsb' 48 6, x.extractLsb' 42 6, x.extractLsb' 6 32⟩ := by
  unfold writeInject
  rw [h]
  rfl

/-! ### The self-test (R203 to R209) -/

/-- The substitution of a spare for failing pages, from s to t: a page once redirected stays so, a vault once full stays so, and neither the
stored bytes nor the outcome of the test change. -/
structure KeepsSpares (v : Nat) (s t : State) : Prop where
  mem : t.mem = s.mem
  stFail : (t.vault v).stFail = (s.vault v).stFail
  full : (s.vault v).remapFull = true → (t.vault v).remapFull = true
  redirects : ∀ d b p, (s.vault v).redirects d b p = true → (t.vault v).redirects d b p = true

namespace KeepsSpares

theorem refl (v : Nat) (s : State) : KeepsSpares v s s := ⟨rfl, rfl, id, fun _ _ _ => id⟩

theorem trans {v : Nat} {s t u : State} (h : KeepsSpares v s t) (h' : KeepsSpares v t u) : KeepsSpares v s u :=
  ⟨h'.mem.trans h.mem, h'.stFail.trans h.stFail, fun hs => h'.full (h.full hs), fun d b p hs => h'.redirects d b p (h.redirects d b p hs)⟩

/-- The free choice of a spare. -/
theorem draw (v : Nat) (s : State) : KeepsSpares v s s.draw := ⟨rfl, rfl, id, fun _ _ _ => id⟩

theorem emit (v : Nat) (s : State) (i : RecInfo) : KeepsSpares v s (s.emit i) := ⟨rfl, rfl, id, fun _ _ _ => id⟩

theorem modVault (s : State) (v : Nat) (f : Vault → Vault) (hfail : ∀ u, (f u).stFail = u.stFail)
    (hfull : ∀ u, u.remapFull = true → (f u).remapFull = true)
    (hremap : ∀ u d b p, u.redirects d b p = true → (f u).redirects d b p = true) : KeepsSpares v s (s.modVault v f) := by
  refine ⟨rfl, ?_, ?_, ?_⟩ <;> rw [vault_modVault_self]
  · exact hfail _
  · exact hfull _
  · exact hremap _

end KeepsSpares

/-- Whether a remap word names a page. -/
def RemapWord.names (w : RemapWord) (die bank page : Nat) : Bool := w.die.toNat == die && w.bank.toNat == bank && w.page.toNat == page

theorem names_iff (w : RemapWord) (die bank page : Nat) :
    w.names die bank page = true ↔ w.die.toNat = die ∧ w.bank.toNat = bank ∧ w.page.toNat = page := by
  simp [RemapWord.names, and_assoc]

theorem redirects_iff (u : Vault) (d b p : Nat) : u.redirects d b p = true ↔ ∃ w ∈ u.remap, w.names d b p = true := List.any_eq_true

/-- A word names the page of its fields. -/
theorem names_self {die bank page : Nat} (hd : die < 8) (hb : bank < 32) (hp : page < 8192) (source : BitVec 3) (spare : BitVec 4) :
    RemapWord.names ⟨source, spare, BitVec.ofNat 13 page, BitVec.ofNat 5 bank, BitVec.ofNat 3 die⟩ die bank page = true := by
  simp [names_iff, Nat.mod_eq_of_lt, hd, hb, hp]

/-- A word that takes the place of the words of its page names every page that they name. -/
theorem names_replaced {w : RemapWord} {die bank page d b p : Nat} (source : BitVec 3) (spare : BitVec 4) (h : w.names d b p = true) :
    (if w.names die bank page then ⟨source, spare, BitVec.ofNat 13 page, BitVec.ofNat 5 bank, BitVec.ofNat 3 die⟩ else w).names d b p
      = true := by
  split
  case isFalse => exact h
  case isTrue hsame =>
    obtain ⟨rfl, rfl, rfl⟩ := (names_iff ..).1 hsame
    obtain ⟨rfl, rfl, rfl⟩ := (names_iff ..).1 h
    exact names_self w.die.isLt w.bank.isLt w.page.isLt _ _

/-- Whether a page has a spare, or its vault has said that none is left (R206). -/
def Served (v : Nat) (s : State) (d b p : Nat) : Prop := (s.vault v).redirects d b p = true ∨ (s.vault v).remapFull = true

theorem KeepsSpares.served {v : Nat} {s t : State} (h : KeepsSpares v s t) {d b p : Nat} : Served v s d b p → Served v t d b p :=
  Or.imp (h.redirects d b p) h.full

theorem remapExhausted_keeps (s : State) (v die a : Nat) : KeepsSpares v s (remapExhausted s v die a) := by
  unfold remapExhausted
  exact (KeepsSpares.emit v s _).trans (KeepsSpares.modVault _ v _ (fun _ => rfl) (fun _ _ => rfl) fun _ _ _ _ => id)

/-- A vault that has run out of spares says so (R206). -/
theorem remapExhausted_full (s : State) (v die a : Nat) : ((remapExhausted s v die a).vault v).remapFull = true := by
  unfold remapExhausted
  rw [vault_modVault_self]

/-- A new word leaves every page the spare that it has, but for the page that it names: that gets another (R206). -/
theorem addRemap_keeps (s : State) (v die bank page source : Nat) : KeepsSpares v s (addRemap s v die bank page source).1 := by
  have hexhausted := remapExhausted_keeps s v die (pageAddr v die bank page)
  unfold addRemap
  dsimp only
  split
  · exact hexhausted
  · split
    · refine (KeepsSpares.draw v s).trans (KeepsSpares.modVault _ v _ (fun _ => rfl) (fun _ => id) fun u d b p h => ?_)
      obtain ⟨w, hw, hnames⟩ := (redirects_iff ..).1 h
      exact (redirects_iff ..).2 ⟨_, List.mem_map_of_mem hw, names_replaced _ _ hnames⟩
    · split
      · exact hexhausted
      · refine (KeepsSpares.draw v s).trans (KeepsSpares.modVault _ v _ (fun _ => rfl) (fun _ => id) fun u d b p h => ?_)
        obtain ⟨w, hw, hnames⟩ := (redirects_iff ..).1 h
        exact (redirects_iff ..).2 ⟨w, List.mem_append_left _ hw, hnames⟩

/-- A page that fails gets a spare while its vault has one (R204 to R206). -/
theorem addRemap_served (s : State) (v source : Nat) {die bank page : Nat} (hnew : ¬ (s.vault v).redirects die bank page = true)
    (hd : die < 8) (hb : bank < 32) (hp : page < 8192) : Served v (addRemap s v die bank page source).1 die bank page := by
  have hexhausted := remapExhausted_full s v die (pageAddr v die bank page)
  unfold addRemap
  dsimp only
  split
  · exact Or.inr hexhausted
  · split
    case isTrue hany => exact absurd hany hnew
    case isFalse =>
      split
      · exact Or.inr hexhausted
      · refine Or.inl ?_
        rw [vault_modVault_self]
        exact (redirects_iff ..).2 ⟨_, List.mem_append_right _ (List.mem_singleton_self _), names_self hd hb hp _ _⟩

/-- A failing spare page takes no page's spare away (R204, R209). -/
theorem badSpare_keeps (s : State) (v die n source : Nat) : KeepsSpares v s (badSpare s v die n source) := by
  unfold badSpare
  split
  · exact addRemap_keeps s v die _ _ source
  · exact KeepsSpares.modVault s v _ (fun _ => rfl) (fun _ => id) fun _ _ _ _ => id

/-- What the self-test does with a failing page (R209). -/
def substitute (v : Nat) (t : State) : Nat × Nat × Nat → State
  | (d, b, p) => if 6144 ≤ p then badSpare t v d ((p - 6144) % 16) 1 else if (t.vault v).redirects d b p then t else (addRemap t v d b p 1).1

/-- A failing user page gets a spare while its vault has one; what other pages have stays. -/
theorem substitute_spec (v : Nat) (t : State) (d b p : Nat) :
    KeepsSpares v t (substitute v t (d, b, p)) ∧ (d < 8 → b < 32 → p < 6144 → Served v (substitute v t (d, b, p)) d b p) := by
  unfold substitute
  dsimp only
  split
  case isTrue hspare => exact ⟨badSpare_keeps _ _ _ _ _, fun _ _ hp => absurd hp (Nat.not_lt.2 hspare)⟩
  case isFalse =>
    split
    case isTrue hserved => exact ⟨.refl v t, fun _ _ _ => Or.inl hserved⟩
    case isFalse hnew => exact ⟨addRemap_keeps t v d b p 1, fun hd hb hp => addRemap_served t v 1 hnew hd hb (by omega)⟩

/-- Every failing user page gets a spare while its vault has one. -/
theorem substituteAll_spec (v : Nat) (failing : List (Nat × Nat × Nat)) (s : State) :
    KeepsSpares v s (failing.foldl (substitute v) s) ∧
      ∀ d b p, (d, b, p) ∈ failing → d < 8 → b < 32 → p < 6144 → Served v (failing.foldl (substitute v) s) d b p := by
  induction failing generalizing s with
  | nil => exact ⟨.refl v s, nofun⟩
  | cons x l ih =>
    obtain ⟨hkeeps, hserved⟩ := substitute_spec v s x.1 x.2.1 x.2.2
    obtain ⟨hrest, hothers⟩ := ih (substitute v s x)
    refine ⟨hkeeps.trans hrest, fun d b p hmem hd hb hp => ?_⟩
    obtain rfl | hmem := List.mem_cons.1 hmem
    · exact hrest.served (hserved hd hb hp)
    · exact hothers d b p hmem hd hb hp

/-- The outcome of the checkers enters the vault (R208). -/
def judged (v : Nat) (passed : Bool) (s : State) : State :=
  if passed then s
  else classify ((s.emit { code := 0x1A, uclass := 6, uinst := v * 8 }).modVault v fun u => { u with stFail := true }) 6 (v * 8) 0 0x1A

theorem judged_spec (v : Nat) (passed : Bool) (s : State) :
    (judged v passed s).vault v = { s.vault v with stFail := (s.vault v).stFail || !passed } ∧ (judged v passed s).mem = s.mem := by
  unfold judged
  cases passed with
  | true => simp
  | false =>
    rw [if_neg Bool.false_ne_true, State.vault, (KeepsVaults.classify _ _ _ _ _).vaults, ← State.vault, classify_mem]
    simp

/-- The self-test substitutes spares, judges its checkers and is done (R207 to R209). -/
theorem selfTest_eq {s : State} {v : Nat} (hnew : (s.vault v).stDone = false) (checkersOk : Bool) (failing : List (Nat × Nat × Nat)) :
    selfTest v checkersOk failing s =
      ((judged v (checkersOk && checkersPass) (failing.foldl (substitute v) s)).modVault v fun u => { u with stDone := true }).modPage
        (0x40 + v) fun p => if p.op = 3 then p.finish else p := by
  unfold selfTest
  rw [hnew]
  rfl

/-- What a self-test leaves: ST_DONE, the outcome of its checkers, and the spares that its failing pages got. -/
theorem selfTest_spec {s : State} {v : Nat} (hnew : (s.vault v).stDone = false) (checkersOk : Bool) (failing : List (Nat × Nat × Nat)) :
    let t := selfTest v checkersOk failing s
    (t.vault v).stDone = true ∧ t.mem = s.mem ∧ (t.vault v).stFail = ((s.vault v).stFail || !(checkersOk && checkersPass)) ∧
      (failing = [] → (t.vault v).remap = (s.vault v).remap) ∧
      ∀ d b p, (d, b, p) ∈ failing → d < 8 → b < 32 → p < 6144 → Served v t d b p := by
  intro t
  have ht : t = _ := selfTest_eq hnew checkersOk failing
  obtain ⟨hkeeps, hserved⟩ := substituteAll_spec v failing s
  obtain ⟨hjudged, hmem⟩ := judged_spec v (checkersOk && checkersPass) (failing.foldl (substitute v) s)
  generalize (checkersOk && checkersPass) = passed at *
  have hvault : t.vault v = { (failing.foldl (substitute v) s).vault v with
      stFail := ((failing.foldl (substitute v) s).vault v).stFail || !passed, stDone := true } := by
    rw [ht, modPage_vault_read, vault_modVault_self, hjudged]
  refine ⟨by rw [hvault], ?_, ?_, ?_, fun d b p hx hd hb hp => ?_⟩
  · rw [ht]
    exact hmem.trans hkeeps.mem
  · rw [hvault, ← hkeeps.stFail]
  · rintro rfl
    rw [hvault]
    rfl
  · rw [Served, hvault]
    exact hserved d b p hx hd hb hp

/-! ### Reads of the DRAM leave a vault's scrub (R193, R199, R210) -/

/-- Where the scrub of a vault stands, and the passes that it has made. -/
def Vault.scrub (u : Vault) : Nat × Bool × BitVec 32 := (u.scrubPos, u.scrubAct, u.passes)

theorem scrub_eq_iff (u : Vault) (pos : Nat) (act : Bool) (passes : BitVec 32) :
    u.scrub = (pos, act, passes) ↔ u.scrubPos = pos ∧ u.scrubAct = act ∧ u.passes = passes := by
  simp [Vault.scrub]

/-- Between s and t the scrub of every vault stands where it stood. The lemmas of the namespace say it of the reads that a scrub makes. -/
def KeepsScrub (s t : State) : Prop := ∀ v, (t.vault v).scrub = (s.vault v).scrub

namespace KeepsScrub

theorem refl (s : State) : KeepsScrub s s := fun _ => rfl

theorem trans {s t u : State} (h : KeepsScrub s t) (h' : KeepsScrub t u) : KeepsScrub s u := fun v => (h' v).trans (h v)

theorem of_eq {s t : State} (h : t.vaults = s.vaults) : KeepsScrub s t := fun v => by rw [State.vault, h, State.vault]

theorem modVault (s : State) (v : Nat) (f : Vault → Vault) (hf : ∀ u, (f u).scrub = u.scrub) : KeepsScrub s (s.modVault v f) := by
  intro i
  rw [vault_modVault]
  split
  · exact hf _
  · rfl

theorem noteEvent (s : State) (k : Nat) (u : BitVec 16) (c l : Nat) : KeepsScrub s (s.noteEvent k u c l) := by
  unfold State.noteEvent
  dsimp only
  split <;> exact of_eq rfl

theorem flushDetections (s : State) (v : Nat) : KeepsScrub s (flushDetections s v) := by
  unfold Machine.flushDetections
  dsimp only
  split <;> exact modVault _ _ _ fun _ => rfl

theorem detectAt (s : State) (v die a code : Nat) : KeepsScrub s (detectAt s v die a code) := by
  unfold Machine.detectAt
  extract_lets w s' u inst
  have hwindow : KeepsScrub s s' :=
    iteInduction (fun _ => refl s) fun _ => (flushDetections s v).trans (modVault _ _ _ fun _ => rfl)
  refine hwindow.trans (iteInduction (fun _ => ?_) fun _ => ?_)
  · exact modVault (s'.emit _) _ _ fun _ => rfl
  · exact modVault s' _ _ fun _ => rfl

end KeepsScrub

/-- A granule put back, and what its read counts (R193, R216). -/
def putBack (s : State) (g : Nat) (bytes : List Byte) (mark : Bool) (ce ue retry : Nat) : State :=
  (rewriteGranule s g bytes mark).modVault (vaultOf (64 * g)) fun u => u.ecc ce ue retry

/-- What a read of a granule can do: nothing, or it puts the granule back and then at most notes a correction or reports a loss (R193). -/
inductive GranuleRead (s : State) (g : Nat) : State → Prop
  | unchanged : GranuleRead s g s
  | stored (bytes : List Byte) (mark : Bool) (ce ue retry : Nat) : GranuleRead s g (putBack s g bytes mark ce ue retry)
  | corrected (bytes : List Byte) (mark : Bool) (ce ue retry : Nat) (unit : BitVec 16) (loc : Nat) :
    GranuleRead s g ((putBack s g bytes mark ce ue retry).noteEvent 1 unit 0x14 loc)
  | lost (bytes : List Byte) (mark : Bool) (ce ue retry : Nat) : GranuleRead s g (detect (putBack s g bytes mark ce ue retry) (64 * g) 0x14)

theorem readGranule_does (s : State) (g : Nat) (x y : Disturb) : GranuleRead s g (readGranule s g x y) := by
  unfold readGranule
  extract_lets a v stored data unit storedMeta good bad decoded
  have hgood : ∀ d fix r, GranuleRead s g (good d s fix r) := by
    intro d fix r
    dsimp only [good]
    split
    · exact .corrected _ _ _ _ _ _ _
    · exact .stored _ _ _ _ _
  split
  · exact iteInduction (fun _ => .unchanged) fun _ => hgood _ _ _
  · exact hgood _ _ _
  · split
    · exact hgood _ _ _
    · exact hgood _ _ _
    · exact .lost _ _ _ _ _

namespace KeepsScrub

theorem readGranule (s : State) (g : Nat) (x y : Disturb) : KeepsScrub s (readGranule s g x y) := by
  have hput : ∀ bytes mark ce ue retry, KeepsScrub s (putBack s g bytes mark ce ue retry) :=
    fun bytes mark _ _ _ => modVault (rewriteGranule s g bytes mark) _ _ fun _ => rfl
  have hread := readGranule_does s g x y
  generalize Machine.readGranule s g x y = t at *
  cases hread with
  | unchanged => exact refl s
  | stored => exact hput _ _ _ _ _
  | corrected => exact (hput _ _ _ _ _).trans (noteEvent _ _ _ _ _)
  | lost => exact (hput _ _ _ _ _).trans (detectAt _ _ _ _ _)

theorem vaultRead (a : Nat) (x y : Disturb) (s : State) : KeepsScrub s (vaultRead a x y s) := by
  have hlast : ∀ (t : State) v l, KeepsScrub t (t.modVault v fun u => { u with lastRead := l }) := fun t v _ => modVault t v _ fun _ => rfl
  unfold Machine.vaultRead
  refine iteInduction (fun _ => refl s) fun _ => iteInduction (fun _ => ?_) fun _ => ?_
  · exact hlast (commandError s a) _ _
  · exact (readGranule s _ x y).trans (hlast _ _ _)

theorem freeSpareRead (v die : Nat) (x y : Disturb) (s : State) : KeepsScrub s (freeSpareRead v die x y s) := by
  have hcount : ∀ ce ue retry, KeepsScrub s (s.draw.modVault v fun u => u.ecc ce ue retry) :=
    fun _ _ _ => modVault s.draw v _ fun _ => rfl
  have hcorrected : ∀ ce ue retry k unit code loc, KeepsScrub s ((s.draw.modVault v fun u => u.ecc ce ue retry).noteEvent k unit code loc) :=
    fun _ _ _ _ _ _ _ => (hcount _ _ _).trans (noteEvent _ _ _ _ _)
  unfold Machine.freeSpareRead
  dsimp only
  refine iteInduction (fun _ => of_eq rfl) fun _ => ?_
  split
  · exact iteInduction (fun _ => of_eq rfl) fun _ => hcorrected _ _ _ _ _ _ _
  · exact hcorrected _ _ _ _ _ _ _
  · exact hcount _ _ _
  · exact hcorrected _ _ _ _ _ _ _
  · exact (hcount _ _ _).trans (detectAt _ _ _ _ _)

theorem spareRead (v n : Nat) (x y : Disturb) (s : State) : KeepsScrub s (spareRead v n x y s) := by
  unfold Machine.spareRead
  split
  · exact vaultRead _ _ _ _
  · exact freeSpareRead _ _ _ _ _

end KeepsScrub

/-! ### The scrub (R210, R211, R533) -/

/-- Where the scrub of a vault reads: the start of a pass while none is under way. -/
def Vault.scrubNext (u : Vault) : Nat := if u.scrubAct then u.scrubPos else 0

/-- A scrub read moves on to the next granule; the first sets the pass going, the last counts it. -/
theorem scrubRead_scrub (s : State) (v : Nat) (x y : Disturb) (hen : (s.vault v).scrubEn = true) :
    ((scrubRead v x y s).vault v).scrub =
      if (s.vault v).scrubNext + 1 < scrubTotal then ((s.vault v).scrubNext + 1, true, (s.vault v).passes)
      else (0, false, satAdd 32 (s.vault v).passes 1) := by
  unfold scrubRead
  extract_lets u s1 pos s2 s3
  rw [hen, Bool.not_true, if_neg Bool.false_ne_true]
  have hbegun : (s1.vault v).scrub = (u.scrubNext, true, u.passes) := by
    dsimp only [s1, Vault.scrubNext]
    split
    case isTrue hact => rw [← hact]; rfl
    case isFalse => rw [State.beginProg, modPage_vault_read, vault_modVault_self]; rfl
  have hread : KeepsScrub s1 s2 := iteInduction (fun _ => .vaultRead _ _ _ _) fun _ => .spareRead _ _ _ _ _
  have hpos : pos = u.scrubNext := congrArg Prod.fst hbegun
  have hscrub : (s3.vault v).scrub = (u.scrubNext, true, u.passes) := (hread v).trans hbegun
  clear_value s3
  obtain ⟨-, hact, hpasses⟩ := (scrub_eq_iff ..).1 hscrub
  rw [hpos]
  split
  · rw [vault_modVault_self, Vault.scrub, hact, hpasses]
  · rw [modPage_vault_read, vault_modVault_self, Vault.scrub, hpasses]

/-- Settles O26: the classification and the stop of the job leave the vaults; a page that has a spare keeps one through the rest of the
self-test; a scrub's read leaves where the scrub stands. -/
theorem vaultEvents : Obligations.VaultEvents := by
  unfold Obligations.VaultEvents
  intro s v die bank val ok failing d1 d2 u pos hlive
  have hexec : ∀ t : State, (Host.Outcome.next (if s.live then t else s) : Result) = .next t :=
    fun t => congrArg Host.Outcome.next (if_pos hlive)
  refine ⟨?_, fun hpast => ?_, fun hon => ?_, fun hnew => ?_, fun harm => ?_, fun hgo hen => ?_⟩
  · let i : RecInfo := { code := 0x18, uclass := 6, uinst := v.val * 8 + die.val }
    have hring : RingGrows (s.emit i) (pathTimeout v die s) := (KeepsVaults.classify _ _ _ _ _).ring
    exact ⟨_, hexec _, classify_path_withdrawn _ _ _, s.record i, record_mem_drop hring, rfl, rfl⟩
  · obtain ⟨hcount, hfirst, hnone, hsome⟩ := detectionSummary_spec s v hpast
    refine ⟨_, hexec _, hcount, hfirst, ?_⟩
    cases hu : u.detFirst with
    | none => exact hnone hu
    | some e => exact hsome e.1 e.2 hu
  · exact ⟨_, hexec _, refreshBank_pointer s v die bank hon⟩
  · obtain ⟨hdone, hmem, hfail, hremap, hserved⟩ := selfTest_spec hnew ok (failing.map fun (d, b, p) => (d.val, b.val, p % 6160))
    refine ⟨_, hexec _, hdone, hmem, hfail, fun h => hremap (by rw [h]; rfl), fun x hx hp => ?_⟩
    have hlisted := List.mem_map_of_mem (f := fun x : Fin 8 × Fin 32 × Nat => (x.1.val, x.2.1.val, x.2.2 % 6160)) hx
    rw [Nat.mod_eq_of_lt (by omega)] at hlisted
    exact hserved _ _ _ hlisted x.1.isLt x.2.1.isLt hp
  · refine (hexec _).trans (congrArg Host.Outcome.next (modVault_congr _ _ _ _ ?_))
    rw [writeInject_unarmed _ _ harm]
  · have hscrub := scrubRead_scrub s v d1 d2 hen
    refine ⟨_, congrArg Host.Outcome.next (if_runs hlive hgo _), ?_⟩
    split
    case isTrue hmore =>
      rw [if_pos (show (s.vault v).scrubNext + 1 < scrubTotal from hmore)] at hscrub
      exact (scrub_eq_iff ..).1 hscrub
    case isFalse hlast =>
      rw [if_neg (show ¬ (s.vault v).scrubNext + 1 < scrubTotal from hlast)] at hscrub
      exact (scrub_eq_iff ..).1 hscrub

end Sys2Proof.Machine

/-! ## Accesses where no error stands (O34, O35, O36) -/

namespace Sys2Proof.Machine

/-! ### Reads of directory entries and slots (R197, R198) -/

theorem fetchDirWord_quiet (s : State) (v w : Nat) (h : s.sramErrs = []) : fetchDirWord s v w = s := by
  unfold fetchDirWord
  simp [sramRead_quiet s _ h]

theorem fetchSet_quiet (s : State) (v set : Nat) (h : s.sramErrs = []) : fetchSet s v set = s :=
  foldl_const _ _ _ fun _ _ => fetchDirWord_quiet s v _ h

theorem ErrorFree.fetchRange {s : State} (h : ErrorFree s) (a n : Nat) : Machine.fetchRange s a n = s :=
  fetchRange_quiet s a n h.1 h.2.1 h.2.2.1

theorem ErrorFree.calm {s : State} (h : ErrorFree s) : Calm s := ⟨h.1, h.2.2.2⟩

theorem ErrorFree.fetchSet {s : State} (h : ErrorFree s) (v set : Nat) : Machine.fetchSet s v set = s :=
  fetchSet_quiet s v set h.2.2.1

theorem ErrorFree.absentOf {s : State} (h : ErrorFree s) (d : TableDesc) (rows : List Nat) : (Machine.absentOf s d rows).1 = s := by
  unfold Machine.absentOf
  split
  · rfl
  · exact foldl_const _ _ _ fun _ _ => h.fetchRange _ _

theorem ErrorFree.fetchList {s : State} (h : ErrorFree s) (t : TableDesc) (d : Desc) : Machine.fetchList s t d = s := by
  unfold Machine.fetchList
  split
  · rfl
  · exact foldl_const _ _ _ fun _ _ => h.fetchRange _ _

/-! ### What accesses without an error change (R111, R186, R254, R369) -/

/-- The addresses above the DRAM: tile stores and hot-row slots (R519). -/
def AboveDram (x : Nat) : Prop := Config.dramEnd ≤ x

theorem setEntry_inj (u : Vault) (set way : Nat) (e : HotEntry) : (u.setEntry set way e).inj = u.inj := rfl

theorem touch_inj (u : Vault) (set way old : Nat) : (u.touch set way old).inj = u.inj :=
  foldl_keeps (·.inj) _ (fun v w => by dsimp only; split; exacts [rfl, by split <;> rfl]) _ u

/-- Where no error stands in s, t is s but for bytes with their marks at addresses of A, the checkpoint engine's pages, the vaults without
their injections, and the progress of the table load, which does not go back. The lemmas of the namespace say it of writes and installs. -/
def CleanWrites (A : Nat → Prop) (s t : State) : Prop :=
  ErrorFree s →
    t = { s with
      mem := t.mem, marks := t.marks, mirror := t.mirror, vaults := t.vaults, pages := t.pages, tierDone := t.tierDone } ∧
    (∀ v, (t.vault v).inj = (s.vault v).inj) ∧ (s.tierDone = true → t.tierDone = true) ∧ ∀ x, ¬ A x → t.byte x = s.byte x

namespace CleanWrites

variable {A B : Nat → Prop} {s t u : State}

theorem refl (A : Nat → Prop) (s : State) : CleanWrites A s s := fun _ => ⟨rfl, fun _ => rfl, id, fun _ _ => rfl⟩

theorem of_errorFree (h : ErrorFree s → CleanWrites A s t) : CleanWrites A s t := fun hs => h hs hs

theorem state (h : CleanWrites A s t) (hs : ErrorFree s) : t = { s with
    mem := t.mem, marks := t.marks, mirror := t.mirror, vaults := t.vaults, pages := t.pages, tierDone := t.tierDone } := (h hs).1

theorem byte (h : CleanWrites A s t) (hs : ErrorFree s) {x : Nat} (hx : ¬ A x) : t.byte x = s.byte x := (h hs).2.2.2 x hx

theorem tierDone (h : CleanWrites A s t) (hs : ErrorFree s) (hdone : s.tierDone = true) : t.tierDone = true := (h hs).2.2.1 hdone

theorem errorFree (h : CleanWrites A s t) (hs : ErrorFree s) : ErrorFree t := by
  obtain ⟨hstate, hinj, -, -⟩ := h hs
  obtain ⟨herrs, hmeta, hsram, harm⟩ := hs
  refine ⟨?_, ?_, ?_, fun v => by rw [hinj, harm]⟩
  · rw [hstate]; exact herrs
  · rw [hstate]; exact hmeta
  · rw [hstate]; exact hsram

theorem trans (h : CleanWrites A s t) (h' : CleanWrites A t u) : CleanWrites A s u := fun hs => by
  obtain ⟨hstate, hinj, hdone, hbyte⟩ := h hs
  obtain ⟨hstate', hinj', hdone', hbyte'⟩ := h' (h.errorFree hs)
  rw [hstate] at hstate'
  exact ⟨hstate', fun v => (hinj' v).trans (hinj v), fun h => hdone' (hdone h), fun x hx => (hbyte' x hx).trans (hbyte x hx)⟩

theorem mono (h : CleanWrites A s t) (hAB : ∀ x, A x → B x) : CleanWrites B s t := fun hs => by
  obtain ⟨hstate, hinj, hdone, hbyte⟩ := h hs
  exact ⟨hstate, hinj, hdone, fun x hx => hbyte x fun hA => hx (hAB x hA)⟩

theorem foldl {β : Type} (f : State → β → State) (l : List β) (hf : ∀ s, ∀ x ∈ l, CleanWrites A s (f s x)) (s : State) :
    CleanWrites A s (l.foldl f s) := foldl_rel_mem (refl A) trans f l hf s

theorem modVault (A : Nat → Prop) (s : State) (v : Nat) (f : Vault → Vault) (hf : ∀ u, (f u).inj = u.inj) :
    CleanWrites A s (s.modVault v f) := by
  refine fun _ => ⟨rfl, fun i => ?_, id, fun _ _ => rfl⟩
  rw [vault_modVault]
  split
  · exact hf _
  · rfl

theorem copyBefore (A : Nat → Prop) (s : State) (p : Nat) : CleanWrites A s (copyBefore s p) := by
  refine of_errorFree fun hs => ?_
  unfold Machine.copyBefore
  dsimp only
  split
  · rw [hs.fetchRange]
    exact fun _ => ⟨rfl, fun _ => rfl, id, fun _ _ => rfl⟩
  · exact refl A s

theorem clearErrors (A : Nat → Prop) (s : State) (g : Nat) : CleanWrites A s (clearErrors s g) := by
  refine of_errorFree fun hs => ?_
  have herrs : Machine.clearErrors s g = s := by
    unfold Machine.clearErrors
    rw [hs.1, hs.2.1, mset_nil_default, mset_nil_default, ← hs.1, ← hs.2.1]
  rw [herrs]
  exact refl A s

/-- A write of an on-die store. -/
theorem writeP (s : State) (a : Nat) (bs : List PByte) : CleanWrites (fun x => a ≤ x ∧ x < a + bs.length) s (writeP s a bs) := by
  intro hs
  obtain ⟨-, hmeta, hsram, -⟩ := hs
  refine ⟨?_, fun _ => rfl, id, fun x hx => writeP_byte_outside s a x bs (by omega)⟩
  unfold Machine.writeP
  rw [hmeta, hsram, foldl_const (fun m g => mset 0 m g 0) _ _ fun _ _ => mset_nil_default _ _,
    foldl_const (fun m w => mset 0 m w 0) _ _ fun _ _ => mset_nil_default _ _, ← hmeta, ← hsram]

theorem beforeWrite (A : Nat → Prop) (s : State) (a n : Nat) : CleanWrites A s (beforeWrite s a n) := by
  refine trans (foldl _ _ (fun t g _ => ?_) s) (foldl _ _ (fun t p _ => copyBefore A t p) _)
  split
  · exact refl A t
  · refine of_errorFree fun ht => ?_
    rw [ht.fetchRange]
    exact refl A t

/-- A write of the DRAM. -/
theorem writeDram (s : State) (a : Nat) (bs : List PByte) : CleanWrites (fun x => a ≤ x ∧ x < a + bs.length) s (writeDram s a bs) := by
  have hdirty : ∀ t : State, CleanWrites (fun x => a ≤ x ∧ x < a + bs.length) t (setDirty t a bs.length) :=
    fun _ _ => ⟨rfl, fun _ => rfl, id, fun _ _ => rfl⟩
  have hafter : CleanWrites (fun x => a ≤ x ∧ x < a + bs.length) s (afterWrite s a bs) :=
    (((beforeWrite _ s a _).trans (writeP _ a bs)).trans (foldl _ _ (fun t g _ => clearErrors _ t g) _)).trans (hdirty _)
  refine of_errorFree fun hs => ?_
  rw [writeDram_eq, foldl_const injectAt _ _ fun g _ => injectAt_calm _ g (hafter.errorFree hs).calm]
  exact hafter

theorem store (s : State) (a : Nat) (bs : List PByte) : CleanWrites (fun x => a ≤ x ∧ x < a + bs.length) s (store s a bs) := by
  unfold Machine.store
  split
  · exact refl _ s
  · split
    · exact writeDram s a bs
    · exact writeP s a bs

/-! Directory entries and slots -/

theorem writeSlot (s : State) (v set way : Nat) (bs : List PByte) : CleanWrites AboveDram s (Machine.writeP s (hotSlotAddr v set way) bs) := by
  refine (writeP s _ bs).mono fun x hx => ?_
  have : Config.dramEnd ≤ Config.hotBase := by decide
  unfold hotSlotAddr at hx
  unfold AboveDram
  omega

theorem installChunk (s : State) (a : Nat) (need : Option Nat) (pin : Bool) : CleanWrites AboveDram s (installChunk s a need pin) := by
  refine of_errorFree fun hs => ?_
  have hdrop : CleanWrites AboveDram s (countDrop s (vaultOf a)) := modVault _ s _ _ fun _ => rfl
  unfold Machine.installChunk
  dsimp only
  rw [hs.fetchSet]
  split
  · exact modVault _ s _ _ fun u => touch_inj _ _ _ _
  · split
    · exact hdrop
    · split
      · exact hdrop
      · rw [hs.fetchRange]
        refine (writeSlot s _ _ _ _).trans (modVault _ _ _ _ fun u => ?_)
        rw [setEntry_inj, touch_inj]

theorem installRow (s : State) (d : TableDesc) (l : Nat) (need : Option Nat) (pin : Bool) :
    CleanWrites AboveDram s (installRow s d l need pin) := by
  unfold Machine.installRow
  split
  · exact refl _ s
  · exact foldl _ _ (fun t a _ => installChunk t a need pin) s

theorem pinRow (s : State) (d : TableDesc) (l : Nat) : CleanWrites AboveDram s (pinRow s d l) := by
  unfold Machine.pinRow
  dsimp only
  split
  · exact modVault _ s _ _ fun _ => rfl
  · exact installRow s d l none true

theorem clearPins (s : State) (d : TableDesc) : CleanWrites AboveDram s (clearPins s d) := by
  refine foldl _ _ (fun t v _ => modVault _ t v _ fun u => ?_) s
  refine foldl_keeps (·.inj) _ (fun v e => ?_) _ u
  dsimp only
  split <;> rfl

theorem writeSlots (s : State) (d : TableDesc) (l : Nat) (bs : List PByte) : CleanWrites AboveDram s (writeSlots s d l bs) := by
  refine foldl _ _ (fun t a _ => of_errorFree fun ht => ?_) s
  dsimp only
  rw [ht.fetchSet]
  split
  · refine (writeSlot t _ _ _ _).trans (modVault _ _ _ _ fun u => ?_)
    rw [setEntry_inj]
  · exact refl _ t

theorem cleanSlots (s : State) (d : TableDesc) (l : Nat) : CleanWrites AboveDram s (cleanSlots s d l) := by
  refine foldl _ _ (fun t a _ => ?_) s
  dsimp only
  split
  · exact modVault _ _ _ _ fun u => rfl
  · exact refl _ t

/-! Presence bits and records -/

theorem modPage (A : Nat → Prop) (s : State) (p : Nat) (f : Page → Page) : CleanWrites A s (s.modPage p f) :=
  fun _ => ⟨rfl, fun _ => rfl, id, fun _ _ => rfl⟩

theorem endTableLoad (A : Nat → Prop) (s : State) : CleanWrites A s (endTableLoad s) := by
  unfold Machine.endTableLoad
  split
  · exact refl A s
  · exact fun _ => ⟨rfl, fun _ => rfl, fun _ => rfl, fun _ _ => rfl⟩

theorem setPresent (s : State) (d : TableDesc) (l : Nat) : CleanWrites (· = tPbase d + l / 8) s (setPresent s d l) := by
  unfold Machine.setPresent
  split
  · exact refl _ s
  · refine of_errorFree fun hs => ?_
    dsimp only
    rw [hs.fetchRange]
    split
    · exact refl _ s
    · have hbit := (store s (tPbase d + l / 8) (clean [s.byte (tPbase d + l / 8) ||| BitVec.ofNat 8 (2 ^ (l % 8))])).mono
        (B := (· = tPbase d + l / 8)) fun x hx => by
          have : (clean [s.byte (tPbase d + l / 8) ||| BitVec.ofNat 8 (2 ^ (l % 8))]).length = 1 := rfl
          omega
      exact (hbit.trans (modPage _ _ _ _)).trans (endTableLoad _ _)

end CleanWrites
end Sys2Proof.Machine

/-! ## The hot-row store and the records of a table (O35, O36) -/

namespace Sys2Proof.Machine

/-! ### Entries of a set (R255, R257) -/

/-- Whether a valid entry of its set holds the chunk at an address. -/
def HotEntry.holds (e : HotEntry) (a : Nat) : Bool := e.valid && e.tag == BitVec.ofNat 15 (hotTag (chunkUnit a))

/-- The way of a chunk is the first of its set whose entry holds it. -/
theorem hotWay_eq_some {s : State} {a w : Nat} : hotWay s a = some w ↔ (s.vault (vaultOf a)).sliceOff = false ∧
    w < 8 ∧ ((s.vault (vaultOf a)).entry (hotSet (chunkUnit a)) w).holds a = true ∧
    ∀ j < w, ((s.vault (vaultOf a)).entry (hotSet (chunkUnit a)) j).holds a = false := by
  unfold hotWay
  dsimp only
  split
  case isTrue hoff => simp [hoff]
  case isFalse hon =>
    rw [List.find?_range_eq_some]
    simp only [HotEntry.holds, List.mem_range, Bool.not_eq_true', hon, true_and]
    tauto

theorem hotWay_eq_none {s : State} {a : Nat} (hon : (s.vault (vaultOf a)).sliceOff = false) : hotWay s a = none ↔
    ∀ j < 8, ((s.vault (vaultOf a)).entry (hotSet (chunkUnit a)) j).holds a = false := by
  unfold hotWay
  dsimp only
  rw [if_neg (by simp [hon]), List.find?_range_eq_none]
  simp [HotEntry.holds, imp_iff_not_or]

/-- An entry of a set after a write of another, or of itself. -/
theorem entry_setEntry_way (u : Vault) (set w j : Nat) (e : HotEntry) :
    (u.setEntry set w e).entry set j = if j = w then e else u.entry set j := by
  unfold Vault.entry Vault.setEntry
  dsimp only
  rw [mget_mset]
  simp only [Nat.add_left_cancel_iff]

/-- A hit or an install changes ages alone. -/
theorem touch_entry (u : Vault) (set w old j : Nat) : ∃ age, (u.touch set w old).entry set j = { u.entry set j with age := age } := by
  refine foldl_holds (fun v => ∃ age, v.entry set j = { u.entry set j with age := age }) _ (fun v i hv => ?_) _ u ⟨_, rfl⟩
  have hset : ∀ age, ∃ age', (v.setEntry set i { v.entry set i with age := age }).entry set j =
      { u.entry set j with age := age' } := fun age => by
    rw [entry_setEntry_way]
    split
    case isTrue h =>
      subst h
      obtain ⟨_, hv⟩ := hv
      exact ⟨age, by rw [hv]⟩
    case isFalse => exact hv
  dsimp only
  split
  · exact hset _
  · split
    · exact hset _
    · exact hv

theorem touch_holds (u : Vault) (set w old j a : Nat) : ((u.touch set w old).entry set j).holds a = (u.entry set j).holds a := by
  obtain ⟨age, h⟩ := touch_entry u set w old j
  rw [h]
  rfl

theorem touch_sliceOff (u : Vault) (set w old : Nat) : (u.touch set w old).sliceOff = u.sliceOff :=
  foldl_keeps (·.sliceOff) _ (fun v i => by dsimp only; split; exacts [rfl, by split <;> rfl]) _ u

/-- An entry set for a chunk at the first way of its set that holds it is where the chunk is found, pinned as the entry is. -/
theorem hotWay_installed (s : State) (a w : Nat) (pin : Bool) (old : Vault → Nat) (e : Vault → HotEntry)
    (hon : (s.vault (vaultOf a)).sliceOff = false) (hw : w < 8) (hholds : (e (s.vault (vaultOf a))).holds a = true)
    (hpin : pin = true → (e (s.vault (vaultOf a))).pin = true)
    (hfirst : ∀ j < w, ((s.vault (vaultOf a)).entry (hotSet (chunkUnit a)) j).holds a = false) :
    let t := s.modVault (vaultOf a) fun u => (u.touch (hotSet (chunkUnit a)) w (old u)).setEntry (hotSet (chunkUnit a)) w (e u)
    ∃ w, hotWay t a = some w ∧ (pin = true → ((t.vault (vaultOf a)).entry (hotSet (chunkUnit a)) w).pin = true) := by
  intro t
  have ht : t.vault (vaultOf a) = ((s.vault (vaultOf a)).touch (hotSet (chunkUnit a)) w (old (s.vault (vaultOf a)))).setEntry
      (hotSet (chunkUnit a)) w (e (s.vault (vaultOf a))) := by rw [vault_modVault, if_pos rfl]
  have hentry : ∀ j, (t.vault (vaultOf a)).entry (hotSet (chunkUnit a)) j = if j = w then e (s.vault (vaultOf a))
      else ((s.vault (vaultOf a)).touch (hotSet (chunkUnit a)) w (old (s.vault (vaultOf a)))).entry (hotSet (chunkUnit a)) j := fun j => by
    rw [ht, entry_setEntry_way]
  refine ⟨w, hotWay_eq_some.2 ⟨?_, hw, ?_, fun j hj => ?_⟩, fun hp => ?_⟩
  · rw [ht]
    exact (touch_sliceOff _ _ _ _).trans hon
  · rw [hentry, if_pos rfl, hholds]
  · rw [hentry, if_neg (Nat.ne_of_lt hj), touch_holds, hfirst j hj]
  · rw [hentry, if_pos rfl, hpin hp]

/-- A chunk whose slice is on and whose set holds it or has an invalid way stands in a slot after its install, pinned when that was asked
for. -/
theorem installChunk_resident (s : State) (a : Nat) (need : Option Nat) (pin : Bool) (hs : ErrorFree s)
    (hon : (s.vault (vaultOf a)).sliceOff = false)
    (hroom : (hotWay s a).isSome = true ∨ ∃ w < 8, ((s.vault (vaultOf a)).entry (hotSet (chunkUnit a)) w).valid = false) :
    ∃ w, hotWay (installChunk s a need pin) a = some w ∧
      (pin = true → (((installChunk s a need pin).vault (vaultOf a)).entry (hotSet (chunkUnit a)) w).pin = true) := by
  unfold installChunk
  dsimp only
  rw [hs.fetchSet]
  split
  case h_1 w hway =>
    obtain ⟨-, hw, hholds, hfirst⟩ := hotWay_eq_some.1 hway
    exact hotWay_installed s a w pin _ _ hon hw hholds (fun hpin => by simp [hpin]) hfirst
  case h_2 hway =>
    have hnone := (hotWay_eq_none hon).1 hway
    obtain ⟨w0, hw0, hinvalid⟩ : ∃ w < 8, ((s.vault (vaultOf a)).entry (hotSet (chunkUnit a)) w).valid = false := by
      simpa [hway] using hroom
    have hfree : ((List.range 8).find? fun w => !((s.vault (vaultOf a)).entry (hotSet (chunkUnit a)) w).valid).isSome = true := by
      rw [List.find?_isSome]
      exact ⟨w0, List.mem_range.2 hw0, by simp [hinvalid]⟩
    obtain ⟨w, hfound⟩ := Option.isSome_iff_exists.1 hfree
    have hw : w < 8 := List.mem_range.1 (List.mem_of_find?_eq_some hfound)
    have hvictim : hotVictim (s.vault (vaultOf a)) (hotSet (chunkUnit a)) s.nextStep = some w := by
      unfold hotVictim
      rw [hfound]
    rw [if_neg (by simp [hon]), hvictim]
    dsimp only
    rw [hs.fetchRange]
    exact hotWay_installed (writeP s (hotSlotAddr (vaultOf a) (hotSet (chunkUnit a)) w) (readP s a 128)) a w pin _ _ hon hw
      (by simp [HotEntry.holds]) (fun hpin => by simp [hpin]) fun j hj => hnone j (by omega)

/-- A row of at most 128 weight bytes has one chunk, at its record (R221). -/
theorem rowChunks_single (d : TableDesc) (l : Nat) (h0 : 0 < tW d) (h1 : tW d ≤ 128) : rowChunks d l = [recordAddr d l] := by
  have hone : ceilDiv (tW d) 128 = 1 := by
    unfold ceilDiv
    omega
  unfold rowChunks tH
  simp [hone]

theorem installRow_single (s : State) (d : TableDesc) (l : Nat) (need : Option Nat) (pin : Bool) (h0 : 0 < tW d) (h1 : tW d ≤ 128) :
    installRow s d l need pin = installChunk s (recordAddr d l) need pin := by
  unfold installRow
  rw [if_neg (by omega), rowChunks_single d l h0 h1, List.foldl_cons, List.foldl_nil]

/-- A row of one chunk is pinned in a set that holds fewer than six pinned ways (R260). -/
theorem pinRow_single (s : State) (d : TableDesc) (l : Nat) (h0 : 0 < tW d) (h1 : tW d ≤ 128)
    (hfew : pinnedIn (s.vault (vaultOf (recordAddr d l))) (hotSet (chunkUnit (recordAddr d l))) < 6) :
    pinRow s d l = installChunk s (recordAddr d l) none true := by
  unfold pinRow
  dsimp only
  rw [rowChunks_single d l h0 h1, if_neg, installRow_single s d l none true h0 h1]
  intro hbreaks
  obtain ⟨a, ha, hlt⟩ := List.any_eq_true.1 hbreaks
  obtain rfl : a = recordAddr d l := List.mem_singleton.1 (List.mem_filter.1 ha).1
  have hlen := of_decide_eq_true hlt
  have hmine : ∀ (p q : Nat → Bool) (x : Nat), (([x].filter p).filter q).length ≤ 1 := fun p q x =>
    Nat.le_trans (List.length_filter_le _ _) (List.length_filter_le _ _)
  have := Nat.lt_of_lt_of_le hlen (Nat.add_le_add_left (hmine _ _ _) _)
  omega

/-! ### Presence bits and records (R230, R231, R258) -/

/-- A record is present where its bit is set. -/
theorem present_of_bit {s : State} {d : TableDesc} {l : Nat} (h : (s.byte (tPbase d + l / 8)).getLsbD (l % 8) = true) :
    present s d l = true := by
  simp [present, h]

/-- What writes no presence bit of a record leaves it present. -/
theorem CleanWrites.present {A : Nat → Prop} {s t : State} (h : CleanWrites A s t) (hs : ErrorFree s) {d : TableDesc} {l : Nat}
    (hbit : ¬ A (tPbase d + l / 8)) (hp : present s d l = true) : present t d l = true := by
  unfold Machine.present at *
  rw [h.byte hs hbit]
  simp only [Bool.or_eq_true] at *
  exact hp.imp_left (Or.imp_right (h.tierDone hs))

theorem present_endTableLoad {s : State} {d : TableDesc} {l : Nat} (h : present s d l = true) : present (endTableLoad s) d l = true := by
  unfold endTableLoad
  split
  · exact h
  · simp [present, State.modPage]

/-- A byte with the bit of a number below 8 set. -/
theorem getLsbD_setBit (b : Byte) (k : Nat) (h : k < 8) : (b ||| BitVec.ofNat 8 (2 ^ k)).getLsbD k = true := by
  rw [BitVec.getLsbD_or, BitVec.getLsbD_ofNat, Nat.testBit_two_pow_self]
  simp [h]

theorem present_setPresent (s : State) (d : TableDesc) (l : Nat) (hs : ErrorFree s) : present (setPresent s d l) d l = true := by
  unfold setPresent
  split
  case isTrue h =>
    unfold present
    rw [h, Bool.true_or]
  case isFalse =>
    dsimp only
    rw [hs.fetchRange]
    split
    case isTrue h => exact h
    case isFalse =>
      refine present_endTableLoad (present_of_bit ?_)
      obtain ⟨hbyte, -⟩ := store_stores s (tPbase d + l / 8) (clean [s.byte (tPbase d + l / 8) ||| BitVec.ofNat 8 (2 ^ (l % 8))])
      have hset := hbyte 0 (by decide : 0 < 1)
      rw [Nat.add_zero] at hset
      exact (congrArg (·.getLsbD (l % 8)) hset).trans (getLsbD_setBit _ _ (Nat.mod_lt _ (by decide)))

/-- Where the bytes of a record and its presence bit stand. -/
def RecordPlace (d : TableDesc) (l n x : Nat) : Prop :=
  AboveDram x ∨ (recordAddr d l ≤ x ∧ x < recordAddr d l + n) ∨ x = tPbase d + l / 8

theorem CleanWrites.writeRecord (s : State) (d : TableDesc) (l : Nat) (bs : List PByte) :
    CleanWrites (RecordPlace d l bs.length) s (writeRecord s d l bs) := by
  have hslots := fun t => (writeSlots t d l bs).mono (B := RecordPlace d l bs.length) fun _ h => Or.inl h
  have hstore := fun t => (store t (recordAddr d l) bs).mono (B := RecordPlace d l bs.length) fun _ h => Or.inr (Or.inl h)
  have hclean := fun t => (cleanSlots t d l).mono (B := RecordPlace d l bs.length) fun _ h => Or.inl h
  have hpresent := fun t => (setPresent t d l).mono (B := RecordPlace d l bs.length) fun _ h => Or.inr (Or.inr h)
  exact (((hslots _).trans (hstore _)).trans (hclean _)).trans (hpresent _)

/-- A record written where no error stands is present, and its bytes stand in its place, which its presence bit shares no byte with. -/
theorem writeRecord_written (s : State) (d : TableDesc) (l : Nat) (bs : List PByte) (hs : ErrorFree s)
    (hend : recordAddr d l + bs.length ≤ Config.dramEnd)
    (hbit : tPbase d + l / 8 < recordAddr d l ∨ recordAddr d l + bs.length ≤ tPbase d + l / 8) :
    present (writeRecord s d l bs) d l = true ∧
      ∀ i, ∀ h : i < bs.length, (writeRecord s d l bs).byte (recordAddr d l + i) = bs[i].1 := by
  have hfilled : ErrorFree (writeSlots s d l bs) := (CleanWrites.writeSlots s d l bs).errorFree hs
  have hstored : ErrorFree (store (writeSlots s d l bs) (recordAddr d l) bs) := (CleanWrites.store _ _ _).errorFree hfilled
  have hcleaned : ErrorFree (cleanSlots (store (writeSlots s d l bs) (recordAddr d l) bs) d l) :=
    (CleanWrites.cleanSlots _ _ _).errorFree hstored
  refine ⟨present_setPresent _ d l hcleaned, fun i hi => ?_⟩
  obtain ⟨hbytes, -⟩ := store_stores (writeSlots s d l bs) (recordAddr d l) bs
  have hinside : (store (writeSlots s d l bs) (recordAddr d l) bs).byte (recordAddr d l + i) = bs[i].1 := by
    rw [hbytes i (by simpa using hi), List.getElem_map]
  calc (writeRecord s d l bs).byte (recordAddr d l + i)
      = (cleanSlots (store (writeSlots s d l bs) (recordAddr d l) bs) d l).byte (recordAddr d l + i) :=
        (CleanWrites.setPresent _ d l).byte hcleaned (by omega)
    _ = (store (writeSlots s d l bs) (recordAddr d l) bs).byte (recordAddr d l + i) :=
        (CleanWrites.cleanSlots _ d l).byte hstored (by unfold AboveDram; omega)
    _ = bs[i].1 := hinside

/-! ### Writes of units outside the cores (R101, R116, R186) -/

/-- A write that may take effect at once does. -/
theorem outsideStore_now {s : State} {a : Nat} {bs : List PByte} (h : landsNow s a bs.length = true) :
    outsideStore s a bs = writeP s a bs ∨ outsideStore s a bs = store s a bs := by
  unfold outsideStore landsNow at *
  split
  case h_1 c hc =>
    rw [hc] at h
    simp only [Bool.and_eq_true, Bool.not_eq_true'] at h
    by_cases hne : bs = []
    · subst hne
      exact Or.inr rfl
    · exact Or.inl (tileWrite_now s c _ a bs h.1 h.2 hne)
  case h_2 => exact Or.inr rfl

theorem CleanWrites.outsideStore {s : State} {a : Nat} {bs : List PByte} (h : landsNow s a bs.length = true) :
    CleanWrites (fun x => a ≤ x ∧ x < a + bs.length) s (outsideStore s a bs) := by
  obtain hw | hw := outsideStore_now h
  · rw [hw]; exact writeP s a bs
  · rw [hw]; exact store s a bs

theorem outsideStore_byte {s : State} {a : Nat} {bs : List PByte} (h : landsNow s a bs.length = true) (i : Nat) (hi : i < bs.length) :
    (outsideStore s a bs).byte (a + i) = bs[i].1 := by
  obtain hw | hw := outsideStore_now h
  · rw [hw, writeP_byte_inside s a i bs (by simpa using hi), List.getElem_map]
  · rw [hw, (store_stores s a bs).1 i (by simpa using hi), List.getElem_map]

/-- Whether a write lands at once follows from the cores. -/
theorem landsNow_congr {s t : State} (h : t.cores = s.cores) (a n : Nat) : landsNow t a n = landsNow s a n := by
  unfold landsNow State.core
  rw [h]

/-! ### What lookups have freed, where nothing waits -/

/-- What lookups have freed is taken up by nothing where every queued lookup finds its unit full. -/
theorem onward_full {s : State} (hqueue : ∀ w ∈ s.lookupQueue, 64 ≤ openLookups s (lFeature w.desc % 4)) (hpayloads : s.waitingPayloads = [])
    (htags : s.tagWait = []) : onward s = s := by
  have hstart : ∀ n, startQueued n s = s := fun n => by
    cases n with
    | zero => rfl
    | succ n =>
      unfold startQueued
      rw [List.find?_eq_none.2 fun w hw => by simpa using hqueue w hw]
  have hretry : retryTags s = s := by
    unfold retryTags
    rw [htags, List.foldl_nil, ← htags]
  have hround : retryTags (retryPayloads (startQueued s.lookupQueue.length s)) = s := by
    rw [hstart]
    unfold retryPayloads
    rw [hpayloads]
    exact hretry
  have hrounds : ∀ n, rounds n s = s := fun n => by
    induction n with
    | zero => rfl
    | succ n ih =>
      unfold rounds
      rw [hround, ih]
  exact hrounds _

theorem onward_idle {s : State} (h : NothingWaits s) : onward s = s :=
  onward_full (by rw [h.1]; exact fun w hw => absurd hw List.not_mem_nil) h.2.1 h.2.2

end Sys2Proof.Machine

/-! ## Tier fetches and prefetches (O35) -/

namespace Sys2Proof.Machine

theorem StoreFrame.eq {s t : State} (h : StoreFrame s t) : t = { s with
    mem := t.mem, marks := t.marks, errs := t.errs, metaErrs := t.metaErrs, sramErrs := t.sramErrs, acc := t.acc, vaults := t.vaults
    integ := t.integ, mirror := t.mirror, errRing := t.errRing, rseq := t.rseq, fresh := t.fresh } := h

/-! ### Fetches (R230) -/

/-- The read that a fetch makes of the host, where the program names a tier source (R229). -/
def tierReads (s : State) (d : TableDesc) (t l : Nat) : List HostMsg :=
  match s.tierSources.find? fun x => x.table == t && decide (x.first ≤ l) && decide (l ≤ x.last) with
  | some x => [.tierRead x.sid x.buf (x.hoff + (l - x.first) * x.stride) (tRec d) t l s.fetchSeq]
  | none => []

theorem startFetch_new {s : State} {t l : Nat} (h : fetching s t l = false) :
    (startFetch s t l).fetches = s.fetches ++ [⟨t, l, s.cycle, none, s.fetchSeq⟩] := by
  unfold fetching at h
  unfold startFetch
  rw [if_neg (by rw [h]; decide)]
  dsimp only
  split <;> rfl

theorem startFetch_hostOut {s : State} {d : TableDesc} {t l : Nat} (hd : tableOf s t = some d) (h : fetching s t l = false) :
    (startFetch s t l).hostOut = s.hostOut ++ tierReads s d t l := by
  unfold fetching at h
  unfold startFetch tierReads
  rw [if_neg (by rw [h]; decide)]
  have htable : ∀ f q, tableOf { s with fetches := f, fetchSeq := q } t = some d := fun _ _ => hd
  dsimp only
  rw [htable]
  cases s.tierSources.find? fun x => x.table == t && decide (x.first ≤ l) && decide (l ≤ x.last) with
  | none => exact (List.append_nil _).symm
  | some x => rfl

/-- The background fetch takes the first record that is absent and not being fetched (R231). -/
theorem backgroundFetch_first {s : State} {t l : Nat} {d : TableDesc} (hd : tableOf s t = some d) (hrun : s.jobRuns = true)
    (htier : tTier d = true) (hfirst : ((List.range (tLrows d)).find? fun x => !present s d x && !fetching s t x) = some l) :
    (backgroundFetch t s).fetches = s.fetches ++ [⟨t, l, s.cycle, none, s.fetchSeq⟩] ∧
      (backgroundFetch t s).hostOut = s.hostOut ++ tierReads s d t l := by
  have hfree : fetching s t l = false := by
    have := List.find?_some hfirst
    simp only [Bool.and_eq_true, Bool.not_eq_true'] at this
    exact this.2
  have hstart : backgroundFetch t s = startFetch (fetchRange s (tPbase d + l / 8) 1) t l := by
    unfold backgroundFetch
    rw [hd]
    simp [hrun, htier, hfirst]
  rw [hstart, (StoreFrame.fetchRange s (tPbase d + l / 8) 1).eq]
  exact ⟨startFetch_new hfree, startFetch_hostOut hd hfree⟩

/-! ### A fetch that completes (R230, R231) -/

theorem NothingWaits.cleanWrites {A : Nat → Prop} {s t : State} (h : NothingWaits s) (hs : ErrorFree s) (hw : CleanWrites A s t) :
    NothingWaits t := by
  rw [hw.state hs]
  exact h

theorem tierComplete_late {s : State} {t l q : Nat} {d : TableDesc} {image : List Byte} (hd : tableOf s t = some d)
    (hlen : image.length = tRec d) (hf : (s.fetches.find? fun f => f.table == t && f.lidx == l && f.seq == q) = none) :
    tierComplete t l q image s = { s with late := satAdd 32 s.late 1 } := by
  unfold tierComplete
  rw [hd]
  dsimp only
  rw [if_neg (not_not.2 hlen), hf]

/-- An image that comes for a fetch is the record's bytes, and the record is present. -/
theorem tierComplete_fetched {s : State} {t l q : Nat} {d : TableDesc} {image : List Byte} {f : Fetch} (hd : tableOf s t = some d)
    (hlen : image.length = tRec d) (hf : (s.fetches.find? fun f => f.table == t && f.lidx == l && f.seq == q) = some f)
    (hwaits : NothingWaits s) (hjobs : s.rowJobs = []) (hs : ErrorFree s) (hend : recordAddr d l + tRec d ≤ Config.dramEnd)
    (hbelow : tPbase d + l / 8 < Config.dramEnd)
    (hbit : tPbase d + l / 8 < recordAddr d l ∨ recordAddr d l + tRec d ≤ tPbase d + l / 8) :
    present (tierComplete t l q image s) d l = true ∧ (tierComplete t l q image s).fetches = s.fetches.erase f ∧
      ∀ i, ∀ h : i < image.length, (tierComplete t l q image s).byte (recordAddr d l + i) = image[i] := by
  let s1 : State := { s with fetches := s.fetches.erase f }
  let s2 := writeRecord s1 d l (clean image)
  let s3 := match f.prefetch with | some b => installRow s2 d l (some (b.toNat % 8)) false | none => s2
  have h1 : ErrorFree s1 := hs
  have hrecord : CleanWrites (RecordPlace d l (clean image).length) s1 s2 := CleanWrites.writeRecord s1 d l (clean image)
  have h2 : ErrorFree s2 := hrecord.errorFree h1
  have hinstall : CleanWrites AboveDram s2 s3 := by
    dsimp only [s3]
    split
    · exact CleanWrites.installRow _ _ _ _ _
    · exact CleanWrites.refl _ _
  have hwaits3 : NothingWaits s3 := NothingWaits.cleanWrites (hwaits.cleanWrites (s := s1) h1 hrecord) h2 hinstall
  have hstate : s3.rowJobs = [] ∧ s3.fetches = s.fetches.erase f := by
    rw [hinstall.state h2, hrecord.state h1]
    exact ⟨hjobs, rfl⟩
  have hdone : tierComplete t l q image s = s3 := by
    unfold tierComplete
    rw [hd]
    dsimp only
    rw [if_neg (not_not.2 hlen), hf]
    show onward (s3.rowJobs.foldl tryRowJob s3) = s3
    rw [hstate.1]
    exact onward_idle hwaits3
  have hn : (clean image).length = tRec d := by rw [length_clean, hlen]
  obtain ⟨hpresent, hbytes⟩ := writeRecord_written s1 d l (clean image) h1 (by rw [hn]; exact hend) (by rw [hn]; exact hbit)
  rw [hdone]
  refine ⟨hinstall.present h2 (by unfold AboveDram; omega) hpresent, hstate.2, fun i hi => ?_⟩
  rw [hinstall.byte h2 (by unfold AboveDram; omega)]
  have hi' : i < (clean image).length := by rw [length_clean]; exact hi
  exact (hbytes i hi').trans (by simp [clean])

/-! ### A fetch that is given up (R232) -/

/-- State t is s but for the records, with the earlier ones kept, the counts of the Teasel units and the banks. -/
structure FaultFrame (s t : State) : Prop where
  state : t = { s with errRing := t.errRing, rseq := t.rseq, fresh := t.fresh, teasels := t.teasels, banks := t.banks }
  ring : RingGrows s t

namespace FaultFrame

theorem refl (s : State) : FaultFrame s s := ⟨rfl, RingGrows.refl s⟩

theorem trans {s t u : State} (h : FaultFrame s t) (h' : FaultFrame t u) : FaultFrame s u := by
  refine ⟨?_, h.ring.trans h'.ring⟩
  have hu := h'.state
  rw [h.state] at hu
  exact hu

theorem foldl {β : Type} (f : State → β → State) (hf : ∀ s x, FaultFrame s (f s x)) (l : List β) (s : State) :
    FaultFrame s (l.foldl f s) := foldl_rel refl trans f hf l s

theorem emit (s : State) (i : RecInfo) : FaultFrame s (s.emit i) := ⟨rfl, RingGrows.emit s i⟩

theorem modTeasel (s : State) (u : Nat) (f : Teasel → Teasel) : FaultFrame s (s.modTeasel u f) := ⟨rfl, RingGrows.of_eq rfl⟩

theorem teaselFault (s : State) (unit code : Nat) (op : Word) : FaultFrame s (teaselFault s unit code op) := by
  unfold Machine.teaselFault
  dsimp only
  split
  · exact (emit s _).trans (modTeasel _ _ _)
  · exact emit s _

theorem waitsOn {s t : State} (h : FaultFrame s t) (d : TableDesc) (l : Nat) (j : RowJob) : waitsOn t d l j = waitsOn s d l j := by
  rw [h.state]
  rfl

end FaultFrame

/-- The state with a fetch given up: it is in progress no more, and its record is written. -/
def fetchLost (s : State) (f : Fetch) (d : TableDesc) (l : Nat) : State :=
  { s with fetches := s.fetches.erase f }.emit
    { code := 0x36, uclass := 7, uinst := vaultOf (recordAddr d l), addr := recordAddr d l }

/-- The applies of a bank, given up. -/
def failApplies (s : State) (k : Nat) : State :=
  let b : Bank := mget {} s.banks k
  { b.applies.foldl (fun s x => teaselFault s x.unit 0x36 (opidDesc x.descId b.step)) s with
    banks := mset {} s.banks k { b with applies := [] } }

/-- The banks of a table whose apply waits on record l. -/
def banksOn (s : State) (t l : Nat) : List Nat :=
  [2 * t, 2 * t + 1].filter fun k => mget 0 (mget {} s.banks k).used l != 0 && !(mget {} s.banks k).ran

/-- The faults of the row jobs that wait on record l. -/
def failJobs (s : State) (d : TableDesc) (l : Nat) : State :=
  (s.rowJobs.filter (waitsOn s d l)).foldl (fun s j => teaselFault s j.unit 0x36 (opidDesc j.descId j.step)) s

/-- The row jobs that do not wait on record l. -/
def dropJobs (s t : State) (d : TableDesc) (l : Nat) : State :=
  { t with rowJobs := t.rowJobs.filter fun j => !(s.rowJobs.filter (waitsOn s d l)).contains j }

theorem FaultFrame.failApplies (s : State) (k : Nat) : FaultFrame s (failApplies s k) := by
  unfold Machine.failApplies
  have hfaults := foldl (fun t (x : LedgerTok) => Machine.teaselFault t x.unit 0x36 (opidDesc x.descId (mget {} s.banks k).step))
    (fun s x => teaselFault s _ _ _) (mget {} s.banks k).applies s
  refine ⟨?_, hfaults.ring.trans (RingGrows.of_eq rfl)⟩
  have hstate := hfaults.state
  dsimp only
  rw [hstate]

theorem FaultFrame.failJobs (s : State) (d : TableDesc) (l : Nat) : FaultFrame s (failJobs s d l) :=
  foldl _ (fun t _ => teaselFault t _ _ _) _ s

/-- A fetch whose time is out is given up, where no payload waits. -/
theorem tierTimeout_eq {s : State} {t l : Nat} {d : TableDesc} {f : Fetch} (hpayloads : s.waitingPayloads = []) (hd : tableOf s t = some d)
    (hf : (s.fetches.find? fun f => f.table == t && f.lidx == l) = some f) (htmo : s.tierTmo ≠ 0)
    (hdue : f.start + 800 * s.tierTmo.toNat ≤ s.cycle) :
    let s3 := (banksOn (fetchLost s f d l) t l).foldl failApplies (fetchLost s f d l)
    tierTimeout t l s = onward (dropJobs s3 (failJobs s3 d l) d l) := by
  intro s3
  unfold tierTimeout
  rw [hd, hf]
  dsimp only
  rw [if_neg (by simp only [not_or, Nat.not_lt]; exact ⟨htmo, hdue⟩)]
  have hkept : { fetchLost s f d l with waitingPayloads := [] } = fetchLost s f d l := by
    show _ = { fetchLost s f d l with waitingPayloads := s.waitingPayloads }
    rw [hpayloads]
  have hstart : ∀ onL : WaitingPayload → Bool, ((s.waitingPayloads.partition onL).1.foldl (fun s w => failPayload s w.msg 0x36)
      { fetchLost s f d l with waitingPayloads := (s.waitingPayloads.partition onL).2 }) = fetchLost s f d l := fun onL => by
    rw [hpayloads]
    exact hkept
  dsimp only [s3]
  rw [← hstart fun w => w.msg.rows.contains l && s.counts.any fun c =>
    c.requester == w.msg.requester && c.descId == w.msg.descId && c.batch == w.msg.batch && c.table == t]
  rfl

/-- A fetch that has taken its time is given up: the row jobs that wait on its record fail with it, and nothing else waits. -/
theorem tierTimeout_due {s : State} {t l : Nat} {d : TableDesc} {f : Fetch} (hwaits : NothingWaits s) (hd : tableOf s t = some d)
    (hf : (s.fetches.find? fun f => f.table == t && f.lidx == l) = some f) (htmo : s.tierTmo ≠ 0)
    (hdue : f.start + 800 * s.tierTmo.toNat ≤ s.cycle) :
    (tierTimeout t l s).fetches = s.fetches.erase f ∧ (tierTimeout t l s).mem = s.mem ∧
      (tierTimeout t l s).rowJobs = s.rowJobs.filter (fun j => !waitsOn s d l j) ∧
      ∃ r ∈ (tierTimeout t l s).errRing.drop s.errRing.length, r.code = 0x36 ∧ r.addr = BitVec.ofNat 48 (recordAddr d l) := by
  obtain ⟨hqueue, hpayloads, htags⟩ := hwaits
  rw [tierTimeout_eq hpayloads hd hf htmo hdue]
  generalize hs3 : (banksOn (fetchLost s f d l) t l).foldl failApplies (fetchLost s f d l) = s3
  have h3 : FaultFrame (fetchLost s f d l) s3 := hs3 ▸ FaultFrame.foldl _ FaultFrame.failApplies _ _
  have h4 : FaultFrame (fetchLost s f d l) (failJobs s3 d l) := h3.trans (FaultFrame.failJobs s3 d l)
  have hidle : NothingWaits (dropJobs s3 (failJobs s3 d l) d l) := by
    show NothingWaits (failJobs s3 d l)
    rw [h4.state]
    exact ⟨hqueue, hpayloads, htags⟩
  rw [onward_idle hidle]
  refine ⟨?_, ?_, ?_, _, record_mem_drop h4.ring, rfl, rfl⟩
  · show (failJobs s3 d l).fetches = _
    rw [h4.state]
    rfl
  · show (failJobs s3 d l).mem = _
    rw [h4.state]
    rfl
  · have hjobs4 : (failJobs s3 d l).rowJobs = s.rowJobs := by rw [h4.state]; rfl
    have hjobs3 : s3.rowJobs = s.rowJobs := by rw [h3.state]; rfl
    have hwait : ∀ j, waitsOn s3 d l j = waitsOn s d l j := fun j => h3.waitsOn d l j
    show (failJobs s3 d l).rowJobs.filter _ = _
    rw [hjobs4, hjobs3]
    refine List.filter_congr fun j hj => ?_
    rw [Bool.eq_iff_iff]
    simp [hj, hwait]

/-! ### Prefetches (R239, R257) -/

/-- The prefetch of one record that is there installs its row. -/
theorem prefetchRow_present {s : State} {d : TableDesc} {l : Nat} (batch : BitVec 32) (hl : l < tLrows d) (hs : ErrorFree s)
    (hthere : (absentOf s d [l]).2 = []) : prefetchRow d batch s l = installRow s d l (some (batch.toNat % 8)) false := by
  unfold prefetchRow
  rw [if_neg (Nat.not_le.2 hl)]
  dsimp only
  rw [hthere, hs.absentOf]
  rfl

/-- The prefetch of one record that is absent fetches it for the batch. -/
theorem prefetchRow_absent {s : State} {d : TableDesc} {l : Nat} (batch : BitVec 32) (hl : l < tLrows d) (hs : ErrorFree s)
    (habsent : (absentOf s d [l]).2 = [l]) (hfree : fetching s (tId d) l = false) :
    (prefetchRow d batch s l).fetches = s.fetches ++ [⟨tId d, l, s.cycle, some batch, s.fetchSeq⟩] := by
  unfold prefetchRow
  rw [if_neg (Nat.not_le.2 hl)]
  dsimp only
  rw [habsent, hs.absentOf]
  show (startFetch s (tId d) l).fetches.map _ = _
  rw [startFetch_new hfree, List.map_append, List.map_singleton, if_pos ⟨rfl, rfl⟩]
  refine congrArg (· ++ _) ((List.map_congr_left fun f hf => ?_).trans (List.map_id _))
  have hother : ¬ (f.table = tId d ∧ f.lidx = l) := by
    simpa using List.any_eq_false.1 hfree f hf
  rw [if_neg hother]
  rfl

/-- Settles O35: each command is its own equation in a state where nothing else waits; what it writes is followed by the frames above. -/
theorem rowsComeOnChip : Obligations.RowsComeOnChip := by
  unfold Obligations.RowsComeOnChip
  refine ⟨?_, ?_⟩
  · intro s tab l q d image a hlive hgo hd
    refine ⟨fun hrun htier hfirst => ?_, fun hlen => ?_, fun hwaits f hf htmo hdue => ?_⟩
    · obtain ⟨hfetches, hout⟩ := backgroundFetch_first hd hrun htier hfirst
      exact ⟨backgroundFetch tab s, congrArg Host.Outcome.next (if_runs hlive hgo _), hfetches, hout⟩
    · split
      case h_1 hf =>
        exact (congrArg Host.Outcome.next (if_runs hlive hgo _)).trans (congrArg Host.Outcome.next (tierComplete_late hd hlen hf))
      case h_2 f hf =>
        intro hwaits hjobs hs hend hbelow hbit
        exact ⟨tierComplete tab l q image s, congrArg Host.Outcome.next (if_runs hlive hgo _),
          tierComplete_fetched hd hlen hf hwaits hjobs hs hend hbelow hbit⟩
    · exact ⟨tierTimeout tab l s, congrArg Host.Outcome.next (if_runs hlive hgo _), tierTimeout_due hwaits hd hf htmo hdue⟩
  · intro s m d l a v hlive hgo hd
    refine ⟨fun hoff => ?_, fun hon hrows hl hs => ⟨fun hthere hw1 hw0 hslice hroom => ?_, fun habsent hfree => ?_⟩⟩
    · have hdrop : prefetchMessage m s = countDrop s 0 := by
        unfold prefetchMessage
        rw [hd]
        simp [hoff]
      exact (congrArg Host.Outcome.next (if_runs hlive hgo _)).trans (congrArg Host.Outcome.next hdrop)
    · have hone : prefetchMessage m s = installChunk s a (some (m.batch.toNat % 8)) false := by
        unfold prefetchMessage
        rw [hd, hrows]
        dsimp only
        rw [if_pos hon, List.foldl_cons, List.foldl_nil, prefetchRow_present m.batch hl hs hthere, installRow_single s d l _ _ hw0 hw1]
      obtain ⟨w, hway, -⟩ := installChunk_resident s a (some (m.batch.toNat % 8)) false hs hslice hroom
      refine ⟨prefetchMessage m s, congrArg Host.Outcome.next (if_runs hlive hgo _), ?_, fun x hx => ?_⟩
      · rw [hone, hway]
        rfl
      · rw [hone]
        exact (CleanWrites.installChunk s a _ _).byte hs (Nat.not_le.2 hx)
    · have hone : prefetchMessage m s = prefetchRow d m.batch s l := by
        unfold prefetchMessage
        rw [hd, hrows]
        dsimp only
        rw [if_pos hon, List.foldl_cons, List.foldl_nil]
      exact ⟨prefetchMessage m s, congrArg Host.Outcome.next (if_runs hlive hgo _), by rw [hone, prefetchRow_absent m.batch hl hs habsent hfree]⟩

end Sys2Proof.Machine

/-! ## Frames of the hot-row store, whatever errors stand (O33, O36, O47) -/

namespace Sys2Proof.Machine

namespace StoreFrame

theorem badEntry (s : State) (v slot : Nat) : StoreFrame s (badEntry s v slot) := by
  unfold Machine.badEntry
  dsimp only
  split
  · exact (markRecord s _ _ _).trans (modVault _ _ _)
  · exact modVault s _ _

theorem sramErrs (s : State) (e : SMap (BitVec 72)) : StoreFrame s { s with sramErrs := e } := rfl

theorem fetchDirWord (s : State) (v w : Nat) : StoreFrame s (fetchDirWord s v w) := by
  unfold Machine.fetchDirWord
  dsimp only
  split
  · exact (((sramRead s _).trans (badEntry _ _ _)).trans (badEntry _ _ _)).trans (sramErrs _ _)
  · exact sramRead s _

theorem fetchSet (s : State) (v set : Nat) : StoreFrame s (fetchSet s v set) := foldl _ (fun t _ => fetchDirWord t _ _) _ s

theorem installChunk (s : State) (a : Nat) (need : Option Nat) (pin : Bool) : StoreFrame s (installChunk s a need pin) := by
  unfold Machine.installChunk
  extract_lets v set s1 renew
  refine (fetchSet s v set).trans ?_
  split
  · exact modVault _ _ _
  · split
    · exact modVault _ _ _
    · split
      · exact modVault _ _ _
      · exact ((fetchRange _ _ _).trans (writeP _ _ _)).trans (modVault _ _ _)

theorem installRow (s : State) (d : TableDesc) (l : Nat) (need : Option Nat) (pin : Bool) : StoreFrame s (installRow s d l need pin) := by
  unfold Machine.installRow
  split
  · exact refl s
  · exact foldl _ (fun t a => installChunk t a need pin) _ s

theorem pinRow (s : State) (d : TableDesc) (l : Nat) : StoreFrame s (pinRow s d l) := by
  unfold Machine.pinRow
  dsimp only
  split
  · exact modVault s _ _
  · exact installRow s d l none true

theorem clearPins (s : State) (d : TableDesc) : StoreFrame s (clearPins s d) := foldl _ (fun t _ => modVault t _ _) _ s

theorem readChunk (s : State) (a : Nat) : StoreFrame s (readChunk s a).1 := by
  unfold Machine.readChunk
  extract_lets v set s1 s2
  have h2 : StoreFrame s s2 := by
    refine (fetchSet s v set).trans ?_
    dsimp only [s2]
    split
    · exact fetchSlot _ _ _
    · exact refl _
  refine h2.trans ?_
  split
  · exact modVault _ _ _
  · exact (fetchRange _ _ _).trans (modVault _ _ _)

/-- A fold that passes on what it has read so far. -/
theorem foldl_fst {α β : Type} (f : State × α → β → State × α) (hf : ∀ x b, StoreFrame x.1 (f x b).1) (l : List β) (x : State × α) :
    StoreFrame x.1 (l.foldl f x).1 := foldl_rel (R := fun x y : State × α => StoreFrame x.1 y.1) (fun x => refl x.1) trans f hf l x

theorem readRow (s : State) (d : TableDesc) (l : Nat) : StoreFrame s (readRow s d l).1 := by
  unfold Machine.readRow
  dsimp only
  refine foldl_fst _ (fun x a => ?_) (rowChunks d l) (s, [])
  dsimp only
  exact readChunk x.1 a

theorem readRows (s : State) (d : TableDesc) (rows : List Nat) : StoreFrame s (readRows s d rows).1 := by
  unfold Machine.readRows
  refine foldl_fst _ (fun x l => ?_) rows (s, [])
  exact readRow x.1 d l

theorem writeSlots (s : State) (d : TableDesc) (l : Nat) (bs : List PByte) : StoreFrame s (writeSlots s d l bs) := by
  refine foldl _ (fun t a => ?_) _ s
  dsimp only
  refine (fetchSet t (vaultOf a) (hotSet (chunkUnit a))).trans ?_
  split
  · exact (writeP _ _ _).trans (modVault _ _ _)
  · exact refl _

theorem cleanSlots (s : State) (d : TableDesc) (l : Nat) : StoreFrame s (cleanSlots s d l) := by
  refine foldl _ (fun t a => ?_) _ s
  dsimp only
  split
  · exact modVault _ _ _
  · exact refl _

theorem absentOf (s : State) (d : TableDesc) (rows : List Nat) : StoreFrame s (absentOf s d rows).1 := by
  unfold Machine.absentOf
  split
  · exact refl s
  · exact foldl _ (fun t _ => fetchRange t _ _) _ s

theorem fetchList (s : State) (t : TableDesc) (d : Desc) : StoreFrame s (fetchList s t d) := by
  unfold Machine.fetchList
  split
  · exact refl s
  · exact foldl _ (fun t _ => fetchRange t _ _) _ s

theorem countDrop (s : State) (v : Nat) : StoreFrame s (countDrop s v) := modVault s _ _

end StoreFrame
end Sys2Proof.Machine

/-! ## PIN, IMPORT and EXPORT (O36) -/

namespace Sys2Proof.Machine

/-! ### What a row job leaves (R133, R262) -/

/-- The row jobs and every core's descriptors have stayed. -/
structure RowFrame (s t : State) : Prop where
  rowJobs : t.rowJobs = s.rowJobs
  descs : ∀ c, (t.core c).descs = (s.core c).descs

namespace RowFrame

theorem refl (s : State) : RowFrame s s := ⟨rfl, fun _ => rfl⟩

theorem trans {s t u : State} (h : RowFrame s t) (h' : RowFrame t u) : RowFrame s u :=
  ⟨h'.rowJobs.trans h.rowJobs, fun c => (h'.descs c).trans (h.descs c)⟩

theorem foldl {β : Type} (f : State → β → State) (hf : ∀ s x, RowFrame s (f s x)) (l : List β) (s : State) : RowFrame s (l.foldl f s) :=
  foldl_rel refl trans f hf l s

theorem of_storeFrame {s t : State} (h : StoreFrame s t) : RowFrame s t := by
  rw [h.eq]
  exact ⟨rfl, fun _ => rfl⟩

theorem modCore (s : State) (c : Nat) (f : Core → Core) (hf : ∀ k, (f k).descs = k.descs) : RowFrame s (s.modCore c f) := by
  refine ⟨rfl, fun d => ?_⟩
  rw [core_modCore]
  split
  · exact hf _
  · rfl

theorem startFetch (s : State) (t l : Nat) : RowFrame s (startFetch s t l) := by
  unfold Machine.startFetch
  split
  · exact refl s
  · dsimp only
    split <;> exact ⟨rfl, fun _ => rfl⟩

theorem outsideStore (s : State) (a : Nat) (bs : List PByte) : RowFrame s (outsideStore s a bs) := by
  unfold Machine.outsideStore
  split
  · unfold tileWrite
    dsimp only
    split
    · exact refl s
    · split
      · exact modCore s _ _ fun _ => rfl
      · exact of_storeFrame (StoreFrame.writeP s _ _)
  · exact of_storeFrame (StoreFrame.store s _ _)

theorem setPresent (s : State) (d : TableDesc) (l : Nat) : RowFrame s (setPresent s d l) := by
  have hload : ∀ t : State, RowFrame t (endTableLoad t) := fun t => by
    unfold endTableLoad
    split
    · exact refl t
    · exact ⟨rfl, fun _ => rfl⟩
  have hpage : ∀ (t : State) f, RowFrame t (t.modPage 0x08 f) := fun _ _ => ⟨rfl, fun _ => rfl⟩
  unfold Machine.setPresent
  split
  · exact refl s
  · dsimp only
    refine (of_storeFrame (StoreFrame.fetchRange s (tPbase d + l / 8) 1)).trans ?_
    split
    · exact refl _
    · exact ((of_storeFrame (StoreFrame.store _ _ _)).trans (hpage _ _)).trans (hload _)

theorem writeRecord (s : State) (d : TableDesc) (l : Nat) (bs : List PByte) : RowFrame s (writeRecord s d l bs) :=
  (of_storeFrame (((StoreFrame.writeSlots s d l bs).trans (StoreFrame.store _ _ _)).trans (StoreFrame.cleanSlots _ d l))).trans
    (setPresent _ d l)

theorem runRowJob (s : State) (t : TableDesc) (j : RowJob) : RowFrame s (runRowJob s t j) := by
  unfold Machine.runRowJob
  dsimp only
  split
  · refine trans ?_ (foldl _ (fun u l => of_storeFrame (StoreFrame.pinRow u t l)) _ _)
    split
    · exact refl s
    · exact of_storeFrame (StoreFrame.clearPins s t)
  · exact foldl _ (fun u i => (of_storeFrame (StoreFrame.fetchRange u _ _)).trans (writeRecord _ _ _ _)) _ s
  · exact foldl _ (fun u x => (of_storeFrame (StoreFrame.fetchRange u _ _)).trans (outsideStore _ _ _)) _ s

end RowFrame

/-! ### Running a row job (R230, R265) -/

/-- The job list with a job marked as run. -/
def jobRan (jobs : List RowJob) (j : RowJob) : List RowJob := jobs.map fun x => if x = j then { x with ran := true } else x

/-- The state with another list of row jobs. -/
def withJobs (s : State) (jobs : List RowJob) : State := { s with rowJobs := jobs }

section
variable (s : State) (jobs : List RowJob)

theorem withJobs_rowJobs : (withJobs s jobs).rowJobs = jobs := rfl

@[simp] theorem withJobs_errRing : (withJobs s jobs).errRing = s.errRing := rfl

@[simp] theorem withJobs_core (c : Nat) : (withJobs s jobs).core c = s.core c := rfl

@[simp] theorem withJobs_vault (v : Nat) : (withJobs s jobs).vault v = s.vault v := rfl

@[simp] theorem withJobs_byte (a : Nat) : (withJobs s jobs).byte a = s.byte a := rfl

@[simp] theorem withJobs_hotWay (a : Nat) : hotWay (withJobs s jobs) a = hotWay s a := rfl

@[simp] theorem withJobs_present (d : TableDesc) (l : Nat) : present (withJobs s jobs) d l = present s d l := rfl

end

/-- A try of a row job leaves the descriptors, and the jobs but for the mark of this one. -/
theorem tryRowJob_keeps (s : State) (j : RowJob) :
    ((tryRowJob s j).rowJobs = s.rowJobs ∨ (tryRowJob s j).rowJobs = jobRan s.rowJobs j) ∧
      ∀ c, ((tryRowJob s j).core c).descs = (s.core c).descs := by
  have of_frame : ∀ {t : State}, RowFrame s t → (t.rowJobs = s.rowJobs ∨ t.rowJobs = jobRan s.rowJobs j) ∧
      ∀ c, (t.core c).descs = (s.core c).descs := fun h => ⟨Or.inl h.rowJobs, h.descs⟩
  unfold tryRowJob
  split
  · exact of_frame (RowFrame.refl s)
  next t _ =>
    split
    · exact of_frame (RowFrame.refl s)
    · extract_lets x s' exports fenced r s2
      have hread : RowFrame s s' :=
        RowFrame.of_storeFrame ((StoreFrame.fetchList s t j.desc).trans (StoreFrame.absentOf _ t _))
      split
      · exact of_frame (hread.trans (RowFrame.foldl _ (fun u l => RowFrame.startFetch u j.table l) _ s'))
      · split
        · exact of_frame hread
        · have hrun : RowFrame s s2 := hread.trans (RowFrame.runRowJob s' t j)
          exact ⟨Or.inr (congrArg (jobRan · j) hrun.rowJobs), hrun.descs⟩

/-- The absent records of a list where no error stands. -/
theorem ErrorFree.absentOf_eq {s : State} (h : ErrorFree s) (d : TableDesc) (rows : List Nat) :
    Machine.absentOf s d rows = (s, if !tTier d || s.tierDone then [] else rows.filter fun l => !present s d l) := by
  refine Prod.ext (h.absentOf d rows) ?_
  unfold Machine.absentOf
  split
  · rfl
  · rw [foldl_const _ _ _ fun _ _ => h.fetchRange _ _]

/-- A row job whose records are there, whose fence is met and whose writes nothing holds runs (R116, R230, R265). -/
theorem tryRowJob_runs {s : State} {t : TableDesc} {j : RowJob} (hs : ErrorFree s) (ht : tableOf s j.table = some t) (hran : j.ran = false)
    (hthere : (absentOf s t (jobRows s t j)).2 = [])
    (hexport : fld j.desc.w0 0 4 = 4 →
      (j.desc.w0.getLsbD 45 = true → applyDone s j.table (j.desc.w4.extractLsb' 0 32) = true) ∧
        landsNow s (exportRange s t j.desc).1 (exportRange s t j.desc).2 = true)
    (himport : ((importedRows s t j).any fun l => fetching s j.table l) = false) :
    tryRowJob s j = withJobs (runRowJob s t j) (jobRan (runRowJob s t j).rowJobs j) := by
  have hfree : ((fld j.desc.w0 0 4 == 4 && j.desc.w0.getLsbD 45 && !applyDone s j.table (j.desc.w4.extractLsb' 0 32)) ||
      ((importedRows s t j).any fun l => fetching s j.table l) ||
      (fld j.desc.w0 0 4 == 4 && !landsNow s (exportRange s t j.desc).1 (exportRange s t j.desc).2)) = false := by
    rw [himport]
    by_cases hk : fld j.desc.w0 0 4 = 4
    · obtain ⟨hfence, hlands⟩ := hexport hk
      cases hb : j.desc.w0.getLsbD 45
      · simp [hlands]
      · simp [hlands, hfence hb]
    · simp [hk]
  unfold tryRowJob
  rw [ht]
  dsimp only
  rw [if_neg (by rw [hran]; decide), hs.fetchList, hthere, hs.absentOf, hfree]
  rfl

/-! ### Records that a row job makes: none, where no error stands -/

/-- Where no error stands in s, none stands in t, and no record has been written. -/
def KeepsRing (s t : State) : Prop := ErrorFree s → ErrorFree t ∧ t.errRing = s.errRing

namespace KeepsRing

theorem refl (s : State) : KeepsRing s s := fun h => ⟨h, rfl⟩

theorem trans {s t u : State} (h : KeepsRing s t) (h' : KeepsRing t u) : KeepsRing s u := fun hs => by
  obtain ⟨ht, hring⟩ := h hs
  obtain ⟨hu, hring'⟩ := h' ht
  exact ⟨hu, hring'.trans hring⟩

theorem foldl {β : Type} (f : State → β → State) (hf : ∀ s x, KeepsRing s (f s x)) (l : List β) (s : State) : KeepsRing s (l.foldl f s) :=
  foldl_rel refl trans f hf l s

theorem of_cleanWrites {A : Nat → Prop} {s t : State} (h : CleanWrites A s t) : KeepsRing s t := fun hs =>
  ⟨h.errorFree hs, by rw [h.state hs]⟩

theorem fetchRange (s : State) (a n : Nat) : KeepsRing s (fetchRange s a n) := fun hs => by
  rw [hs.fetchRange]
  exact refl s hs

theorem outsideStore (s : State) (a : Nat) (bs : List PByte) : KeepsRing s (outsideStore s a bs) := by
  unfold Machine.outsideStore
  split
  · unfold tileWrite
    dsimp only
    split
    · exact refl s
    · split
      · exact fun hs => ⟨hs, rfl⟩
      · exact of_cleanWrites (CleanWrites.writeP s _ _)
  · exact of_cleanWrites (CleanWrites.store s _ _)

theorem runRowJob (s : State) (t : TableDesc) (j : RowJob) : KeepsRing s (runRowJob s t j) := by
  unfold Machine.runRowJob
  dsimp only
  split
  · refine trans ?_ (foldl _ (fun u l => of_cleanWrites (CleanWrites.pinRow u t l)) _ _)
    split
    · exact refl s
    · exact of_cleanWrites (CleanWrites.clearPins s t)
  · exact foldl _ (fun u i => (fetchRange u _ _).trans (of_cleanWrites (CleanWrites.writeRecord _ _ _ _))) _ s
  · exact foldl _ (fun u x => (fetchRange u _ _).trans (outsideStore _ _ _)) _ s

end KeepsRing

/-! ### What one row leaves (R260, R263, R264) -/

/-- A PIN of one row of one chunk leaves its slot pinned. -/
theorem runRowJob_pin (s : State) (t : TableDesc) (j : RowJob) (l : Nat) (hs : ErrorFree s) (hk : fld j.desc.w0 0 4 = 2)
    (hmode : fld j.desc.w0 44 2 = 0) (hrows : jobRows s t j = [l]) (h0 : 0 < tW t) (h1 : tW t ≤ 128)
    (hon : (s.vault (vaultOf (recordAddr t l))).sliceOff = false)
    (hfew : pinnedIn (s.vault (vaultOf (recordAddr t l))) (hotSet (chunkUnit (recordAddr t l))) < 6)
    (hroom : (hotWay s (recordAddr t l)).isSome = true ∨
      ∃ w < 8, ((s.vault (vaultOf (recordAddr t l))).entry (hotSet (chunkUnit (recordAddr t l))) w).valid = false) :
    ∃ w, hotWay (runRowJob s t j) (recordAddr t l) = some w ∧
      (((runRowJob s t j).vault (vaultOf (recordAddr t l))).entry (hotSet (chunkUnit (recordAddr t l))) w).pin = true := by
  have hone : runRowJob s t j = installChunk s (recordAddr t l) none true := by
    unfold runRowJob
    dsimp only
    rw [hk, hmode, if_pos rfl, hrows, List.foldl_cons, List.foldl_nil, pinRow_single s t l h0 h1 hfew]
    rfl
  obtain ⟨w, hway, hpin⟩ := installChunk_resident s (recordAddr t l) none true hs hon hroom
  rw [hone]
  exact ⟨w, hway, hpin rfl⟩

/-- An IMPORT of one image writes its record to the row's place. -/
theorem runRowJob_import (s : State) (t : TableDesc) (j : RowJob) (l : Nat) (hs : ErrorFree s) (hk : fld j.desc.w0 0 4 = 3)
    (hcount : fld j.desc.w2 0 40 = 1) (hl : (ownerOf s t (readN s (fld j.desc.w1 0 48) 8 % 2 ^ 40)).2 = l)
    (hend : recordAddr t l + tRec t ≤ Config.dramEnd)
    (hbit : tPbase t + l / 8 < recordAddr t l ∨ recordAddr t l + tRec t ≤ tPbase t + l / 8) :
    present (runRowJob s t j) t l = true ∧
      ∀ n < tRec t, (runRowJob s t j).byte (recordAddr t l + n) = s.byte (fld j.desc.w1 0 48 + 128 + n) := by
  have hone : runRowJob s t j = writeRecord s t l (readP s (fld j.desc.w1 0 48 + 128) (tRec t)) := by
    unfold runRowJob
    dsimp only
    rw [hk, hcount]
    rw [List.range_one, List.foldl_cons, List.foldl_nil]
    simp only [Nat.mul_zero, Nat.add_zero, loadBytes, hs.fetchRange, hl]
  have hlen : (readP s (fld j.desc.w1 0 48 + 128) (tRec t)).length = tRec t := by simp [readP]
  obtain ⟨hpresent, hbytes⟩ := writeRecord_written s t l (readP s (fld j.desc.w1 0 48 + 128) (tRec t)) hs (by rw [hlen]; exact hend)
    (by rw [hlen]; exact hbit)
  rw [hone]
  refine ⟨hpresent, fun n hn => ?_⟩
  rw [hbytes n (by rw [hlen]; exact hn)]
  simp [readP]

theorem length_pad16 (bs : List PByte) : (pad16 bs).length = 16 * ceilDiv bs.length 16 := by
  unfold pad16 ceilDiv
  rw [List.length_append, List.length_replicate]
  omega

/-- An EXPORT of one row puts its weights behind the header of its record. -/
theorem runRowJob_export (s : State) (t : TableDesc) (j : RowJob) (r : Nat) (hs : ErrorFree s) (hk : fld j.desc.w0 0 4 = 4)
    (hrows : exportRows s t j.desc = [r]) (hlands : landsNow s (exportRange s t j.desc).1 (exportRange s t j.desc).2 = true) :
    ∀ n < tW t, (runRowJob s t j).byte (fld j.desc.w1 0 48 + 16 + n) = s.byte (recordAddr t (ownerOf s t r).2 + n) := by
  intro n hn
  let a := recordAddr t (ownerOf s t r).2
  let w := pad16 (readP s a (tW t))
  let head := marked (poisonedIn s (a + tH t) 4)
    (toBytes 16 (r + tId t * 2 ^ 40 + readN s (a + tH t) 2 * 2 ^ 64 + readN s (a + tH t + 2) 2 * 2 ^ 80))
  let st := if j.desc.w0.getLsbD 44 then pad16 (readP s (a + tH t + 16) (tRec t - (tH t + 16))) else []
  have hone : runRowJob s t j = outsideStore s (fld j.desc.w1 0 48) (head ++ w ++ st) := by
    unfold runRowJob
    dsimp only
    rw [hk, hrows]
    show exportRow s t _ (fld j.desc.w1 0 48 + exportBytes t (j.desc.w0.getLsbD 44) * 0) r = _
    unfold exportRow
    dsimp only
    rw [hs.fetchRange]
    rfl
  have hread : ∀ b m, (readP s b m).length = m := fun b m => by simp [readP]
  have hhead : head.length = 16 := by simp [head, marked]
  have hw : w.length = 16 * ceilDiv (tW t) 16 := by rw [length_pad16, hread]
  have hst : st.length = if j.desc.w0.getLsbD 44 then 16 * ceilDiv (tRec t - (tH t + 16)) 16 else 0 := by
    dsimp only [st]
    split
    · rw [length_pad16, hread]
    · rfl
  have hlen : (head ++ w ++ st).length = (exportRange s t j.desc).2 := by
    unfold exportRange exportBytes
    rw [hrows, List.length_append, List.length_append, hhead, hw, hst]
    simp
  have hlands' : landsNow s (fld j.desc.w1 0 48) (head ++ w ++ st).length = true := by
    rw [hlen]
    exact hlands
  have hceil : tW t ≤ 16 * ceilDiv (tW t) 16 := by
    unfold ceilDiv
    omega
  have hin : 16 + n < (head ++ w ++ st).length := by
    rw [List.length_append, List.length_append, hhead, hw]
    omega
  rw [hone, Nat.add_assoc, outsideStore_byte hlands' (16 + n) hin]
  have hbyte : (head ++ w ++ st)[16 + n] = (readP s a (tW t))[n]'(by rw [hread]; exact hn) := by
    rw [List.getElem_append_left (by rw [List.length_append, hhead, hw]; omega), List.getElem_append_right (by omega)]
    simp only [hhead, Nat.add_sub_cancel_left]
    exact List.getElem_append_left (by rw [hread]; exact hn)
  rw [hbyte]
  simp [readP, a]

/-! ### A row descriptor at its unit (R133, R262) -/

section
variable {s : State} {c : Nat} {d : Desc} {k : Nat}

/-- The descriptor has left its place. -/
def Freed (s t : State) (c : Nat) (d : Desc) : Prop := (t.core c).descs = (s.core c).descs.eraseP fun x => x.eng == none && x.desc == d

theorem freed_freePlace (s : State) (c : Nat) (d : Desc) : Freed s (freePlace s c none d) c d := by
  unfold Freed freePlace
  rw [core_modCore_self]

/-- The record that a Teasel unit writes for a fault (R266). -/
theorem teaselFault_errRing (s : State) (unit code : Nat) (op : Word) : (teaselFault s unit code op).errRing =
    s.errRing ++ [s.record { code := code, uclass := 8, uinst := unit, opid := op }] := by
  unfold teaselFault
  dsimp only
  split <;> rfl

theorem rowDesc_poisoned (h : arrives s c none d true = true) : rowDesc k c d true s = biteDesc s c (c / 8) d := by
  unfold rowDesc
  dsimp only
  rw [if_neg (by simp [h]), if_pos rfl]

theorem rowDesc_reserved (h : arrives s c none d false = true) (hres : rowReserved k d = true) :
    rowDesc k c d false s = teaselFault (freePlace s c none d) (c / 8) 0x02 (opidDesc (dId d) (descPlace s c none d).step) := by
  unfold rowDesc
  dsimp only
  rw [if_neg (by simp [h]), if_neg (by decide), if_pos hres]

/-- The job that an accepted row descriptor makes. -/
def rowJobOf (s : State) (c : Nat) (d : Desc) : RowJob :=
  ⟨dId d, rTok d, rCore d, dTable d, d, c / 8, (descPlace s c none d).step, false⟩

theorem rowDesc_known {t : TableDesc} (h : arrives s c none d false = true) (hres : rowReserved k d = false)
    (ht : tableOf s (dTable d) = some t) :
    let s1 := fetchList (freePlace s c none d) t d
    rowDesc k c d false s = if rowFault s1 k t d ≠ 0
      then teaselFault s1 (c / 8) (rowFault s1 k t d) (opidDesc (dId d) (descPlace s c none d).step)
      else tryRowJob { s1 with rowJobs := s1.rowJobs ++ [rowJobOf s c d] } (rowJobOf s c d) := by
  have ht' : tableOf (freePlace s c none d) (dTable d) = some t := ht
  unfold rowDesc
  dsimp only
  rw [if_neg (by simp [h]), if_neg (by decide), if_neg (by simp [hres]), ht']
  rfl

end

theorem kind_of_not_rowReserved {k : Nat} {d : Desc} (h : rowReserved k d = false) : fld d.w0 0 4 = k := by
  unfold rowReserved at h
  simp only [Bool.or_eq_false_iff, bne_eq_false_iff_eq] at h
  exact h.1

/-- Whether a write lands at once follows from what the passes, queues and waiting writes of the cores are. -/
theorem landsNow_freePlace (s : State) (c : Nat) (d : Desc) (a n : Nat) : landsNow (freePlace s c none d) a n = landsNow s a n := by
  unfold landsNow freePlace
  split
  · rw [core_modCore]
    split <;> rfl
  · rfl

theorem ErrorFree.freePlace {s : State} (h : ErrorFree s) (c : Nat) (d : Desc) : ErrorFree (freePlace s c none d) := h

/-- The state in which an accepted row job is tried, where no error stands. -/
def jobAccepted (s : State) (c : Nat) (d : Desc) : State :=
  { freePlace s c none d with rowJobs := s.rowJobs ++ [rowJobOf s c d] }

/-- A row descriptor without fault runs at once where its records are there, its fence is met and nothing holds its writes. -/
theorem rowDesc_runs {s : State} {c k : Nat} {d : Desc} {t : TableDesc} (h : arrives s c none d false = true)
    (hres : rowReserved k d = false) (ht : tableOf s (dTable d) = some t) (hs : ErrorFree s)
    (hfault : rowFault (freePlace s c none d) k t d = 0) (hthere : (absentOf s t (jobRows s t (rowJobOf s c d))).2 = [])
    (hexport : k = 4 → (d.w0.getLsbD 45 = true → applyDone s (dTable d) (d.w4.extractLsb' 0 32) = true) ∧
      landsNow s (exportRange s t d).1 (exportRange s t d).2 = true)
    (himport : ((importedRows s t (rowJobOf s c d)).any fun l => fetching s (dTable d) l) = false) :
    let u := jobAccepted s c d
    rowDesc k c d false s =
      withJobs (runRowJob u t (rowJobOf s c d)) (jobRan (runRowJob u t (rowJobOf s c d)).rowJobs (rowJobOf s c d)) := by
  intro u
  have hu : ErrorFree u := hs
  have hthere' : (absentOf u t (jobRows u t (rowJobOf s c d))).2 = [] := by
    rw [hu.absentOf_eq]
    rw [hs.absentOf_eq] at hthere
    exact hthere
  have hexport' : fld d.w0 0 4 = 4 → (d.w0.getLsbD 45 = true → applyDone u (dTable d) (d.w4.extractLsb' 0 32) = true) ∧
      landsNow u (exportRange u t d).1 (exportRange u t d).2 = true := fun hk => by
    obtain ⟨hfence, hlands⟩ := hexport ((kind_of_not_rowReserved hres).symm.trans hk)
    exact ⟨hfence, (landsNow_freePlace s c d _ _).trans hlands⟩
  have hlist : fetchList (freePlace s c none d) t d = freePlace s c none d := (hs.freePlace c d).fetchList t d
  rw [rowDesc_known h hres ht, hlist, if_neg (not_not.2 hfault)]
  exact tryRowJob_runs hu ht rfl hthere' hexport' himport

/-- An accepted job is marked as run in the list that it joins. -/
theorem mem_jobRan_append (l : List RowJob) (j : RowJob) : { j with ran := true } ∈ jobRan (l ++ [j]) j := by
  refine List.mem_map.2 ⟨j, List.mem_append_right _ (List.mem_singleton_self j), if_pos rfl⟩

/-- A job in the list before a try is there after it, but for its mark. -/
theorem exists_mem_jobRan {l : List RowJob} {j : RowJob} (h : j ∈ l) (hran : j.ran = false) :
    ∃ x ∈ jobRan l j, { x with ran := false } = j := by
  refine ⟨_, List.mem_map_of_mem h, ?_⟩
  rw [if_pos rfl]
  cases j
  cases hran
  rfl

/-- An accepted job is in the list after it has been tried. -/
theorem exists_mem_tryRowJob (s : State) (j : RowJob) (hj : j ∈ s.rowJobs) (hran : j.ran = false) :
    ∃ x ∈ (tryRowJob s j).rowJobs, { x with ran := false } = j := by
  obtain ⟨hjobs | hjobs, -⟩ := tryRowJob_keeps s j
  · rw [hjobs]
    refine ⟨j, hj, ?_⟩
    cases j
    cases hran
    rfl
  · rw [hjobs]
    exact exists_mem_jobRan hj hran

/-! ### Completion (R262, R265) -/

/-- An increment of a token counter changes its core, and writes at most a record. -/
theorem addToken_state (s : State) (c t n : Nat) : s.addToken c t n = { s with
    cores := (s.addToken c t n).cores, errRing := (s.addToken c t n).errRing, rseq := (s.addToken c t n).rseq
    fresh := (s.addToken c t n).fresh } := by
  unfold State.addToken
  dsimp only
  split
  · split
    · rfl
    · unfold State.haltCore
      dsimp only
      split <;> rfl
  · rfl

/-- A job that has run completes: it leaves the list, and its token is added. -/
theorem rowComplete_ran {s : State} {j : RowJob} {id : BitVec 16} {tok : BitVec 6} {c : Nat}
    (hj : (s.rowJobs.find? fun j => j.descId == id && j.tok == tok && j.core == c) = some j) (hran : j.ran = true) :
    rowComplete id tok c s = { s with rowJobs := s.rowJobs.erase j }.addToken c tok.toNat 1 := by
  have htry : tryRowJob s j = s := by
    unfold tryRowJob
    split
    · rfl
    · rw [if_pos hran]
  unfold rowComplete
  dsimp only
  rw [hj]
  dsimp only
  rw [htry, hj]
  dsimp only
  rw [if_pos hran]

/-- Settles O36: a descriptor by what its unit finds, an accepted job by its kind. -/
theorem rowDescriptors : Obligations.RowDescriptors := by
  unfold Obligations.RowDescriptors
  refine ⟨?_, ?_⟩
  · intro s c d psn kind i k freed recorded hi hlive hgo harrives
    have hexec : exec i s = .next (rowDesc k c d psn s) := by
      subst hi
      show _ = Host.Outcome.next (rowDesc (kind.val + 2) c d psn s)
      match kind with
      | 0 => exact congrArg Host.Outcome.next (if_runs hlive hgo (rowDesc 2 c d psn s))
      | 1 => exact congrArg Host.Outcome.next (if_runs hlive hgo (rowDesc 3 c d psn s))
      | 2 => exact congrArg Host.Outcome.next (if_runs hlive hgo (rowDesc 4 c d psn s))
    have hfreed : freed (freePlace s c none d) := freed_freePlace s c d
    refine ⟨fun hpsn => ?_, fun hpsn hres => ?_, fun tab hpsn hres htab => ?_⟩
    · subst hpsn
      rw [hexec, rowDesc_poisoned harrives]
      exact ⟨_, rfl, hfreed, rfl, _, rfl, rfl, rfl, rfl⟩
    · subst hpsn
      rw [hexec, rowDesc_reserved harrives hres]
      have hframe := FaultFrame.teaselFault (freePlace s c none d) (c / 8) 0x02 (opidDesc (dId d) (descPlace s c none d).step)
      refine ⟨_, rfl, ?_, ?_, _, teaselFault_errRing _ _ _ _, rfl, rfl, rfl⟩
      · rw [hframe.state]
        exact hfreed
      · rw [hframe.state]
        rfl
    · subst hpsn
      intro s1 j
      have hs1 : StoreFrame (freePlace s c none d) s1 := StoreFrame.fetchList _ tab d
      have hfreed1 : freed s1 := by
        rw [hs1.eq]
        exact hfreed
      have hjobs1 : s1.rowJobs = s.rowJobs := by
        rw [hs1.eq]
        rfl
      have hknown := rowDesc_known harrives hres htab
      refine ⟨fun hfault => ?_, fun hok => ?_, fun hok hs hthere hexport himport => ?_⟩
      · rw [hexec, hknown, if_pos hfault]
        have hframe := FaultFrame.teaselFault s1 (c / 8) (rowFault s1 k tab d) (opidDesc (dId d) (descPlace s c none d).step)
        refine ⟨_, _, rfl, ?_, ?_, teaselFault_errRing _ _ _ _, rfl⟩
        · rw [hframe.state]
          exact hfreed1
        · rw [hframe.state]
          exact hjobs1
      · rw [hexec, hknown, if_neg (not_not.2 hok)]
        have hmem : j ∈ s1.rowJobs ++ [j] := List.mem_append_right _ (List.mem_singleton_self j)
        exact ⟨_, rfl, ((tryRowJob_keeps { s1 with rowJobs := s1.rowJobs ++ [j] } j).2 c).trans hfreed1,
          exists_mem_tryRowJob { s1 with rowJobs := s1.rowJobs ++ [j] } j hmem rfl⟩
      · have hlist : s1 = freePlace s c none d := (hs.freePlace c d).fetchList tab d
        rw [hlist] at hok
        have hu : ErrorFree (jobAccepted s c d) := hs
        obtain ⟨hrun, hdescs⟩ := RowFrame.runRowJob (jobAccepted s c d) tab (rowJobOf s c d)
        have hkind : fld d.w0 0 4 = k := kind_of_not_rowReserved hres
        rw [hexec, rowDesc_runs harrives hres htab hs hok hthere hexport himport]
        refine ⟨_, rfl, (hdescs c).trans hfreed, ?_, (KeepsRing.runRowJob _ tab j hu).2, fun hk l hrows hmode h0 h1 => ?_,
          fun hk hcount => ?_, fun hk r hrows n hn => ?_⟩
        · rw [withJobs_rowJobs, hrun]
          exact mem_jobRan_append s.rowJobs (rowJobOf s c d)
        · intro a set v hon hfew hroom
          simp only [withJobs_hotWay, withJobs_vault]
          exact runRowJob_pin (jobAccepted s c d) tab j l hu (hkind.trans hk) hmode hrows h0 h1 hon hfew hroom
        · intro l hend hbelow hbit
          simp only [withJobs_present, withJobs_byte]
          exact runRowJob_import (jobAccepted s c d) tab j l hu (hkind.trans hk) hcount rfl hend hbit
        · rw [withJobs_byte]
          exact runRowJob_export (jobAccepted s c d) tab j r hu (hkind.trans hk) hrows
            ((landsNow_freePlace s c d _ _).trans (hexport hk).2) n hn
  · intro s j tok dc id hlive hgo hj hran
    refine ⟨rowComplete id tok dc s, congrArg Host.Outcome.next (if_runs hlive hgo _), ?_, fun hroom => ?_⟩
    · rw [rowComplete_ran hj hran, addToken_state]
    · rw [rowComplete_ran hj hran]
      exact (addToken_adds { s with rowJobs := s.rowJobs.erase j } dc tok.toNat 1 hroom).1

end Sys2Proof.Machine

/-! ## The outputs of a lookup (O34) -/

namespace Sys2Proof.Machine

/-! ### Lookups by their identity (R242) -/

/-- The lookup of an identity after a change that keeps its identity. -/
theorem lookupOf_modLookup (s : State) (batch : BitVec 32) (descId : BitVec 16) (f : Lookup → Lookup)
    (hf : ∀ l, (f l).isFor batch descId = l.isFor batch descId) :
    lookupOf (modLookup s batch descId f) batch descId = (lookupOf s batch descId).map f := by
  unfold lookupOf modLookup
  dsimp only
  rw [List.find?_map]
  have hsame : ((fun l : Lookup => l.isFor batch descId) ∘ fun l => if l.isFor batch descId then f l else l) = fun l => l.isFor batch descId := by
    funext l
    rw [Function.comp_apply]
    split
    · exact hf l
    · rfl
  rw [hsame]
  cases hl : s.lookups.find? fun l => l.isFor batch descId with
  | none => rfl
  | some l =>
    have hid : l.isFor batch descId = true := List.find?_some (p := fun l : Lookup => l.isFor batch descId) hl
    rw [Option.map_some, Option.map_some, if_pos hid]

/-! ### The writes of the outputs (R250) -/

/-- Writes to ranges in rising order that all may take effect at once. -/
theorem outsideStores_written (place : Nat → Nat) (data : Nat → List PByte) (n : Nat) (s : State) (hs : ErrorFree s)
    (hlands : ∀ g < n, landsNow s (place g) (data g).length = true)
    (hapart : ∀ g h, g < h → h < n → place g + (data g).length ≤ place h) :
    let t := (List.range n).foldl (fun u g => outsideStore u (place g) (data g)) s
    CleanWrites (fun _ => True) s t ∧ ∀ g < n, ∀ i, ∀ h : i < (data g).length, t.byte (place g + i) = (data g)[i].1 := by
  induction n with
  | zero => exact ⟨CleanWrites.refl _ s, fun g hg => absurd hg (Nat.not_lt_zero g)⟩
  | succ n ih =>
    intro t
    obtain ⟨hwrites, hbytes⟩ := ih (fun g hg => hlands g (by omega)) fun g h hgh hh => hapart g h hgh (by omega)
    generalize hu : (List.range n).foldl (fun u g => outsideStore u (place g) (data g)) s = u at hwrites hbytes
    have ht : t = outsideStore u (place n) (data n) := by
      show (List.range (n + 1)).foldl _ s = _
      rw [List.range_succ, List.foldl_append, hu]
      rfl
    have hnow : landsNow u (place n) (data n).length = true := by
      rw [landsNow_congr (by rw [hwrites.state hs]) _ _]
      exact hlands n (Nat.lt_succ_self n)
    have hlast := CleanWrites.outsideStore hnow
    rw [ht]
    refine ⟨hwrites.trans (hlast.mono fun _ _ => trivial), fun g hg i hi => ?_⟩
    by_cases hgn : g = n
    · subst hgn
      exact outsideStore_byte hnow i hi
    · have := hapart g n (by omega) (Nat.lt_succ_self n)
      rw [hlast.byte (hwrites.errorFree hs) (by omega)]
      exact hbytes g (by omega) i hi

/-- The counts of the conversions change nothing that a write waits for. -/
theorem landsNow_countOutputs (s : State) (t : TableDesc) (l : Lookup) (x : Part) (a n : Nat) :
    landsNow (countOutputs s t l x) a n = landsNow s a n := by
  unfold landsNow countOutputs
  split
  · rw [core_modCore]
    split <;> rfl
  · rfl

theorem token_countOutputs (s : State) (t : TableDesc) (l : Lookup) (x : Part) (c i : Nat) :
    ((countOutputs s t l x).core c).token i = (s.core c).token i := by
  unfold countOutputs
  rw [core_modCore]
  split <;> rfl

/-- The state with every output of a lookup written. -/
def outputsWritten (s : State) (t : TableDesc) (l : Lookup) (x : Part) : State :=
  (List.range (lOutputs l.desc x)).foldl (fun u g => outsideStore u (lDst l.desc + g * lPitch l.desc)
    (marked ((recordsFor l g).any fun r => r.psn.any id) (outputBytes s t l x g))) (countOutputs s t l x)

theorem lookupComplete_ready {s : State} {l : Lookup} {t : TableDesc} (hl : lookupOf s l.batch l.descId = some l)
    (ht : tableOf s (dTable l.desc) = some t) (hopen : l.closed = false) (hcame : l.waiting = [])
    (hlands : ∀ g < lOutputs l.desc (partOf s l.desc), landsNow s (lDst l.desc + g * lPitch l.desc) (lVector t l.desc) = true) :
    lookupComplete l.batch l.descId s = onward ((modLookup (outputsWritten s t l (partOf s l.desc)) l.batch l.descId fun l =>
      { l with outDone := true, closed := true }).addToken (lCore l.desc) (lTok l.desc) 1) := by
  have hall : ((List.range (lOutputs l.desc (partOf s l.desc))).all fun g =>
      landsNow s (lDst l.desc + g * lPitch l.desc) (lVector t l.desc)) = true :=
    List.all_eq_true.2 fun g hg => hlands g (List.mem_range.1 hg)
  unfold lookupComplete
  rw [hl]
  dsimp only
  rw [ht]
  dsimp only
  rw [hopen, hcame, hall]
  rfl

theorem length_marked (p : Bool) (bs : List Byte) : (marked p bs).length = bs.length := List.length_map ..

/-- Settles O34: the outputs do not meet, so each write leaves the earlier ones; the token is added to the core that s has. -/
theorem lookupOutputs : Obligations.LookupOutputs := by
  unfold Obligations.LookupOutputs
  intro s l tab x place hlive hgo hwaits hs hl htab hopen hcame hpitch hout
  let data := fun g => marked ((recordsFor l g).any fun r => r.psn.any id) (outputBytes s tab l x g)
  have hlen : ∀ g < lOutputs l.desc x, (data g).length = lVector tab l.desc := fun g hg =>
    (length_marked _ _).trans (hout g hg).1
  have hs0 : ErrorFree (countOutputs s tab l x) := hs
  obtain ⟨hwrites, hbytes⟩ := outsideStores_written place data (lOutputs l.desc x) (countOutputs s tab l x) hs0
    (fun g hg => by rw [landsNow_countOutputs, hlen g hg]; exact (hout g hg).2)
    (fun g h hgh hh => by
      rw [hlen g (by omega)]
      have hstep : (g + 1) * lPitch l.desc ≤ h * lPitch l.desc := Nat.mul_le_mul_right _ hgh
      rw [Nat.succ_mul] at hstep
      show lDst l.desc + g * lPitch l.desc + lVector tab l.desc ≤ lDst l.desc + h * lPitch l.desc
      omega)
  change CleanWrites _ _ (outputsWritten s tab l x) at hwrites
  change ∀ g < _, ∀ i, ∀ h, (outputsWritten s tab l x).byte _ = _ at hbytes
  have hdone := lookupComplete_ready hl htab hopen hcame fun g hg => (hout g hg).2
  have hstate := hwrites.state hs0
  generalize outputsWritten s tab l x = u at hwrites hbytes hstate hdone
  let closed := modLookup u l.batch l.descId fun l => { l with outDone := true, closed := true }
  have hidle : NothingWaits (closed.addToken (lCore l.desc) (lTok l.desc) 1) := by
    rw [addToken_state]
    show NothingWaits u
    rw [hstate]
    exact hwaits
  have htoken : (u.core (lCore l.desc)).token (lTok l.desc) = (s.core (lCore l.desc)).token (lTok l.desc) := by
    rw [hstate]
    exact token_countOutputs s tab l x _ _
  refine ⟨closed.addToken (lCore l.desc) (lTok l.desc) 1, ?_, fun g hg i hi => ?_, ?_, fun hroom => ?_⟩
  · refine (congrArg Host.Outcome.next (if_runs hlive hgo (lookupComplete l.batch l.descId s))).trans (congrArg Host.Outcome.next ?_)
    rw [hdone]
    exact onward_idle hidle
  · have hbyte := hbytes g hg i ((length_marked _ _).symm ▸ hi)
    rw [State.byte, addToken_mem]
    exact hbyte.trans (by simp [data, marked])
  · have hlookup : lookupOf u l.batch l.descId = some l := by
      rw [hstate]
      exact hl
    rw [addToken_state]
    show lookupOf closed l.batch l.descId = _
    rw [lookupOf_modLookup, hlookup]
    · rfl
    · exact fun _ => rfl
  · have hadds := (addToken_adds closed (lCore l.desc) (lTok l.desc) 1 (by
      show ((u.core (lCore l.desc)).token (lTok l.desc)).toNat + 1 < 2 ^ 32
      rw [htoken]
      exact hroom)).1
    refine BitVec.eq_of_toNat_eq (hadds.trans ?_)
    show ((u.core (lCore l.desc)).token (lTok l.desc)).toNat + 1 = _
    rw [htoken, BitVec.toNat_add]
    exact (Nat.mod_eq_of_lt hroom).symm

end Sys2Proof.Machine

/-! ## Lookups, their counts, payloads and responses (O33) -/

namespace Sys2Proof.Machine

/-! ### Messages on the fabric (R320, R330, R331) -/

/-- State t is s but for its ports, what has left it, the inboxes and what waits for them: what the sending of messages can change. The lemmas
of the namespace say it of each step of it. -/
def FabricFrame (s t : State) : Prop :=
  t = { s with ports := t.ports, fabOut := t.fabOut, inbox := t.inbox, outWait := t.outWait }

namespace FabricFrame

theorem refl (s : State) : FabricFrame s s := rfl

theorem eq {s t : State} (h : FabricFrame s t) :
    t = { s with ports := t.ports, fabOut := t.fabOut, inbox := t.inbox, outWait := t.outWait } := h

theorem trans {s t u : State} (h : FabricFrame s t) (h' : FabricFrame t u) : FabricFrame s u := by
  unfold FabricFrame at h'
  rw [h] at h'
  exact h'

theorem foldl {β : Type} (f : State → β → State) (hf : ∀ s x, FabricFrame s (f s x)) (l : List β) (s : State) :
    FabricFrame s (l.foldl f s) := foldl_rel refl trans f hf l s

theorem modPort (s : State) (p : Nat) (f : Port → Port) : FabricFrame s (s.modPort p f) := rfl

theorem inbox (s : State) (m : SMap Nat) : FabricFrame s { s with inbox := m } := rfl

theorem wire (s : State) (p : Nat) (m : OutMsg) : FabricFrame s (wire s p m) := rfl

theorem takeCredits (s : State) (p key : Nat) (m : OutMsg) : FabricFrame s (takeCredits s p key m) := by
  unfold Machine.takeCredits
  split <;> rfl

theorem shipOn (s : State) (p : Nat) (dl : Bool) (m : OutMsg) : FabricFrame s (shipOn s p dl m) := by
  unfold Machine.shipOn
  dsimp only
  split
  · exact (takeCredits s _ _ _).trans (wire _ _ _)
  · exact modPort s _ _

theorem ship (s : State) (m : OutMsg) : FabricFrame s (ship s m) := by
  unfold Machine.ship
  split
  · exact shipOn s _ _ m
  · rfl

theorem shipAll (s : State) (l : List OutMsg) : FabricFrame s (shipAll s l) := foldl _ ship l s

theorem intoInbox (s : State) (dst n : Nat) (m : OutMsg) : FabricFrame s (intoInbox s dst n m) := (inbox s _).trans (ship _ m)

theorem sendMsg (s : State) (dst n : Nat) (m : OutMsg) : FabricFrame s (sendMsg s dst n m) := by
  unfold Machine.sendMsg
  split
  · exact intoInbox s dst n m
  · rfl

theorem releaseTo (s : State) (src n : Nat) : FabricFrame s (releaseTo s src n) := by
  unfold Machine.releaseTo
  split
  · exact refl s
  · exact ship s _

end FabricFrame

/-! ### LOOKUP (R240 to R243) -/

/-- The faults of a lookup are those of R241. -/
theorem lookupFault_cases (s : State) (d : Desc) : lookupFault s d = 0 ∨ lookupFault s d = 0x32 ∨ lookupFault s d = 0x33 := by
  unfold lookupFault
  split
  · dsimp only
    split
    · exact Or.inr (Or.inl rfl)
    · split
      · exact Or.inr (Or.inr rfl)
      · split
        · exact Or.inr (Or.inl rfl)
        · exact Or.inl rfl
  · exact Or.inr (Or.inl rfl)

/-- A fault of R266 is counted in DESC_FLT. -/
theorem teaselFault_descFlt (s : State) (unit code : Nat) (op : Word) (h : 0x30 ≤ code ∧ code ≤ 0x39) :
    ((teaselFault s unit code op).teasel unit).descFlt = satAdd 16 (s.teasel unit).descFlt 1 := by
  unfold teaselFault
  dsimp only
  rw [if_pos h, teasel_modTeasel_self]
  rfl

/-- The state with a lookup's count round sent: the device's own count is kept, each other leaves for its owner. -/
def sendCounts (s : State) (counts : List CountMsg) : State :=
  counts.foldl (fun s m => if m.owner = s.rank then { s with counts := s.counts ++ [m] } else sendMsg s m.owner 64 (.count m.owner m)) s

/-- The count round changes the kept counts and what the sending of messages changes. -/
theorem sendCounts_state (s : State) (l : List CountMsg) : sendCounts s l = { s with
    ports := (sendCounts s l).ports, fabOut := (sendCounts s l).fabOut, inbox := (sendCounts s l).inbox
    outWait := (sendCounts s l).outWait, counts := (sendCounts s l).counts } := by
  refine foldl_rel (R := fun s t : State => t = { s with
    ports := t.ports, fabOut := t.fabOut, inbox := t.inbox, outWait := t.outWait, counts := t.counts })
    (fun _ => rfl) (fun h h' => ?_) _ (fun t m => ?_) l s
  · rw [h] at h'
    exact h'
  · split
    · rfl
    · rw [(FabricFrame.sendMsg t m.owner 64 (.count m.owner m)).eq]

/-- The lookup that a descriptor opens: it waits for every owner with unique rows of its part. -/
def openedLookup (s : State) (c : Nat) (d : Desc) (t : TableDesc) : Lookup :=
  { descId := dId d, batch := lBatch d, desc := d, core := c, unit := lFeature d % 4,
    waiting := (ownersOf s t).filter fun o => uniqueRows s t (partOf s d) o != []
    granted := [], resps := [], outDone := false, closed := false }

/-- The owners that a lookup's counts ask for a payload. -/
theorem waiting_of_counts (s : State) (t : TableDesc) (d : Desc) (owners : List Nat) :
    ((owners.map fun o => countFor s t d o).filter fun m => m.u != 0).map (·.owner) =
      owners.filter fun o => uniqueRows s t (partOf s d) o != [] := by
  induction owners with
  | nil => rfl
  | cons o os ih =>
    have hrows : ((countFor s t d o).u != 0) = (uniqueRows s t (partOf s d) o != []) := by
      show ((uniqueRows s t (partOf s d) o).length != 0) = _
      cases uniqueRows s t (partOf s d) o <;> rfl
    rw [List.map_cons, List.filter_cons, List.filter_cons, hrows]
    split
    · rw [List.map_cons, ih]
      rfl
    · exact ih

theorem startLookup_opens {s : State} {c : Nat} {d : Desc} {t : TableDesc} (hok : lookupFault s d = 0) (ht : tableOf s (dTable d) = some t) :
    startLookup s c d = sendCounts { s with lookups := s.lookups ++ [openedLookup s c d t] } ((ownersOf s t).map fun o => countFor s t d o) := by
  unfold startLookup openedLookup
  dsimp only
  rw [if_neg (not_not.2 hok), ht, ← waiting_of_counts]
  rfl

section
variable {s : State} {c : Nat} {d : Desc}

/-- What a lookup reads, the lookups that are open and what waits are the same once its place is free. -/
theorem freePlace_lookups (s : State) (c : Nat) (d : Desc) (u : Nat) :
    lookupFault (freePlace s c none d) d = lookupFault s d ∧ openLookups (freePlace s c none d) u = openLookups s u := ⟨rfl, rfl⟩

theorem lookupDesc_poisoned (h : arrives s c none d true = true) : lookupDesc c d true s = biteDesc s c (c / 8) d := by
  unfold lookupDesc
  rw [if_neg (by simp [h]), if_pos rfl]

theorem lookupDesc_reserved (h : arrives s c none d false = true) (hres : lookupReserved d = true) :
    lookupDesc c d false s = teaselFault (freePlace s c none d) (c / 8) 0x02 (opidDesc (dId d) (lBatch d)) := by
  unfold lookupDesc
  rw [if_neg (by simp [h]), if_neg (by decide)]
  dsimp only
  rw [if_pos hres]

theorem lookupDesc_forwarded (h : arrives s c none d false = true) (hres : lookupReserved d = false) :
    lookupDesc c d false s = onward (arriveLookup (freePlace s c none d) c d) := by
  unfold lookupDesc
  rw [if_neg (by simp [h]), if_neg (by decide)]
  dsimp only
  rw [if_neg (by simp [hres])]

/-- A lookup with a fault leaves its place and no lookup, and its unit records it. -/
theorem lookupDesc_refused (h : arrives s c none d false = true) (hres : lookupReserved d = false) (hwaits : NothingWaits s)
    (hroom : openLookups s (lFeature d % 4) < 64) (hfault : lookupFault s d ≠ 0) :
    lookupDesc c d false s = teaselFault (freePlace s c none d) (lFeature d % 4) (lookupFault s d) (opidDesc (dId d) (lBatch d)) := by
  have hstart : arriveLookup (freePlace s c none d) c d =
      teaselFault (freePlace s c none d) (lFeature d % 4) (lookupFault s d) (opidDesc (dId d) (lBatch d)) := by
    unfold arriveLookup startLookup
    dsimp only
    rw [(freePlace_lookups s c d _).2, if_pos hroom, (freePlace_lookups s c d 0).1, if_pos hfault]
  rw [lookupDesc_forwarded h hres, hstart]
  refine onward_idle ?_
  rw [(FaultFrame.teaselFault _ _ _ _).state]
  exact hwaits

/-- A reserved encoding at the core's unit and a fault at the lookup's are recorded alike. -/
theorem lookupDesc_recorded (h : arrives s c none d false = true) (hwaits : NothingWaits s)
    (hroom : lookupReserved d = false → openLookups s (lFeature d % 4) < 64)
    (hcode : (if lookupReserved d then 0x02 else lookupFault s d) ≠ 0) :
    ∃ op, lookupDesc c d false s = teaselFault (freePlace s c none d) (if lookupReserved d then c / 8 else lFeature d % 4)
      (if lookupReserved d then 0x02 else lookupFault s d) op := by
  cases hres : lookupReserved d with
  | true => exact ⟨_, lookupDesc_reserved h hres⟩
  | false =>
    rw [hres] at hcode
    exact ⟨_, lookupDesc_refused h hres hwaits (hroom hres) hcode⟩

/-- A lookup without fault whose unit has a place opens. -/
theorem lookupDesc_opens {t : TableDesc} (h : arrives s c none d false = true) (hres : lookupReserved d = false) (hwaits : NothingWaits s)
    (hroom : openLookups s (lFeature d % 4) < 64) (hok : lookupFault s d = 0) (ht : tableOf s (dTable d) = some t) :
    lookupDesc c d false s = sendCounts { freePlace s c none d with lookups := s.lookups ++ [openedLookup s c d t] }
      ((ownersOf s t).map fun o => countFor s t d o) := by
  have hstart : arriveLookup (freePlace s c none d) c d = sendCounts { freePlace s c none d with lookups := s.lookups ++ [openedLookup s c d t] }
      ((ownersOf s t).map fun o => countFor s t d o) := by
    unfold arriveLookup
    rw [(freePlace_lookups s c d _).2, if_pos hroom]
    exact startLookup_opens (s := freePlace s c none d) hok ht
  rw [lookupDesc_forwarded h hres, hstart]
  refine onward_idle ?_
  rw [sendCounts_state]
  exact hwaits

/-- A lookup whose unit is full waits for a place. -/
theorem lookupDesc_waits (h : arrives s c none d false = true) (hres : lookupReserved d = false) (hwaits : NothingWaits s)
    (hfull : 64 ≤ openLookups s (lFeature d % 4)) :
    lookupDesc c d false s = { freePlace s c none d with lookupQueue := [⟨c, d, (descPlace (freePlace s c none d) c none d).cycle⟩] } := by
  obtain ⟨hqueue, hpayloads, htags⟩ := hwaits
  have hqueue' : (freePlace s c none d).lookupQueue = [] := hqueue
  rw [lookupDesc_forwarded h hres]
  unfold arriveLookup
  rw [(freePlace_lookups s c d _).2, if_neg (Nat.not_lt.2 hfull), hqueue', List.nil_append]
  refine onward_full (fun w hw => ?_) hpayloads htags
  obtain rfl := List.mem_singleton.1 hw
  exact hfull

end

/-! ### COUNT_MESSAGE (R243, R244) -/

section
variable {s : State} {m : CountMsg}

/-- Where a payload lands. -/
def landingOf (m : CountMsg) : Landing :=
  ⟨m.requester, 64 + 8 * m.u + 12 * m.p, .lookupPayload m.requester m.batch m.descId, false, false⟩

/-- A count of no row is kept. -/
theorem countMessage_none (howner : m.owner = s.rank) (ht : (tableOf s m.table).isSome = true)
    (hnew : (s.counts.any fun x => x.requester == m.requester && x.descId == m.descId && x.batch == m.batch) = false) (hu : m.u = 0) :
    countMessage m s = releaseTo { s with counts := s.counts ++ [m] } m.requester 64 := by
  have hgo : ¬ (m.owner ≠ s.rank ∨ (tableOf s m.table).isNone ∨
      s.counts.any (fun x => x.requester == m.requester && x.descId == m.descId && x.batch == m.batch)) := by
    simp [howner, Option.isSome_iff_ne_none.1 ht, hnew]
  unfold countMessage
  rw [if_neg hgo]
  dsimp only
  rw [if_pos hu]

/-- A count of rows takes the lowest free tag, or waits for one. -/
theorem countMessage_some (howner : m.owner = s.rank) (ht : (tableOf s m.table).isSome = true)
    (hnew : (s.counts.any fun x => x.requester == m.requester && x.descId == m.descId && x.batch == m.batch) = false) (hu : m.u ≠ 0) :
    countMessage m s = match freeTag s with
      | some tag => releaseTo (ship { s with landings := mset none s.landings tag (some (landingOf m)), counts := s.counts ++ [m] }
          (.grant m.requester ⟨s.rank, tag, (landingOf m).size, true, m.batch, m.descId⟩)) m.requester 64
      | none => { s with tagWait := s.tagWait ++ [.count m] } := by
  have hgo : ¬ (m.owner ≠ s.rank ∨ (tableOf s m.table).isNone ∨
      s.counts.any (fun x => x.requester == m.requester && x.descId == m.descId && x.batch == m.batch)) := by
    simp [howner, Option.isSome_iff_ne_none.1 ht, hnew]
  unfold countMessage reserve
  rw [if_neg hgo]
  dsimp only
  rw [if_neg hu]
  cases freeTag s <;> rfl

end
end Sys2Proof.Machine

/-! ### LOOKUP_PAYLOAD (R246, R248, R249) -/

namespace Sys2Proof.Machine

/-- A device's rank, and what its lookups are, after the reads and writes of the stores. -/
theorem StoreFrame.lookups {s t : State} (h : StoreFrame s t) : t.rank = s.rank ∧ t.lookups = s.lookups ∧ t.payloads = s.payloads ∧
    t.fabOut = s.fabOut ∧ (NothingWaits s → NothingWaits t) := by
  rw [h.eq]
  exact ⟨rfl, rfl, rfl, rfl, id⟩

/-- A payload that has come, agrees with its count, meets its fence and finds its records is served. -/
theorem payloadArrives_served {s : State} {m : PayloadMsg} {cnt : CountMsg} {l : Lookup} {t : TableDesc} (e : Nat)
    (hpayloads : s.waitingPayloads = [])
    (hcnt : s.counts.find? (fun c => c.requester == m.requester && c.descId == m.descId && c.batch == m.batch) = some cnt)
    (hl : lookupOf s m.batch m.descId = some l) (ht : tableOf s cnt.table = some t)
    (hnew : (s.payloads.any fun x => x.requester == m.requester && x.descId == m.descId && x.batch == m.batch) = false)
    (hok : payloadOk t m cnt = true) (hfence : fenceState s l.desc = 0) (hthere : (absentOf s t m.rows).2 = []) :
    payloadArrives s m e .none = servePayload (absentOf s t m.rows).1 t l m e .none := by
  have hsame : { s with waitingPayloads := s.waitingPayloads.filter fun x =>
      !(x.msg.requester == m.requester && x.msg.descId == m.descId && x.msg.batch == m.batch) } = s := by
    rw [hpayloads, List.filter_nil, ← hpayloads]
  unfold payloadArrives
  extract_lets same wait s'
  have hs' : s' = s := hsame
  rw [hs', hcnt]
  dsimp only
  rw [hl, ht]
  dsimp only
  rw [if_neg (by simp [same, hnew]), if_neg (by simp [hok]), hfence, if_neg (by decide), if_neg (by decide), hthere, if_neg (by decide)]

/-- The lookup of an identity has it. -/
theorem isFor_of_lookupOf {s : State} {batch : BitVec 32} {descId : BitVec 16} {l : Lookup} (h : lookupOf s batch descId = some l) :
    batch = l.batch ∧ descId = l.descId := by
  have hid : l.isFor batch descId = true := List.find?_some (p := fun l : Lookup => l.isFor batch descId) h
  simp only [Lookup.isFor, Bool.and_eq_true, beq_iff_eq] at hid
  exact ⟨hid.1.symm, hid.2.symm⟩

/-- The payload that an owner serves: for its own lookup the one that it forms itself. -/
def payloadGot (s : State) (t : TableDesc) (l : Lookup) (p : PayloadMsg) : PayloadMsg :=
  if p.requester = s.rank then payloadFor s t (partOf s l.desc) l.descId l.batch s.rank (lPool l.desc == 2) else p

theorem lookupPayload_got {s : State} {p : PayloadMsg} {l : Lookup} {t : TableDesc} (e : Nat) (hl : lookupOf s p.batch p.descId = some l)
    (ht : tableOf s (dTable l.desc) = some t) (hown : p.requester = s.rank → l.closed = false ∧ l.waiting.contains s.rank = true) :
    lookupPayload p e .none s = onward (payloadArrives s (payloadGot s t l p) e .none) := by
  unfold lookupPayload payloadGot
  rw [hl]
  dsimp only
  rw [ht]
  dsimp only
  by_cases hrank : p.requester = s.rank
  · obtain ⟨hopen, hwaits⟩ := hown hrank
    rw [if_pos hrank, if_pos hrank, if_neg (by simp only [hopen, hwaits]; decide)]
    dsimp only
    rw [if_neg (by decide)]
  · rw [if_neg hrank, if_neg hrank]
    dsimp only
    rw [if_neg (by decide)]

/-- The payload that is served names the lookup of the one that came. -/
theorem payloadGot_identity {s : State} {p : PayloadMsg} {l : Lookup} (t : TableDesc) (hl : lookupOf s p.batch p.descId = some l) :
    (payloadGot s t l p).requester = p.requester ∧ (payloadGot s t l p).batch = p.batch ∧ (payloadGot s t l p).descId = p.descId := by
  obtain ⟨hbatch, hdesc⟩ := isFor_of_lookupOf hl
  unfold payloadGot
  split
  case isTrue h => exact ⟨h.symm, hbatch.symm, hdesc.symm⟩
  case isFalse => exact ⟨rfl, rfl, rfl⟩

/-- The records of a served payload. -/
def servedRecords (s : State) (t : TableDesc) (l : Lookup) (m : PayloadMsg) : List RespRecord :=
  (poolPayload t l.desc m (readRows s t m.rows).2 false).1

/-- The state of an owner that has read a payload's rows, counted the saturations of its partials and freed its landing space. -/
def payloadKept (v : State) (m : PayloadMsg) (e sat : Nat) : State :=
  freeLanding { countEngine v e sat 0 with payloads := v.payloads ++ [m] } (.lookupPayload m.requester m.batch m.descId)

theorem payloadKept_keeps (v : State) (m : PayloadMsg) (e sat : Nat) :
    (payloadKept v m e sat).rank = v.rank ∧ (payloadKept v m e sat).lookups = v.lookups ∧
      (payloadKept v m e sat).payloads = v.payloads ++ [m] ∧ (payloadKept v m e sat).fabOut = v.fabOut ∧
      (NothingWaits v → NothingWaits (payloadKept v m e sat)) := ⟨rfl, rfl, rfl, rfl, id⟩

/-- The state in which an owner answers a payload. -/
def payloadRead (s : State) (t : TableDesc) (l : Lookup) (m : PayloadMsg) (e : Nat) : State :=
  payloadKept (readRows s t m.rows).1 m e (poolPayload t l.desc m (readRows s t m.rows).2 false).2

/-- What a payload's reads leave of the lookups. -/
theorem payloadRead_keeps (s : State) (t : TableDesc) (l : Lookup) (m : PayloadMsg) (e : Nat) :
    (payloadRead s t l m e).rank = s.rank ∧ (payloadRead s t l m e).lookups = s.lookups ∧
      (payloadRead s t l m e).payloads = s.payloads ++ [m] ∧ (payloadRead s t l m e).fabOut = s.fabOut ∧
      (NothingWaits s → NothingWaits (payloadRead s t l m e)) := by
  obtain ⟨hrank, hlookups, hpayloads, hout, hwaits⟩ := (StoreFrame.readRows s t m.rows).lookups
  obtain ⟨hrank', hlookups', hpayloads', hout', hwaits'⟩ := payloadKept_keeps (readRows s t m.rows).1 m e
    (poolPayload t l.desc m (readRows s t m.rows).2 false).2
  exact ⟨hrank'.trans hrank, hlookups'.trans hlookups, hpayloads'.trans (by rw [hpayloads]), hout'.trans hout, fun h => hwaits' (hwaits h)⟩

/-- The response of a served payload. -/
def servedResponse (s : State) (t : TableDesc) (l : Lookup) (m : PayloadMsg) : RespMsg :=
  ⟨m.descId, m.batch, s.rank, none, lFp32 l.desc && lPool l.desc != 3, servedRecords s t l m⟩

theorem servePayload_eq (s : State) (t : TableDesc) (l : Lookup) (m : PayloadMsg) (e : Nat) :
    servePayload s t l m e .none = respond (payloadRead s t l m e) m.requester (servedResponse s t l m) := by
  unfold servedResponse
  rw [← (payloadRead_keeps s t l m e).1]
  rfl

/-- The records that an owner has returned join a lookup. -/
def Lookup.joined (l : Lookup) (owner : Nat) (records : List RespRecord) : Lookup :=
  { l with waiting := l.waiting.erase owner, resps := l.resps ++ [(owner, records)] }

/-- The device's own response joins its lookup, which waits for it. -/
theorem lookupOf_respond_own {s : State} {l : Lookup} {r : RespMsg} (hl : lookupOf s r.batch r.descId = some l)
    (hwaits : l.waiting.contains s.rank = true) :
    lookupOf (respond s s.rank r) r.batch r.descId = some (l.joined s.rank r.records) := by
  unfold respond
  rw [if_pos rfl, lookupOf_modLookup, hl]
  · rw [Option.map_some, if_pos hwaits]
    rfl
  · intro l
    split <;> rfl

theorem respond_keeps (s : State) (requester : Nat) (r : RespMsg) : (respond s requester r).payloads = s.payloads ∧
    (NothingWaits s → NothingWaits (respond s requester r)) := by
  unfold respond
  split
  · exact ⟨rfl, id⟩
  · rw [(FabricFrame.ship s (.response requester r)).eq]
    exact ⟨rfl, id⟩

/-- A payload served in a state that reads have made: it is kept, and its records join the device's own lookup or leave for the
requester. -/
theorem servePayload_spec {s v : State} (hv : StoreFrame s v) (t : TableDesc) (l : Lookup) (m : PayloadMsg) (e : Nat)
    (hl : lookupOf s m.batch m.descId = some l) :
    (servePayload v t l m e .none).payloads = s.payloads ++ [m] ∧ (NothingWaits s → NothingWaits (servePayload v t l m e .none)) ∧
      (m.requester = s.rank → l.waiting.contains s.rank = true →
        lookupOf (servePayload v t l m e .none) m.batch m.descId = some (l.joined s.rank (servedRecords v t l m))) ∧
      (m.requester ≠ s.rank → (servePayload v t l m e .none).lookups = s.lookups ∧
        ∃ u, u.fabOut = s.fabOut ∧ servePayload v t l m e .none = ship u (.response m.requester
          ⟨m.descId, m.batch, s.rank, none, lFp32 l.desc && lPool l.desc != 3, servedRecords v t l m⟩)) := by
  obtain ⟨hrank, hlookups, hpayloads, hout, hidle⟩ := hv.lookups
  obtain ⟨hrank', hlookups', hpayloads', hout', hidle'⟩ := payloadRead_keeps v t l m e
  obtain ⟨hpayloads'', hidle''⟩ := respond_keeps (payloadRead v t l m e) m.requester (servedResponse v t l m)
  have hresponse : servedResponse v t l m =
      ⟨m.descId, m.batch, s.rank, none, lFp32 l.desc && lPool l.desc != 3, servedRecords v t l m⟩ := by
    unfold servedResponse
    rw [hrank]
  rw [servePayload_eq]
  refine ⟨by rw [hpayloads'', hpayloads', hpayloads], fun h => hidle'' (hidle' (hidle h)), fun hself hwaits => ?_, fun hother => ?_⟩
  · have hlookup : lookupOf (payloadRead v t l m e) m.batch m.descId = some l := by
      unfold lookupOf
      rw [hlookups', hlookups]
      exact hl
    have hown : s.rank = (payloadRead v t l m e).rank := by rw [hrank', hrank]
    rw [hown] at hwaits
    rw [hself, hown]
    exact lookupOf_respond_own (r := servedResponse v t l m) hlookup hwaits
  · have hsent : respond (payloadRead v t l m e) m.requester (servedResponse v t l m) =
        ship (payloadRead v t l m e) (.response m.requester (servedResponse v t l m)) :=
      if_neg (by rw [hrank', hrank]; exact hother)
    rw [hsent, hresponse]
    refine ⟨?_, payloadRead v t l m e, hout'.trans hout, rfl⟩
    rw [(FabricFrame.ship _ _).eq]
    exact hlookups'.trans hlookups

/-! ### LOOKUP_RESPONSE (R246, R250, R253) -/

/-- State t is s but for what the stores and the cores hold, and records have only been added. -/
structure OutsideFrame (s t : State) : Prop where
  state : t = { s with
    mem := t.mem, marks := t.marks, errs := t.errs, metaErrs := t.metaErrs, sramErrs := t.sramErrs, acc := t.acc, vaults := t.vaults
    integ := t.integ, mirror := t.mirror, errRing := t.errRing, rseq := t.rseq, fresh := t.fresh, cores := t.cores }
  ring : RingGrows s t

namespace OutsideFrame

theorem refl (s : State) : OutsideFrame s s := ⟨rfl, RingGrows.refl s⟩

theorem trans {s t u : State} (h : OutsideFrame s t) (h' : OutsideFrame t u) : OutsideFrame s u := by
  refine ⟨?_, h.ring.trans h'.ring⟩
  have hu := h'.state
  rw [h.state] at hu
  exact hu

theorem foldl {β : Type} (f : State → β → State) (hf : ∀ s x, OutsideFrame s (f s x)) (l : List β) (s : State) :
    OutsideFrame s (l.foldl f s) := foldl_rel refl trans f hf l s

theorem of_storeFrame {s t : State} (h : StoreFrame s t) (hr : RingGrows s t) : OutsideFrame s t := by
  refine ⟨?_, hr⟩
  have ht := h.eq
  rw [ht]

theorem outsideStore (s : State) (a : Nat) (bs : List PByte) : OutsideFrame s (outsideStore s a bs) := by
  unfold Machine.outsideStore
  split
  · unfold tileWrite
    dsimp only
    split
    · exact refl s
    · split
      · exact ⟨rfl, RingGrows.of_eq rfl⟩
      · exact of_storeFrame (StoreFrame.writeP s a bs) (RingGrows.of_eq rfl)
  · exact of_storeFrame (StoreFrame.store s a bs) (MemoryFrame.store s a bs).ring

theorem freeOutputs (s : State) (t : TableDesc) (d : Desc) : OutsideFrame s (freeOutputs s t d) := by
  unfold Machine.freeOutputs
  refine foldl _ (fun u g => ?_) _ s
  have hdraw : OutsideFrame u { u with fresh := u.fresh + lVector t d } := ⟨rfl, RingGrows.of_eq rfl⟩
  exact hdraw.trans (outsideStore _ _ _)

end OutsideFrame

/-- A lookup that fails is closed, with its record. -/
theorem failLookup_spec {s : State} {l : Lookup} (hl : lookupOf s l.batch l.descId = some l) (hwaits : NothingWaits s) (code : Nat) :
    NothingWaits (failLookup s l code) ∧ lookupOf (failLookup s l code) l.batch l.descId = some { l with closed := true } ∧
      ∃ x ∈ (failLookup s l code).errRing.drop s.errRing.length, x.code = BitVec.ofNat 8 code ∧ x.uclass = 8 ∧
        x.opid = opidDesc l.descId l.batch := by
  let s1 := killLandings s fun u => match u with | .lookupResponse _ b i => b == l.batch && i == l.descId | _ => false
  let s2 := teaselFault s1 l.unit code (opidDesc l.descId l.batch)
  let s3 := match tableOf s2 (dTable l.desc) with | some t => freeOutputs s2 t l.desc | none => s2
  have h2 : FaultFrame s1 s2 := FaultFrame.teaselFault _ _ _ _
  have h3 : OutsideFrame s2 s3 := by
    dsimp only [s3]
    split
    · exact OutsideFrame.freeOutputs _ _ _
    · exact OutsideFrame.refl _
  have hresult : failLookup s l code = modLookup s3 l.batch l.descId fun l => { l with closed := true } := rfl
  have hstate : NothingWaits s3 ∧ lookupOf s3 l.batch l.descId = some l := by
    rw [h3.state, h2.state]
    exact ⟨hwaits, hl⟩
  have hrecord : s1.record { code := code, uclass := 8, uinst := l.unit, opid := opidDesc l.descId l.batch } ∈
      s3.errRing.drop s.errRing.length := by
    refine record_mem_drop (RingGrows.trans ?_ h3.ring)
    exact RingGrows.of_eq (teaselFault_errRing _ _ _ _)
  rw [hresult]
  refine ⟨hstate.1, ?_, _, hrecord, rfl, rfl, rfl⟩
  rw [lookupOf_modLookup, hstate.2]
  · rfl
  · exact fun _ => rfl

/-- A response without failure joins the lookup that waits for it; one with a failure ends it. -/
theorem lookupResponse_taken {s : State} {r : RespMsg} {l : Lookup} (hl : lookupOf s r.batch r.descId = some l) (hopen : l.closed = false)
    (hgranted : l.granted.contains r.owner = true) (hwaits : l.waiting.contains r.owner = true) :
    lookupResponse r s = match r.fail with
      | some code => onward (failLookup s l code.toNat)
      | none => onward (modLookup (freeLanding s (.lookupResponse r.owner r.batch r.descId)) r.batch r.descId fun l => l.joined r.owner r.records) := by
  unfold lookupResponse
  rw [hl]
  dsimp only
  rw [if_neg (by simp only [hopen, hgranted, hwaits]; decide)]
  cases r.fail <;> rfl

theorem lookupResponse_joins {s : State} {r : RespMsg} {l : Lookup} (hwaits : NothingWaits s) (hl : lookupOf s r.batch r.descId = some l)
    (hopen : l.closed = false) (hgranted : l.granted.contains r.owner = true) (hin : l.waiting.contains r.owner = true) (hfail : r.fail = none) :
    (lookupResponse r s).mem = s.mem ∧ lookupOf (lookupResponse r s) r.batch r.descId = some (l.joined r.owner r.records) := by
  have htaken := lookupResponse_taken hl hopen hgranted hin
  rw [hfail] at htaken
  dsimp only at htaken
  rw [htaken, onward_idle]
  · exact ⟨rfl, (lookupOf_modLookup (freeLanding s (.lookupResponse r.owner r.batch r.descId)) r.batch r.descId
      (fun l => l.joined r.owner r.records) fun _ => rfl).trans (congrArg (Option.map fun l => Lookup.joined l r.owner r.records) hl)⟩
  · exact hwaits

theorem lookupResponse_fails {s : State} {r : RespMsg} {l : Lookup} {code : BitVec 8} (hwaits : NothingWaits s)
    (hl : lookupOf s r.batch r.descId = some l) (hopen : l.closed = false) (hgranted : l.granted.contains r.owner = true)
    (hin : l.waiting.contains r.owner = true) (hfail : r.fail = some code) :
    lookupOf (lookupResponse r s) r.batch r.descId = some { l with closed := true } ∧
      ∃ x ∈ (lookupResponse r s).errRing.drop s.errRing.length, x.code = code ∧ x.uclass = 8 ∧ x.opid = opidDesc l.descId l.batch := by
  have htaken := lookupResponse_taken hl hopen hgranted hin
  obtain ⟨hbatch, hdesc⟩ := isFor_of_lookupOf hl
  rw [hfail] at htaken
  dsimp only at htaken
  rw [hbatch, hdesc] at hl ⊢
  obtain ⟨hidle, hclosed, x, hx, hxcode, hxclass, hxop⟩ := failLookup_spec hl hwaits code.toNat
  rw [htaken, onward_idle hidle]
  exact ⟨hclosed, x, hx, by rw [hxcode, BitVec.ofNat_toNat, BitVec.setWidth_eq], hxclass, hxop⟩

/-! ### The obligation -/

/-- COUNT_MESSAGE at its owner. -/
theorem countMessage_spec (s : State) (m : CountMsg) (howner : m.owner = s.rank) (ht : (tableOf s m.table).isSome = true)
    (hnew : (s.counts.any fun x => x.requester == m.requester && x.descId == m.descId && x.batch == m.batch) = false) :
    (countMessage m s).mem = s.mem ∧
      if m.u = 0 then (countMessage m s).counts = s.counts ++ [m] ∧ (countMessage m s).landings = s.landings
      else match freeTag s with
        | some tag => (countMessage m s).counts = s.counts ++ [m] ∧ mget none (countMessage m s).landings tag = some (landingOf m)
        | none => countMessage m s = { s with tagWait := s.tagWait ++ [.count m] } := by
  split
  case isTrue hu =>
    rw [countMessage_none howner ht hnew hu, (FabricFrame.releaseTo _ m.requester 64).eq]
    exact ⟨rfl, rfl, rfl⟩
  case isFalse hu =>
    have heq := countMessage_some howner ht hnew hu
    cases htag : freeTag s with
    | none =>
      rw [htag] at heq
      rw [heq]
      exact ⟨rfl, rfl⟩
    | some tag =>
      rw [htag] at heq
      dsimp only at heq ⊢
      rw [heq, (FabricFrame.releaseTo _ m.requester 64).eq, (FabricFrame.ship _ _).eq]
      refine ⟨rfl, rfl, ?_⟩
      show mget none (mset none s.landings tag (some (landingOf m))) tag = _
      rw [mget_mset, if_pos rfl]

/-- Settles O33: LOOKUP by what its unit finds, the three messages by what their receiver holds. -/
theorem lookups : Obligations.Lookups := by
  unfold Obligations.Lookups
  refine ⟨?_, ?_⟩
  · intro s c d psn unit code freed hlive hgo hwaits harrives
    have hexec : exec (.lookup c d psn) s = .next (lookupDesc c d psn s) := congrArg Host.Outcome.next (if_runs hlive hgo _)
    have hfreed : freed (freePlace s c none d) := freed_freePlace s c d
    have hfault : ∀ u n op, freed (teaselFault (freePlace s c none d) u n op) ∧
        (teaselFault (freePlace s c none d) u n op).lookups = s.lookups := fun u n op => by
      rw [(FaultFrame.teaselFault (freePlace s c none d) u n op).state]
      exact ⟨hfreed, rfl⟩
    rw [hexec]
    refine ⟨fun hpsn => ?_, fun hpsn hcode hroom => ?_, fun hpsn hcode tab htab hroom => ?_, fun hpsn hres hfull => ?_⟩
    · subst hpsn
      rw [lookupDesc_poisoned harrives]
      exact ⟨_, _, rfl, hfreed, rfl, rfl, rfl, rfl, rfl⟩
    · subst hpsn
      have hunit : lookupReserved d = false → unit = lFeature d % 4 := fun hres => if_neg (by simp [hres])
      obtain ⟨op, hrefused⟩ := lookupDesc_recorded harrives hwaits (fun hres => hunit hres ▸ hroom hres) hcode
      rw [hrefused]
      obtain ⟨hf, hl⟩ := hfault unit code op
      refine ⟨_, _, rfl, hf, hl, teaselFault_errRing _ _ _ _, rfl, rfl, rfl, fun hres => teaselFault_descFlt _ _ _ _ ?_⟩
      have hfault' : code = lookupFault s d := if_neg (by simp [hres])
      have := lookupFault_cases s d
      omega
    · subst hpsn
      have hres : lookupReserved d = false := by
        by_contra h
        have hbad : code = 0x02 := if_pos (by simpa using h)
        omega
      have hcode' : code = lookupFault s d := if_neg (by simp [hres])
      have hunit : unit = lFeature d % 4 := if_neg (by simp [hres])
      rw [hunit] at hroom ⊢
      rw [lookupDesc_opens harrives hres hwaits hroom (hcode'.symm.trans hcode) htab]
      refine ⟨_, openedLookup s c d tab, rfl, ?_, ?_, ?_, rfl, rfl, rfl, rfl, rfl, rfl, rfl, rfl, rfl⟩
      · rw [sendCounts_state]
        exact hfreed
      · rw [sendCounts_state]
        rfl
      · rw [sendCounts_state]
    · subst hpsn
      have hunit : unit = lFeature d % 4 := if_neg (by simp [hres])
      rw [hunit] at hfull
      rw [lookupDesc_waits harrives hres hwaits hfull]
      exact ⟨_, _, rfl, hfreed, rfl, rfl, rfl, rfl⟩
  · intro s m r p l tab e cnt use got found records hlive hgo
    refine ⟨fun howner ht hnew => ?_, fun hwaits hl ht hcntTable hown hcnt hnew hok hfence hthere => ?_, fun hwaits hl hopen hgranted hin => ?_⟩
    · refine ⟨countMessage m s, congrArg Host.Outcome.next (if_runs hlive hgo _), ?_⟩
      obtain ⟨hmem, hrest⟩ := countMessage_spec s m howner ht hnew
      refine ⟨hmem, ?_⟩
      split
      case isTrue hu => rwa [if_pos hu] at hrest
      case isFalse hu =>
        rw [if_neg hu] at hrest
        generalize freeTag s = tag at hrest ⊢
        cases tag <;> exact hrest
    · obtain ⟨hreq, hbatch, hdesc⟩ := payloadGot_identity tab hl
      have hlgot : lookupOf s got.batch got.descId = some l := by
        show lookupOf s (payloadGot s tab l p).batch (payloadGot s tab l p).descId = some l
        rw [hbatch, hdesc, hl]
      have hserved : lookupPayload p e.val .none s = onward (servePayload found.1 tab l got e.val .none) :=
        (lookupPayload_got e.val hl ht hown).trans
          (congrArg onward (payloadArrives_served e.val hwaits.2.1 hcnt hlgot hcntTable hnew hok hfence hthere))
      obtain ⟨hpayloads, hidle, hself, hother⟩ := servePayload_spec (StoreFrame.absentOf s tab got.rows) tab l got e.val hlgot
      have hexec : exec (.lookupPayload p e .none) s = .next (servePayload found.1 tab l got e.val .none) :=
        (congrArg Host.Outcome.next (if_runs hlive hgo (lookupPayload p e.val .none s))).trans
          (congrArg Host.Outcome.next (hserved.trans (onward_idle (hidle hwaits))))
      refine ⟨_, hexec, hpayloads, ?_⟩
      split
      case isTrue hrank =>
        have hid := isFor_of_lookupOf hlgot
        have hjoined := hself (hreq.trans hrank) (hown hrank).2
        rw [hid.1, hid.2] at hjoined
        exact hjoined
      case isFalse hrank =>
        have hgot : got = p := if_neg hrank
        obtain ⟨hlookups, u, hout, hsent⟩ := hother (by rw [hgot]; exact hrank)
        refine ⟨hlookups, u, hout, hsent.trans ?_⟩
        rw [show got.requester = p.requester from hreq, show got.batch = p.batch from hbatch, show got.descId = p.descId from hdesc]
        rfl
    · refine ⟨lookupResponse r s, congrArg Host.Outcome.next (if_runs hlive hgo _), ?_⟩
      cases hfail : r.fail with
      | none => exact lookupResponse_joins hwaits hl hopen hgranted hin hfail
      | some code => exact lookupResponse_fails hwaits hl hopen hgranted hin hfail

end Sys2Proof.Machine

/-! ## Reads of the stores beside the host's side of the state (O45, O47) -/

namespace Sys2Proof.Machine

/-! ### The host's side (R400, R414) -/

/-- The state with other sessions, messages to the host and host ports. The lemmas that follow say that the reads of the stores neither see
them nor change them. -/
def hostSide (s : State) (x : SMap Session) (o : List HostMsg) (p : SMap HostPort) : State :=
  { s with sessions := x, hostOut := o, hports := p }

section
variable (s t : State) (x : SMap Session) (o : List HostMsg) (p : SMap HostPort)

theorem ite_hostSide {c : Prop} [Decidable c] :
    (if c then hostSide s x o p else hostSide t x o p) = hostSide (if c then s else t) x o p := by
  split <;> rfl

theorem hostSide_vault (v : Nat) : (hostSide s x o p).vault v = s.vault v := rfl

theorem hostSide_modVault (v : Nat) (f : Vault → Vault) : (hostSide s x o p).modVault v f = hostSide (s.modVault v f) x o p := rfl

theorem hostSide_emit (i : RecInfo) : (hostSide s x o p).emit i = hostSide (s.emit i) x o p := rfl

theorem hostSide_setMark (g : Nat) : setMark (hostSide s x o p) g = hostSide (setMark s g) x o p := rfl

theorem hostSide_rewriteGranule (g : Nat) (bs : List Byte) (m : Bool) :
    rewriteGranule (hostSide s x o p) g bs m = hostSide (rewriteGranule s g bs m) x o p := rfl

theorem hostSide_noteEvent (k : Nat) (u : BitVec 16) (c l : Nat) :
    (hostSide s x o p).noteEvent k u c l = hostSide (s.noteEvent k u c l) x o p := by
  unfold State.noteEvent
  dsimp only
  rw [← ite_hostSide]
  rfl

theorem hostSide_sramFlip (k : Nat) (e : BitVec 72) : sramFlip (hostSide s x o p) k e = hostSide (sramFlip s k e) x o p := by
  unfold sramFlip
  dsimp only
  rw [← ite_hostSide, ← ite_hostSide]
  rfl

theorem hostSide_sramRead (k : Nat) : sramRead (hostSide s x o p) k = (hostSide (sramRead s k).1 x o p, (sramRead s k).2) := by
  unfold sramRead
  simp only [hostSide_sramFlip, hostSide_modVault, ite_hostSide, hostSide_noteEvent, hostSide_emit]
  rw [show (hostSide s x o p).sramErrs = s.sramErrs from rfl]
  split <;> rfl

theorem hostSide_foldl {β : Type} (f : State → β → State) (hf : ∀ s b, f (hostSide s x o p) b = hostSide (f s b) x o p) (l : List β) :
    l.foldl f (hostSide s x o p) = hostSide (l.foldl f s) x o p := by
  induction l generalizing s with
  | nil => rfl
  | cons b l ih => rw [List.foldl_cons, hf, ih, List.foldl_cons]

theorem hostSide_fetchTile (a n : Nat) : fetchTile (hostSide s x o p) a n = hostSide (fetchTile s a n) x o p := by
  refine hostSide_foldl s x o p _ (fun t w => ?_) _
  simp only [hostSide_sramRead, hostSide_setMark, ite_hostSide]

theorem hostSide_flushDetections (v : Nat) : flushDetections (hostSide s x o p) v = hostSide (flushDetections s v) x o p := by
  unfold flushDetections
  simp only [hostSide_vault]
  split <;> rfl

theorem hostSide_detectAt (v die a code : Nat) : detectAt (hostSide s x o p) v die a code = hostSide (detectAt s v die a code) x o p := by
  unfold detectAt
  simp only [hostSide_flushDetections, hostSide_modVault, hostSide_vault, hostSide_emit, ite_hostSide,
    show (hostSide s x o p).nowNs = s.nowNs from rfl]

theorem hostSide_readGranule (g : Nat) (d e : Disturb) : readGranule (hostSide s x o p) g d e = hostSide (readGranule s g d e) x o p := by
  unfold readGranule detect
  simp only [hostSide_rewriteGranule, hostSide_modVault, hostSide_noteEvent, hostSide_detectAt, ite_hostSide,
    show (hostSide s x o p).errs = s.errs from rfl, show (hostSide s x o p).marks = s.marks from rfl,
    show (hostSide s x o p).metaErrs = s.metaErrs from rfl, show readB (hostSide s x o p) = readB s from rfl]
  split
  · split <;> rfl
  · rfl
  · split <;> rfl

theorem hostSide_fetchRange (a n : Nat) : fetchRange (hostSide s x o p) a n = hostSide (fetchRange s a n) x o p := by
  unfold fetchRange
  dsimp only
  rw [hostSide_foldl s x o p (fun t g => readGranule t g quiet quiet) fun t g => hostSide_readGranule t x o p g quiet quiet,
    hostSide_fetchTile]
  rfl

end
end Sys2Proof.Machine

/-! ## Ring entries and batches (O47) -/

namespace Sys2Proof.Machine

/-! ### Sessions after events (R414, R416) -/

theorem session_modSession (s : State) (sid : BitVec 32) (f : Session → Session) : (s.modSession sid f).session sid = f (s.session sid) :=
  mget_mset_self _ _ _ _

theorem ring_setRing (s : State) (sid : BitVec 32) (r : Nat) (g : Option Ring) : ((setRing s sid r g).session sid).ring r = g := by
  unfold setRing
  rw [session_modSession]
  exact mget_mset_self _ _ _ _

/-- Events written change the event ring of their session alone. -/
theorem writeEvents_session (s : State) (sid : BitVec 32) (n : Nat) :
    ∃ ev, (writeEvents s sid.toNat n).session sid = { s.session sid with evt := ev } := by
  induction n generalizing s with
  | zero => exact ⟨_, rfl⟩
  | succ n ih =>
    unfold writeEvents
    dsimp only
    split
    · split
      · obtain ⟨ev, hev⟩ := ih { s with
          sessions := _
          hostOut := _ }
        refine ⟨ev, hev.trans ?_⟩
        show { mget {} (mset {} s.sessions sid.toNat _) sid.toNat with evt := ev } = _
        rw [mget_mset_self]
        rfl
      · exact ⟨_, rfl⟩
    · exact ⟨_, rfl⟩

/-- An event takes the next number of a session that is attached or detached, and changes its events and event ring alone. -/
theorem postTo_session (s : State) (sid : BitVec 32) (status : Nat) (body : EventBody) :
    ∃ n evs ev, (s.postTo sid.toNat status body).session sid = { s.session sid with eseq := n, events := evs, evt := ev } ∧
      ((s.session sid).st = .attached ∨ (s.session sid).st = .detached → n = (s.session sid).eseq + 1) := by
  unfold State.postTo
  dsimp only
  split
  case isTrue h => exact ⟨(s.session sid).eseq, (s.session sid).events, (s.session sid).evt, rfl, fun hst => absurd hst (not_or.2 h)⟩
  case isFalse h =>
    let posted : Session → Session := fun x =>
      { x with eseq := x.eseq + 1, events := x.events ++ [⟨x.eseq, BitVec.ofNat 8 status, body⟩] }
    obtain ⟨ev, hev⟩ := writeEvents_session (s.modSession sid posted) sid (posted (s.session sid)).events.length
    rw [session_modSession] at hev
    exact ⟨_, _, ev, hev, fun _ => rfl⟩

theorem ring_postTo (s : State) (sid : BitVec 32) (status : Nat) (body : EventBody) (r : Nat) :
    ((s.postTo sid.toNat status body).session sid).ring r = (s.session sid).ring r := by
  obtain ⟨n, evs, ev, h, -⟩ := postTo_session s sid status body
  rw [h]
  rfl

/-- A ring that is not closing is kept (R426). -/
theorem dropIfDone_open {s : State} {sid : BitVec 32} {r : Nat} {g : Ring} (hg : (s.session sid).ring r = some g) (hopen : g.closing = false) :
    dropIfDone s sid r = s := by
  unfold dropIfDone
  rw [hg]
  simp [hopen]

theorem SessionFrame.setRing (s : State) (sid : BitVec 32) (r : Nat) (g : Option Ring) : SessionFrame s (setRing s sid r g) := rfl

theorem SessionFrame.dropIfDone (s : State) (sid : BitVec 32) (r : Nat) : SessionFrame s (dropIfDone s sid r) := by
  unfold Machine.dropIfDone
  split
  · split
    · exact setRing s sid r none
    · exact refl s
  · exact refl s

theorem SessionFrame.eq {s t : State} (h : SessionFrame s t) : t = { s with sessions := t.sessions, hostOut := t.hostOut } := h

/-! ### An entry that has been read (R410) -/

/-- The place of the entry at C of a ring. -/
def entryPlace (g : Ring) : Nat := g.base + 64 * (g.cons.toNat % g.n)

/-- The base of the buffer that an entry names. -/
def entryBase (x : Session) (e : List Byte) : Nat :=
  match x.buffer (entryField e 8 1) with | some u => u.addr | none => 0

/-- The ring once an entry has been consumed. -/
def Ring.consumed (g : Ring) : Ring := { g with cons := g.cons + 1, rereads := 0, rereadAt := none, held := false }

/-- The ring once an entry has been passed to validation. -/
def Ring.passed (g : Ring) (base : Nat) (e : List Byte) : Ring :=
  { g.consumed with image := g.image ++
      [(g.cons, BitVec.ofNat 32 (entryField e 32 4), BitVec.ofNat 32 (entryField e 4 4), base + entryField e 16 8, entryField e 24 8)] }

/-- A record has been written with a code. -/
def RecordedCode (s t : State) (code : Nat) : Prop := ∃ x ∈ t.errRing.drop s.errRing.length, x.code = BitVec.ofNat 8 code

/-- What becomes of ring r of a session and its entry e, by whether the entry is ready. -/
def EntryOutcome (s : State) (sid : BitVec 32) (r : Nat) (g : Ring) (e : List Byte) (ready : Bool) (t : State) : Prop :=
  if ready = false then
    if g.rereads < 8 then (t.session sid).ring r = some { g with rereadAt := some (s.cycle + 1600) }
    else (t.session sid).ring r = some { g with rereadAt := none, stopped := true } ∧ RecordedCode s t 0x74 ∧
      (t.hport (s.session sid).port).notrdy = satAdd 16 (s.hport (s.session sid).port).notrdy 1
  else if entryFault s sid e ≠ 0 then RecordedCode s t (entryFault s sid e) ∧
    (g.closing = false → (t.session sid).ring r = some g.consumed)
  else if beyondDepth s (entryField e 4 4) then (t.session sid).ring r = some { g with held := true, rereadAt := none }
  else (t.session sid).ring r = some (g.passed (entryBase (s.session sid) e) e)

/-- An entry that is not ready is read again, or stops its ring with its record. -/
theorem entryNotReady_spec (v : State) (sid : BitVec 32) (r : Nat) (g : Ring) (e : List Byte) :
    ((entryNotReady v sid r g e).hport (v.session sid).port).reread = (v.hport (v.session sid).port).reread ∧
      if g.rereads < 8 then ((entryNotReady v sid r g e).session sid).ring r = some { g with rereadAt := some (v.cycle + 1600) }
      else ((entryNotReady v sid r g e).session sid).ring r = some { g with rereadAt := none, stopped := true } ∧
        Recorded v (entryNotReady v sid r g e) 0x74 ∧
        ((entryNotReady v sid r g e).hport (v.session sid).port).notrdy = satAdd 16 (v.hport (v.session sid).port).notrdy 1 := by
  unfold entryNotReady
  split
  · exact ⟨rfl, ring_setRing v sid r _⟩
  · dsimp only
    let i : RecInfo := { code := 0x74, uclass := 0xA, uinst := (v.session sid).port, opid := opidHost sid r }
    let u := setRing ((v.emit i).modHport (v.session sid).port fun x => { x with notrdy := satAdd 16 x.notrdy 1 }) sid r
      (some { g with rereadAt := none, stopped := true })
    have hpost : SessionFrame u (u.postTo sid.toNat 0x74 (entryEvent r g e)) := SessionFrame.postTo _ _ _ _
    have hports : (u.postTo sid.toNat 0x74 (entryEvent r g e)).hports = u.hports := by rw [hpost.eq]
    have hring : (u.postTo sid.toNat 0x74 (entryEvent r g e)).errRing = u.errRing := by rw [hpost.eq]
    have hport : (u.postTo sid.toNat 0x74 (entryEvent r g e)).hport (v.session sid).port =
        { v.hport (v.session sid).port with notrdy := satAdd 16 (v.hport (v.session sid).port).notrdy 1 } := by
      unfold State.hport
      rw [hports]
      exact mget_mset_self _ _ _ _
    show ((u.postTo _ _ _).hport _).reread = _ ∧ ((u.postTo _ _ _).session sid).ring r = _ ∧ Recorded v (u.postTo _ _ _) _ ∧
      ((u.postTo _ _ _).hport _).notrdy = _
    rw [hport, ring_postTo]
    exact ⟨rfl, ring_setRing _ sid r _, ⟨v, i, rfl, RingGrows.refl v, RingGrows.of_eq hring⟩, rfl⟩

/-- An entry with a fault is consumed, with its record and event. -/
theorem entryFaulty_spec (v : State) (sid : BitVec 32) (r f p : Nat) (g : Ring) (body : EventBody) :
    let u := (setRing (v.hostRec p f (opidHost sid r)) sid r (some g)).postTo sid.toNat f body
    (dropIfDone u sid r).hports = v.hports ∧ Recorded v (dropIfDone u sid r) f ∧
      (g.closing = false → ((dropIfDone u sid r).session sid).ring r = some g) := by
  intro u
  have hring : (u.session sid).ring r = some g := (ring_postTo _ sid f body r).trans (ring_setRing _ sid r _)
  have hpost : SessionFrame (setRing (v.hostRec p f (opidHost sid r)) sid r (some g)) u := SessionFrame.postTo _ _ _ _
  have hframe : SessionFrame (v.hostRec p f (opidHost sid r)) (dropIfDone u sid r) :=
    ((SessionFrame.setRing _ sid r _).trans hpost).trans (SessionFrame.dropIfDone u sid r)
  refine ⟨by rw [hframe.eq]; rfl, ⟨v, _, rfl, RingGrows.refl v, RingGrows.of_eq (by rw [hframe.eq]; rfl)⟩, fun hopen => ?_⟩
  rw [dropIfDone_open hring hopen, hring]

/-- What the checks of an entry read is the same after its read. -/
theorem entryChecks_fetchRange (v : State) (sid : BitVec 32) (a n : Nat) (e : List Byte) (step : Nat) :
    (fetchRange v a n).session sid = v.session sid ∧ (fetchRange v a n).hports = v.hports ∧ (fetchRange v a n).cycle = v.cycle ∧
      entryFault (fetchRange v a n) sid e = entryFault v sid e ∧ beyondDepth (fetchRange v a n) step = beyondDepth v step := by
  rw [(StoreFrame.fetchRange v a n).eq]
  exact ⟨rfl, rfl, rfl, rfl, rfl⟩

/-- An entry that arrives has its outcome, and its port counts no re-read for it. -/
theorem entryArrives_spec (v : State) (sid : BitVec 32) (r : Nat) (g : Ring) :
    let v1 := fetchRange v (entryPlace g) 64
    let e := readB v1 (entryPlace g) 64
    EntryOutcome v sid r g e (entryReady g e && !poisonedIn v1 (entryPlace g) 64) (entryArrives v sid r g) ∧
      ((entryArrives v sid r g).hport (v.session sid).port).reread = (v.hport (v.session sid).port).reread := by
  intro v1 e
  have harrives : entryArrives v sid r g =
      if !entryReady g e || poisonedIn v1 (entryPlace g) 64 then entryNotReady v1 sid r g e
      else if entryFault v1 sid e ≠ 0 then
        dropIfDone ((setRing (v1.hostRec (v1.session sid).port (entryFault v1 sid e) (opidHost sid r)) sid r (some g.consumed)).postTo
          sid.toNat (entryFault v1 sid e) (entryEvent r g e)) sid r
      else if beyondDepth v1 (entryField e 4 4) then setRing v1 sid r (some { g with held := true, rereadAt := none })
      else setRing v1 sid r (some (g.passed (entryBase (v1.session sid) e) e)) := rfl
  obtain ⟨hsession, hports, hcycle, hfault, hdepth⟩ := entryChecks_fetchRange v sid (entryPlace g) 64 e (entryField e 4 4)
  have hread : RingGrows v v1 := (MemoryFrame.fetchRange v _ _).ring
  have hport : ∀ t : State, t.hports = v1.hports → (t.hport (v.session sid).port).reread = (v.hport (v.session sid).port).reread := fun t ht => by
    unfold State.hport
    rw [ht, hports]
  have hnegated : (!entryReady g e || poisonedIn v1 (entryPlace g) 64) = !(entryReady g e && !poisonedIn v1 (entryPlace g) 64) := by
    rw [Bool.not_and, Bool.not_not]
  rw [hnegated, hfault, hdepth, hsession] at harrives
  unfold EntryOutcome
  rw [harrives]
  clear harrives hnegated
  generalize (entryReady g e && !poisonedIn v1 (entryPlace g) 64) = ready
  cases ready with
  | false =>
    obtain ⟨hkept, hnot⟩ := entryNotReady_spec v1 sid r g e
    rw [hsession] at hkept hnot
    rw [hcycle] at hnot
    rw [if_pos rfl, if_pos (show (!false) = true from rfl)]
    refine ⟨?_, hkept.trans (hport v1 rfl)⟩
    split
    case isTrue h => rwa [if_pos h] at hnot
    case isFalse h =>
      rw [if_neg h] at hnot
      obtain ⟨hring, hrec, hcount⟩ := hnot
      refine ⟨hring, (hrec.after hread).exists_rec, hcount.trans ?_⟩
      unfold State.hport
      rw [hports]
  | true =>
    rw [if_neg (show ¬ true = false by decide), if_neg (show ¬ (!true) = true by decide)]
    split
    case isTrue =>
      obtain ⟨hp, hrec, hring⟩ := entryFaulty_spec v1 sid r (entryFault v sid e) (v.session sid).port g.consumed (entryEvent r g e)
      exact ⟨⟨(hrec.after hread).exists_rec, hring⟩, hport _ hp⟩
    case isFalse =>
      split
      · exact ⟨ring_setRing _ _ _ _, hport _ rfl⟩
      · exact ⟨ring_setRing _ _ _ _, hport _ rfl⟩

/-! ### Checks of an image beside the host's side (R235, R411) -/

theorem checkParts_hostSide (s : State) (x : SMap Session) (o : List HostMsg) (p : SMap HostPort) (lim : Nat) (fts : List Feature) :
    ∀ f a, checkParts (hostSide s x o p) lim f a fts = checkParts s lim f a fts := by
  induction fts with
  | nil => exact fun _ _ => rfl
  | cons ft fts ih =>
    intro f a
    unfold checkParts
    rw [show rawPart (hostSide s x o p) ft a lim = rawPart s ft a lim from rfl,
      show tableOf (hostSide s x o p) ft.table = tableOf s ft.table from rfl]
    split
    · dsimp only
      rw [ih]
      rfl
    · rfl

theorem checkImage_hostSide (s : State) (x : SMap Session) (o : List HostMsg) (p : SMap HostPort) (j : Job) (a len : Nat) (step : BitVec 32) :
    checkImage (hostSide s x o p) j a len step = checkImage s j a len step := by
  unfold checkImage
  rw [show imageHead (hostSide s x o p) a len step = imageHead s a len step from rfl]
  cases imageHead s a len step with
  | none => rfl
  | some h =>
    dsimp only
    rw [checkParts_hostSide]
    rfl

/-! ### What prefetches change (R230, R239, R257) -/

/-- State t is s but for what the stores hold, the fabric, the fetches of absent records and what has gone to the host. -/
def PrefetchFrame (s t : State) : Prop := t = { s with
    mem := t.mem, marks := t.marks, errs := t.errs, metaErrs := t.metaErrs, sramErrs := t.sramErrs, acc := t.acc, vaults := t.vaults
    integ := t.integ, mirror := t.mirror, errRing := t.errRing, rseq := t.rseq, fresh := t.fresh, ports := t.ports, fabOut := t.fabOut
    inbox := t.inbox, outWait := t.outWait, fetches := t.fetches, fetchSeq := t.fetchSeq, hostOut := t.hostOut }

namespace PrefetchFrame

theorem refl (s : State) : PrefetchFrame s s := rfl

theorem eq {s t : State} (h : PrefetchFrame s t) : t = { s with
    mem := t.mem, marks := t.marks, errs := t.errs, metaErrs := t.metaErrs, sramErrs := t.sramErrs, acc := t.acc, vaults := t.vaults
    integ := t.integ, mirror := t.mirror, errRing := t.errRing, rseq := t.rseq, fresh := t.fresh, ports := t.ports, fabOut := t.fabOut
    inbox := t.inbox, outWait := t.outWait, fetches := t.fetches, fetchSeq := t.fetchSeq, hostOut := t.hostOut } := h

theorem trans {s t u : State} (h : PrefetchFrame s t) (h' : PrefetchFrame t u) : PrefetchFrame s u := by
  unfold PrefetchFrame at h'
  rw [h] at h'
  exact h'

theorem foldl {β : Type} (f : State → β → State) (hf : ∀ s x, PrefetchFrame s (f s x)) (l : List β) (s : State) :
    PrefetchFrame s (l.foldl f s) := foldl_rel refl trans f hf l s

theorem of_storeFrame {s t : State} (h : StoreFrame s t) : PrefetchFrame s t := by
  have ht := h.eq
  unfold PrefetchFrame
  rw [ht]

theorem of_fabricFrame {s t : State} (h : FabricFrame s t) : PrefetchFrame s t := by
  have ht := h.eq
  unfold PrefetchFrame
  rw [ht]

theorem startFetch (s : State) (t l : Nat) : PrefetchFrame s (startFetch s t l) := by
  unfold Machine.startFetch
  split
  · exact refl s
  · dsimp only
    split <;> rfl

theorem prefetchRow (d : TableDesc) (batch : BitVec 32) (s : State) (l : Nat) : PrefetchFrame s (prefetchRow d batch s l) := by
  have hmarked : ∀ (t : State) f, PrefetchFrame t { t with fetches := f } := fun _ _ => rfl
  unfold Machine.prefetchRow
  split
  · exact refl s
  · dsimp only
    have hread := of_storeFrame (StoreFrame.absentOf s d [l])
    split
    · exact hread.trans (of_storeFrame (StoreFrame.installRow _ _ _ _ _))
    · exact (hread.trans (startFetch _ _ _)).trans (hmarked _ _)

theorem prefetchMessage (m : PrefetchMsg) (s : State) : PrefetchFrame s (prefetchMessage m s) := by
  have hdrop := of_storeFrame (StoreFrame.countDrop s 0)
  unfold Machine.prefetchMessage
  split
  · split
    · exact foldl _ (prefetchRow _ _) _ s
    · exact hdrop
  · exact hdrop

theorem sendPrefetch (s : State) (b : Batch) : PrefetchFrame s (sendPrefetch s b) := by
  refine foldl _ (fun t x => ?_) _ s
  obtain ⟨p, f⟩ := x
  show PrefetchFrame t (match featureOf t f with
    | none => t
    | some ft => _)
  cases featureOf t f with
  | none => exact refl t
  | some ft =>
    dsimp only
    split
    · exact refl t
    · split
      · exact refl t
      · refine foldl _ (fun u o => ?_) _ t
        extract_lets
        split
        · exact prefetchMessage _ u
        · split
          · exact of_fabricFrame (FabricFrame.intoInbox u _ _ _)
          · exact of_storeFrame (StoreFrame.countDrop u 0)

end PrefetchFrame

/-- A rejected batch is recorded and counted alone (R201, R267). -/
theorem FaultFrame.rejectBatch (s : State) (sid : BitVec 32) (r a len : Nat) (bad : List Offence) :
    FaultFrame s (rejectBatch s sid r a len bad) := by
  unfold Machine.rejectBatch biteBatch
  extract_lets t
  have hcounted : FaultFrame s t := foldl _ (fun t u => modTeasel t u _) _ s
  refine hcounted.trans ?_
  split
  · exact refl _
  · exact emit _ _

/-! ### Validation of a batch (R237, R411 to R413) -/

/-- The state of a ring whose oldest image has been found, before its event. -/
def imageJudged (s : State) (sid : BitVec 32) (r a len : Nat) (step : BitVec 32) (x : Found) : State :=
  if x.offences.isEmpty then acceptBatch s sid step a x.parts else rejectBatch s sid r a len x.offences

/-- An image without offence becomes the step's batch, another none; the sessions stay. -/
theorem imageJudged_spec (s : State) (sid : BitVec 32) (r a len : Nat) (step : BitVec 32) (x : Found) :
    (imageJudged s sid r a len step x).sessions = s.sessions ∧
      if x.offences = [] then (imageJudged s sid r a len step x).accepted = s.accepted ++ [step] ∧
        (imageJudged s sid r a len step x).batches = s.batches ++ [⟨step, x.parts, microCounts s a, sid⟩]
      else (imageJudged s sid r a len step x).batches = s.batches ∧ (imageJudged s sid r a len step x).accepted = s.accepted := by
  unfold imageJudged
  by_cases hgood : x.offences = []
  · rw [if_pos (by simp [hgood]), if_pos hgood]
    unfold acceptBatch
    dsimp only
    rw [(PrefetchFrame.sendPrefetch _ _).eq]
    exact ⟨rfl, rfl, rfl⟩
  · rw [if_neg (by simpa using hgood), if_neg hgood, (FaultFrame.rejectBatch s sid r a len x.offences).state]
    exact ⟨rfl, rfl, rfl⟩

theorem batchValidation_spec {s : State} {sid : BitVec 32} {r : Nat} {g : Ring} {j : Job} {idx tag step : BitVec 32} {a len : Nat}
    {rest : List (BitVec 32 × BitVec 32 × BitVec 32 × Nat × Nat)} (hg : (s.session sid).ring r = some g) (hj : s.job = some j)
    (himage : g.image = (idx, tag, step, a, len) :: rest) :
    let found := checkImage (fetchRange s a len) j a len step
    (g.closing = false → ((batchValidation sid r s).session sid).ring r = some { g with image := rest }) ∧
      if found.offences = [] then (batchValidation sid r s).accepted = s.accepted ++ [step] ∧
        (batchValidation sid r s).batches = s.batches ++ [⟨step, found.parts, microCounts (fetchRange s a len) a, sid⟩]
      else (batchValidation sid r s).batches = s.batches ∧ (batchValidation sid r s).accepted = s.accepted := by
  intro found
  let s1 := setRing s sid r (some { g with image := rest })
  let s2 := hostSide (fetchRange s a len) s1.sessions s.hostOut s.hports
  have hread : fetchRange s1 a len = s2 := hostSide_fetchRange s s1.sessions s.hostOut s.hports a len
  have hfound : checkImage s2 j a len step = found := checkImage_hostSide _ _ _ _ j a len step
  let u := imageJudged s2 sid r a len step found
  let body : EventBody := .batch r idx tag step found.offences.length (((sortOffences found.offences).take 16).map Offence.word)
  have hresult : batchValidation sid r s = dropIfDone (u.postTo sid.toNat 0 body) sid r := by
    unfold batchValidation
    rw [hg, hj]
    dsimp only
    rw [himage]
    dsimp only
    rw [show fetchRange (setRing s sid r (some { g with image := rest })) a len = s2 from hread, hfound]
    rfl
  obtain ⟨hsessions, hjudged⟩ := imageJudged_spec s2 sid r a len step found
  have hring : ((u.postTo sid.toNat 0 body).session sid).ring r = some { g with image := rest } := by
    rw [ring_postTo]
    unfold State.session
    rw [hsessions]
    exact ring_setRing s sid r _
  have hframe : SessionFrame u (dropIfDone (u.postTo sid.toNat 0 body) sid r) :=
    (SessionFrame.postTo _ _ _ _).trans (SessionFrame.dropIfDone _ _ _)
  have hkept : s2.accepted = s.accepted ∧ s2.batches = s.batches := by
    show (fetchRange s a len).accepted = _ ∧ (fetchRange s a len).batches = _
    rw [(StoreFrame.fetchRange s a len).eq]
    exact ⟨rfl, rfl⟩
  rw [hresult]
  refine ⟨fun hopen => ?_, ?_⟩
  · rw [dropIfDone_open hring hopen, hring]
  · rw [hframe.eq, ← hkept.1, ← hkept.2]
    exact hjudged

/-- Settles O47: an entry by its outcome, beside a port that counts its re-read; an image by what its checks find. -/
theorem ingestRings : Obligations.IngestRings := by
  unfold Obligations.IngestRings
  intro s sid r g j idx tag step a len at0 rest y ea s1 e ready fault base found recorded outcome hlive hg
  refine ⟨fun hreads hfirst => ?_, fun hreads hagain hdue => ?_, fun hgo hj himage => ?_⟩
  · have hrun : ringEntryRead sid r.val s = entryArrives s sid r.val g := by
      unfold ringEntryRead
      rw [hg]
      dsimp only
      rw [if_pos (by rw [hreads, hfirst]; rfl)]
    refine ⟨entryArrives s sid r.val g, (congrArg Host.Outcome.next (if_pos hlive)).trans (congrArg Host.Outcome.next hrun), ?_⟩
    exact (entryArrives_spec s sid r.val g).1
  · let again : Ring := { g with rereads := g.rereads + 1, rereadAt := none }
    let v := s.modHport y.port fun x => { x with reread := satAdd 16 x.reread 1 }
    have hrun : entryReread sid r.val s = entryArrives v sid r.val again := by
      unfold entryReread
      rw [hg]
      dsimp only
      rw [hagain]
      dsimp only
      rw [if_pos (by rw [hreads, decide_eq_true hdue]; rfl)]
    have hread : fetchRange v ea 64 = hostSide s1 s.sessions s.hostOut v.hports := hostSide_fetchRange s s.sessions s.hostOut v.hports ea 64
    obtain ⟨hout, hcount⟩ := entryArrives_spec v sid r.val again
    rw [show fetchRange v (entryPlace again) 64 = hostSide s1 s.sessions s.hostOut v.hports from hread] at hout
    have hcounts : (v.hport y.port).reread = satAdd 16 (s.hport y.port).reread 1 ∧
        (v.hport y.port).notrdy = (s.hport y.port).notrdy := by
      rw [hport_modHport_self]
      exact ⟨rfl, rfl⟩
    refine ⟨entryArrives v sid r.val again, (congrArg Host.Outcome.next (if_pos hlive)).trans (congrArg Host.Outcome.next hrun), ?_, ?_⟩
    · unfold EntryOutcome at hout
      rw [show v.session sid = y from rfl, hcounts.2] at hout
      exact hout
    · exact hcount.trans hcounts.1
  · obtain ⟨hring, hrest⟩ := batchValidation_spec hg hj himage
    exact ⟨batchValidation sid r.val s, congrArg Host.Outcome.next (if_runs hlive hgo _), hring, hrest⟩

end Sys2Proof.Machine

/-! ## Bulk transfers, tier sources and checkpoint destinations (O45) -/

namespace Sys2Proof.Machine

/-! ### Replies of a session that serves a message (R400, R428, R429) -/

/-- A refusal beside the command that makes it. -/
theorem Refused.exec {s t : State} {h : ShlHead} {code : Nat} (hr : Refused s h code t) {i : Instr} (hi : exec i s = .next t) :
    ∃ t e, exec i s = .next t ∧ t.mem = s.mem ∧ t.errRing = s.errRing ++ [e] ∧ e.code = BitVec.ofNat 8 code ∧
      t.hostOut = s.hostOut ++ [.fail h.sid h.tag (BitVec.ofNat 8 code)] := by
  obtain ⟨e, -, hmem, -, hring, hcode, hout⟩ := hr
  exact ⟨t, e, hi, hmem, hring, hcode, hout⟩

/-- A reply to an attached session takes the next number of what the device sends. -/
theorem session_okReply (s : State) (h : ShlHead) (hatt : (s.session h.sid).st = .attached) :
    (okReply h s).session h.sid = { s.session h.sid with txSeq := (s.session h.sid).txSeq + 1 } := by
  unfold okReply sendReply
  dsimp only
  rw [if_neg (by simp [hatt])]
  exact session_modSession _ _ _

/-- The plain reply changes the host's side alone. -/
theorem okReply_hostSide (s : State) (h : ShlHead) :
    okReply h s = hostSide s (okReply h s).sessions (s.hostOut ++ [.ok h.sid h.tag]) s.hports := by
  unfold okReply sendReply
  dsimp only
  split <;> rfl

/-- A message has been served with the plain reply: the session has counted both, and what follows changes only the host's side. -/
theorem okReply_served (s : State) (h : ShlHead) (hatt : (s.session h.sid).st = .attached) :
    okReply h (served s h) = hostSide s (okReply h (served s h)).sessions (s.hostOut ++ [.ok h.sid h.tag]) s.hports ∧
      (okReply h (served s h)).session h.sid =
        { s.session h.sid with rxSeq := (s.session h.sid).rxSeq + 1, txSeq := (s.session h.sid).txSeq + 1 } := by
  have hatt' : ((served s h).session h.sid).st = .attached := by rw [session_served, hatt]
  refine ⟨okReply_hostSide (served s h) h, ?_⟩
  rw [session_okReply _ h hatt', session_served]

/-! ### Transfers that start (R405, R416 to R418) -/

/-- A transfer of a session changed, in a state with the same sessions. -/
theorem session_modXfer {s u : State} {sid : BitVec 32} (hsame : u.session sid = s.session sid) (xid : BitVec 32) (f : Xfer → Xfer) :
    (modXfer u sid xid f).session sid =
      { s.session sid with xfers := (s.session sid).xfers.map fun t => if t.xid = xid then f t else t } := by
  unfold modXfer
  rw [session_modSession, hsame]

/-- The state of a session whose new transfer has been accepted. -/
def opened (s : State) (h : ShlHead) (f : Xfer) : State :=
  (okReply h (served s h)).modSession h.sid fun x => { x with xfers := x.xfers ++ [f] }

theorem opened_spec (s : State) (h : ShlHead) (f : Xfer) (hatt : (s.session h.sid).st = .attached) :
    opened s h f = hostSide s (opened s h f).sessions (s.hostOut ++ [.ok h.sid h.tag]) s.hports ∧
      (opened s h f).session h.sid = { s.session h.sid with
        rxSeq := (s.session h.sid).rxSeq + 1, txSeq := (s.session h.sid).txSeq + 1, xfers := (s.session h.sid).xfers ++ [f] } := by
  obtain ⟨hside, hsession⟩ := okReply_served s h hatt
  constructor
  · show { okReply h (served s h) with sessions := (opened s h f).sessions } = _
    rw [hside]
    rfl
  · unfold opened
    rw [session_modSession, hsession]

/-- Whether transfers go on depends on the stop and on the session's events. -/
theorem mayProceed_congr {s t : State} {sid : BitVec 32} (hstop : t.stopped = s.stopped)
    (hevents : (t.session sid).events = (s.session sid).events) (hevt : (t.session sid).evt = (s.session sid).evt) :
    mayProceed t sid = mayProceed s sid := by
  unfold mayProceed Session.waiting Session.written
  rw [hstop, hevents, hevt]

/-- No transfer starts where none waits. -/
theorem startXfers_idle {s : State} {sid : BitVec 32} (hidle : ((s.session sid).xfers.all fun t => t.started || t.inDoubt) = true) :
    startXfers s sid = s := by
  have hnone : ((s.session sid).xfers.filter fun t => !t.started && !t.inDoubt) = [] := by
    refine List.filter_eq_nil_iff.2 fun t ht => ?_
    have := List.all_eq_true.1 hidle t ht
    simpa [Decidable.or_iff_not_imp_left] using this
  unfold startXfers
  rw [hnone]
  split <;> rfl

/-- Behind transfers that do not wait, the new one starts. -/
theorem startXfers_last {s : State} {sid : BitVec 32} {l : List Xfer} {f : Xfer} (hatt : (s.session sid).st = .attached)
    (hxfers : (s.session sid).xfers = l ++ [f]) (hidle : (l.all fun t => t.started || t.inDoubt) = true)
    (hnew : f.started = false ∧ f.inDoubt = false) : startXfers s sid = if mayProceed s sid then startXfer s sid f else s := by
  have hone : ((s.session sid).xfers.filter fun t => !t.started && !t.inDoubt) = [f] := by
    rw [hxfers, List.filter_append, List.filter_eq_nil_iff.2, List.nil_append]
    · simp [hnew]
    · intro t ht
      have := List.all_eq_true.1 hidle t ht
      simpa [Decidable.or_iff_not_imp_left] using this
  unfold startXfers
  rw [hone, hatt]
  simp

/-- The first poisoned granule of an OUT transfer's bytes (R418). -/
def firstPoisoned (s : State) (f : Xfer) : Option Nat := (poisonedGranules (fetchRange s f.dev f.len) f.dev f.len).head?

/-- The bytes that an OUT transfer sends (R418). -/
def sentBytes (s : State) (f : Xfer) : Nat := match firstPoisoned s f with | some g => 64 * g - f.dev | none => f.len

/-- What an OUT transfer sends, how it stands afterwards, and the bite of its first poisoned granule (R201, R417, R418). -/
theorem startXfer_out (s : State) (sid : BitVec 32) (f : Xfer) (hout : f.out = true) :
    (startXfer s sid f).hostOut = s.hostOut ++ pushSegments sid f (readB (fetchRange s f.dev f.len) f.dev (sentBytes s f)) ∧
      (startXfer s sid f).session sid = { s.session sid with xfers := (s.session sid).xfers.map fun y => if y.xid = f.xid then
        { y with started := true, moved := sentBytes s f, poisonAt := (firstPoisoned s f).map fun g => 64 * g - y.dev } else y } ∧
      ((firstPoisoned s f).isSome = true → Recorded s (startXfer s sid f) 0x13) := by
  have hframe := (StoreFrame.fetchRange s f.dev f.len).eq
  have hring : RingGrows s (fetchRange s f.dev f.len) := (MemoryFrame.fetchRange s f.dev f.len).ring
  have hsession : (fetchRange s f.dev f.len).session sid = s.session sid := by rw [hframe]; rfl
  have hhost : (fetchRange s f.dev f.len).hostOut = s.hostOut := by rw [hframe]
  unfold startXfer sentBytes firstPoisoned
  rw [hout, if_neg (by decide)]
  dsimp only
  cases (poisonedGranules (fetchRange s f.dev f.len) f.dev f.len).head? with
  | none =>
    refine ⟨?_, ?_, fun h => absurd h (by decide)⟩
    · exact congrArg (· ++ _) hhost
    · refine session_modXfer ?_ _ _
      exact hsession
  | some g =>
    refine ⟨?_, ?_, fun _ => ?_⟩
    · exact congrArg (· ++ _) hhost
    · refine session_modXfer ?_ _ _
      exact hsession
    · exact ⟨fetchRange s f.dev f.len, _, rfl, hring, RingGrows.of_eq rfl⟩

/-- An IN transfer that starts pulls its next segment (R417). -/
theorem startXfer_in (s : State) (sid : BitVec 32) (f : Xfer) (hin : f.out = false) :
    SessionFrame s (startXfer s sid f) ∧
      (startXfer s sid f).hostOut = s.hostOut ++ [.pull sid f.xid f.qp f.hbuf (f.hoff + f.moved) f.segment] ∧
      (startXfer s sid f).session sid = { s.session sid with
        xfers := (s.session sid).xfers.map fun y => if y.xid = f.xid then { y with started := true } else y } := by
  unfold startXfer
  rw [hin, if_pos (by decide)]
  exact ⟨rfl, rfl, session_modXfer rfl _ _⟩

/-- A change of the transfer behind others with different numbers. -/
theorem map_last_xfer {l : List Xfer} {f : Xfer} (hnew : (l.any fun t => t.xid == f.xid) = false) (g : Xfer → Xfer) :
    ((l ++ [f]).map fun y => if y.xid = f.xid then g y else y) = l ++ [g f] := by
  have hothers : (l.map fun y => if y.xid = f.xid then g y else y) = l := by
    rw [List.any_eq_false] at hnew
    refine (List.map_congr_left fun y hy => if_neg ?_).trans (List.map_id l)
    simpa using hnew y hy
  rw [List.map_append, hothers]
  simp

/-- The session has a transfer with the number that is not in doubt. -/
def OpenXfer (s : State) (sid xid : BitVec 32) : Prop := ∃ y ∈ (s.session sid).xfers, y.xid = xid ∧ y.inDoubt = false

/-- A changed transfer keeps its number and its doubt. -/
theorem OpenXfer.map {s t : State} {sid xid : BitVec 32} {f : Xfer → Xfer}
    (ht : (t.session sid).xfers = (s.session sid).xfers.map f) (hf : ∀ y, (f y).xid = y.xid ∧ (f y).inDoubt = y.inDoubt)
    (h : OpenXfer s sid xid) : OpenXfer t sid xid := by
  obtain ⟨y, hy, hxid, hdoubt⟩ := h
  exact ⟨f y, ht ▸ List.mem_map_of_mem hy, (hf y).1.trans hxid, (hf y).2.trans hdoubt⟩

theorem OpenXfer.startXfer {s : State} {sid xid : BitVec 32} (f : Xfer) (h : OpenXfer s sid xid) : OpenXfer (startXfer s sid f) sid xid := by
  cases hout : f.out with
  | false =>
    obtain ⟨-, -, hsession⟩ := startXfer_in s sid f hout
    refine h.map (congrArg Session.xfers hsession) fun y => ?_
    split <;> exact ⟨rfl, rfl⟩
  | true =>
    obtain ⟨-, hsession, -⟩ := startXfer_out s sid f hout
    refine h.map (congrArg Session.xfers hsession) fun y => ?_
    split <;> exact ⟨rfl, rfl⟩

theorem OpenXfer.startXfers {s : State} {sid xid : BitVec 32} (h : OpenXfer s sid xid) : OpenXfer (startXfers s sid) sid xid := by
  unfold Machine.startXfers
  split
  · exact foldl_rel (R := fun s t => OpenXfer s sid xid → OpenXfer t sid xid) (fun _ => id) (fun h h' => h' ∘ h) _
      (fun _ f => OpenXfer.startXfer f) _ s h
  · exact h

/-! ### Requests of transfers (R405, R417) -/

/-- The transfer that an XFER request opens into the buffer at a. -/
def inXfer (b : XferBody) (a : Nat) : Xfer :=
  { xid := b.xid, out := false, qp := b.qp, dev := a + b.dstOff, hbuf := b.src, hoff := b.srcOff, len := b.len, started := false, moved := 0
    poisonAt := none, inDoubt := false }

/-- The transfer that an XFER request opens from the buffer at a. -/
def outXfer (b : XferBody) (a : Nat) : Xfer := { inXfer b a with out := true, dev := a + b.srcOff, hbuf := b.dst, hoff := b.dstOff }

/-- Whether a session can take no transfer with a number. -/
def xferTaken (x : Session) (xid : BitVec 32) : Bool := (x.xfers.any fun t => t.xid == xid) || decide (64 ≤ x.xfers.length)

theorem openXfer_in {s : State} {h : ShlHead} (b : XferBody) (hs : Serves s h 0x20 1 1) (hatt : (s.session h.sid).st = .attached) :
    let x := s.session h.sid
    (7 < b.qp → Refused s h 0x02 (openXfer h b false s)) ∧
      (b.qp ≤ 7 → xferTaken x b.xid = true → Refused s h 0x77 (openXfer h b false s)) ∧
      ∀ v, b.qp ≤ 7 → xferTaken x b.xid = false → bufferFault s h.sid b.src.toNat 3 b.srcOff b.len = 0 →
        bufferFault s h.sid b.dst.toNat 1 b.dstOff b.len = 0 → x.buffer b.dst.toNat = some v →
        openXfer h b false s = startXfers (opened s h (inXfer b v.addr)) h.sid := by
  intro x
  unfold openXfer
  simp only [Bool.false_eq_true, if_false, false_and]
  rw [onSession_serves hs, session_served, bufferFault_served, bufferFault_served]
  refine ⟨fun hqp => ?_, fun hqp hdup => ?_, fun v hqp hdup hsrc hdst hv => ?_⟩
  · rw [if_pos hqp]
    exact refused_refuse hatt _
  · rw [if_neg (by omega), if_pos]
    · exact refused_refuse hatt _
    · simp only [xferTaken, Bool.or_eq_true, decide_eq_true_eq] at hdup
      tauto
  · simp only [xferTaken, Bool.or_eq_false_iff, decide_eq_false_iff_not] at hdup
    rw [if_neg (by omega), hsrc, hdst, if_neg (by simpa using hdup), if_neg (by simp)]
    unfold Session.buffer
    dsimp only
    rw [show mget none (s.session h.sid).bufs b.dst.toNat = some v from hv]
    rfl

theorem openXfer_out {s : State} {h : ShlHead} (b : XferBody) {u : Buffer} (hs : Serves s h 0x20 1 0)
    (hqp : b.qp ≤ 7) (hdup : xferTaken (s.session h.sid) b.xid = false)
    (hsrc : bufferFault s h.sid b.src.toNat (if ((s.session h.sid).buffer b.src.toNat).any (fun u => u.kind == 2) then 2 else 1) b.srcOff b.len = 0)
    (hdst : bufferFault s h.sid b.dst.toNat 4 b.dstOff b.len = 0) (hu : (s.session h.sid).buffer b.src.toNat = some u) :
    openXfer h b true s = startXfers (opened s h (outXfer b u.addr)) h.sid := by
  unfold openXfer
  simp only [if_true, true_and]
  rw [onSession_serves hs, session_served, bufferFault_served, bufferFault_served]
  simp only [xferTaken, Bool.or_eq_false_iff, decide_eq_false_iff_not] at hdup
  unfold Session.buffer at *
  dsimp only
  rw [if_neg (by omega), hsrc, hdst, hu, if_neg (by simpa using hdup), if_neg (by simp)]
  rfl

/-! ### The end of transfers (R417, R418, R424) -/

/-- A transfer has ended: it has left its session, and the session has one more event. -/
def XferEnded (s t : State) (sid : BitVec 32) (f : Xfer) : Prop :=
  (t.session sid).xfers = (s.session sid).xfers.filter (fun y => y.xid != f.xid) ∧ (t.session sid).eseq = (s.session sid).eseq + 1

theorem endXfer_spec {s : State} {sid : BitVec 32} (hatt : (s.session sid).st = .attached) (f : Xfer) (status moved : Nat) :
    SessionFrame s (endXfer s sid f status moved) ∧ XferEnded s (endXfer s sid f status moved) sid f := by
  let left : Session → Session := fun x => { x with xfers := x.xfers.filter fun u => u.xid != f.xid }
  have hleft : SessionFrame s (s.modSession sid left) := rfl
  constructor
  · exact hleft.trans (SessionFrame.postTo _ _ _ _)
  · obtain ⟨n, evs, ev, hsession, hn⟩ := postTo_session (s.modSession sid left) sid status (.xfer f.xid moved f.poisonAt)
    rw [session_modSession] at hsession hn
    exact ⟨congrArg Session.xfers hsession, (congrArg Session.eseq hsession).trans (hn (.inl hatt))⟩

end Sys2Proof.Machine

namespace Sys2Proof.Machine

/-! ### Outcomes of the transfers' commands (R417, R418, R424) -/

/-- A transfer that has been opened behind others starts when the session's transfers go on. -/
theorem startXfers_opened {s : State} {h : ShlHead} {f : Xfer} (hatt : (s.session h.sid).st = .attached)
    (hidle : ((s.session h.sid).xfers.all fun t => t.started || t.inDoubt) = true) (hnew : f.started = false ∧ f.inDoubt = false) :
    startXfers (opened s h f) h.sid = if mayProceed s h.sid then startXfer (opened s h f) h.sid f else opened s h f := by
  obtain ⟨hside, hsession⟩ := opened_spec s h f hatt
  have hgo : mayProceed (opened s h f) h.sid = mayProceed s h.sid :=
    mayProceed_congr (by rw [hside]; rfl) (by rw [hsession]) (by rw [hsession])
  rw [startXfers_last ((congrArg Session.st hsession).trans hatt) (congrArg Session.xfers hsession) hidle hnew, hgo]

/-- The first poisoned granule of a transfer, and the bytes it sends, do not depend on the host's side. -/
theorem firstPoisoned_hostSide (s : State) (x : SMap Session) (o : List HostMsg) (p : SMap HostPort) (f : Xfer) :
    firstPoisoned (hostSide s x o p) f = firstPoisoned s f := by
  unfold firstPoisoned
  rw [hostSide_fetchRange]
  rfl

/-- An OUT transfer that starts when it is opened (R417, R418). -/
theorem startXfer_opened_out {s : State} {h : ShlHead} {f : Xfer} (hatt : (s.session h.sid).st = .attached)
    (hfree : xferTaken (s.session h.sid) f.xid = false) (hout : f.out = true) :
    let t := startXfer (opened s h f) h.sid f
    t.hostOut = s.hostOut ++ .ok h.sid h.tag :: pushSegments h.sid f (readB (fetchRange s f.dev f.len) f.dev (sentBytes s f)) ∧
      (t.session h.sid).xfers = (s.session h.sid).xfers ++
        [{ f with started := true, moved := sentBytes s f, poisonAt := (firstPoisoned s f).map fun g => 64 * g - f.dev }] ∧
      ((firstPoisoned s f).isSome = true → Recorded s t 0x13) := by
  intro t
  obtain ⟨hside, hsession⟩ := opened_spec s h f hatt
  obtain ⟨hsent, hleft, hbite⟩ := startXfer_out (opened s h f) h.sid f hout
  have hfirst : firstPoisoned (opened s h f) f = firstPoisoned s f :=
    (congrArg (firstPoisoned · f) hside).trans (firstPoisoned_hostSide s _ _ _ f)
  have hbytes : sentBytes (opened s h f) f = sentBytes s f := by
    unfold sentBytes
    rw [hfirst]
  have hread : readB (fetchRange (opened s h f) f.dev f.len) f.dev (sentBytes s f) =
      readB (fetchRange s f.dev f.len) f.dev (sentBytes s f) :=
    (congrArg (fun u => readB (fetchRange u f.dev f.len) f.dev (sentBytes s f)) hside).trans
      (by rw [hostSide_fetchRange]; rfl)
  rw [hbytes, hread, show (opened s h f).hostOut = _ from congrArg State.hostOut hside] at hsent
  rw [hbytes, hfirst] at hleft
  rw [hfirst] at hbite
  refine ⟨hsent.trans (by simp [hostSide]), (congrArg Session.xfers hleft).trans ?_, fun hbad => ?_⟩
  · rw [hsession]
    simp only [xferTaken, Bool.or_eq_false_iff] at hfree
    exact map_last_xfer hfree.1 _
  · exact (hbite hbad).after (RingGrows.of_eq (by rw [hside]; rfl))

/-- A segment of an IN transfer is in memory, and its transfer ends or pulls the next; none lands in the group table (R395, R417). -/
theorem placeSegment_spec {s : State} {sid : BitVec 32} {f : Xfer} (data : List Byte) (hatt : (s.session sid).st = .attached)
    (hfound : f ∈ (s.session sid).xfers) :
    let t := placeSegment s sid f data
    let moved := f.moved + data.length
    if groupTableHit s (f.dev + f.moved) data.length then XferEnded s t sid f ∧ t.mem = s.mem ∧ Recorded s t 0x07
    else Stores s t (f.dev + f.moved) data ∧
      if moved = f.len then XferEnded s t sid f
      else (∃ y ∈ (t.session sid).xfers, y.xid = f.xid ∧ y.moved = moved) ∧
        t.hostOut = s.hostOut ++ [.pull sid f.xid f.qp f.hbuf (f.hoff + moved) (min (2 ^ 20) (f.len - moved))] := by
  intro t moved
  simp only [t]
  unfold placeSegment
  split
  · let u := s.hostRec (s.session sid).port 0x07 (opidHost sid f.xid.toNat)
    obtain ⟨hframe, hended⟩ := endXfer_spec (s := u) (sid := sid) hatt f 0x07 f.moved
    exact ⟨hended, by rw [hframe.eq]; rfl, s, _, rfl, RingGrows.refl s, RingGrows.of_eq (by rw [hframe.eq]; rfl)⟩
  · let u := store s (f.dev + f.moved) (clean data)
    have hstore : Stores s u (f.dev + f.moved) data := by
      have hstores := store_stores s (f.dev + f.moved) (clean data)
      rwa [show (clean data).map (·.1) = data from by simp [clean, Function.comp_def]] at hstores
    have hu := (StoreFrame.store s (f.dev + f.moved) (clean data)).eq
    have hsession : u.session sid = s.session sid := by
      unfold u
      rw [hu]
      rfl
    have hout : u.hostOut = s.hostOut := by
      unfold u
      rw [hu]
    dsimp only
    split
    · let g : Xfer := { f with moved := moved }
      obtain ⟨hframe, hended⟩ := endXfer_spec (s := u) (sid := sid) (by rw [hsession, hatt]) g 0 g.len
      refine ⟨?_, ?_⟩
      · have hbytes : (endXfer u sid g 0 g.len).byte = u.byte := by
          rw [hframe.eq]
          rfl
        unfold Stores
        rw [hbytes]
        exact hstore
      · unfold XferEnded at hended ⊢
        rwa [hsession] at hended
    · refine ⟨hstore, ⟨{ f with moved := moved }, ?_, rfl, rfl⟩, ?_⟩
      · have hxfers := congrArg Session.xfers (session_modXfer hsession f.xid fun _ => { f with moved := moved })
        refine hxfers ▸ List.mem_map.2 ⟨f, hfound, if_pos rfl⟩
      · exact congrArg (· ++ _) hout

/-- The acknowledgement of every write ends an OUT transfer; a segment of an IN transfer is placed (R417, R418). -/
theorem xferComplete_spec {s : State} {sid : BitVec 32} {f : Xfer} (data : List Byte) (hatt : (s.session sid).st = .attached)
    (hidle : ((s.session sid).xfers.all fun t => t.started || t.inDoubt) = true)
    (hf : ((s.session sid).xfers.find? fun t => t.xid == f.xid) = some f) (hrun : f.started = true ∧ f.inDoubt = false) :
    (f.out = true → xferComplete sid f.xid data s = endXfer s sid f (if f.poisonAt.isSome then 0x13 else 0) f.moved) ∧
      (f.out = false → s.stopped = false → data.length = f.segment → xferComplete sid f.xid data s = placeSegment s sid f data) := by
  have hcond : (!f.started || f.inDoubt || (s.session sid).st != .attached) = false := by simp [hrun, hatt]
  unfold xferComplete
  dsimp only
  rw [startXfers_idle hidle, hf]
  dsimp only
  rw [if_neg (by simp [hcond])]
  refine ⟨fun hout => if_pos hout, fun hin hgo hlen => ?_⟩
  rw [if_neg (by simp [hin]), if_neg (by simp [hgo, hlen])]

/-- RESOLVE of a transfer in doubt starts it again or ends it with its record; of another it is refused (R424). -/
theorem resolve_spec {s : State} {h : ShlHead} (f : Xfer) (hs : Serves s h 0x21 2 1) (hatt : (s.session h.sid).st = .attached) :
    let doubted := (s.session h.sid).xfers.find? fun t => t.xid == f.xid && t.inDoubt
    (doubted = none → ∀ again, Refused s h 0x77 (resolve h f.xid again s)) ∧
      (doubted = some f → OpenXfer (resolve h f.xid true s) h.sid f.xid ∧
        XferEnded s (resolve h f.xid false s) h.sid f ∧ Recorded s (resolve h f.xid false s) 0x79) := by
  intro doubted
  obtain ⟨hside, hsession⟩ := okReply_served s h hatt
  have hxfers : ((served s h).session h.sid).xfers = (s.session h.sid).xfers := by rw [session_served]
  unfold resolve
  simp only [onSession_serves hs, hxfers]
  refine ⟨fun hnone again => ?_, fun hsome => ?_⟩
  · rw [show List.find? _ _ = none from hnone]
    exact refused_refuse hatt _
  rw [show List.find? _ _ = some f from hsome]
  dsimp only
  rw [if_pos trivial, if_neg Bool.false_ne_true]
  refine ⟨OpenXfer.startXfers ?_, ?_⟩
  · let waits : Xfer → Xfer := fun t => { t with started := false, inDoubt := false, moved := 0, poisonAt := none }
    have hagain : ((modXfer (okReply h (served s h)) h.sid f.xid waits).session h.sid).xfers =
        (s.session h.sid).xfers.map fun t => if t.xid = f.xid then waits t else t := by
      rw [session_modXfer rfl, hsession]
    exact ⟨_, hagain ▸ List.mem_map_of_mem (List.mem_of_find?_eq_some hsome), by simp [waits]⟩
  · let i : RecInfo := { code := 0x79, uclass := 0xA, uinst := h.port.val, opid := opidHost h.sid f.xid.toNat }
    let u := (okReply h (served s h)).emit i
    have hu : u.session h.sid = _ := hsession
    obtain ⟨hframe, hended⟩ := endXfer_spec (s := u) (sid := h.sid) (by rw [hu]; exact hatt) f 0x79 f.moved
    unfold XferEnded at hended ⊢
    rw [hu] at hended
    refine ⟨hended, okReply h (served s h), i, rfl, RingGrows.of_eq (by rw [hside]; rfl), RingGrows.of_eq ?_⟩
    show (endXfer u h.sid f 0x79 f.moved).errRing = u.errRing
    rw [hframe.eq]

/-! ### Tier sources and checkpoint destinations (R405, R419, R420) -/

/-- TIER_SRC of a table takes a source that passes every check, and refuses another (R419). -/
theorem tierSrc_spec {s : State} {h : ShlHead} {tab : TableDesc} (id first last : Nat) (buf : BitVec 8) (hoff stride : Nat)
    (hs : Serves s h 0x22 3 1) (hatt : (s.session h.sid).st = .attached) (htab : tableOf s id = some tab) :
    let t := tierSrc h id first last buf hoff stride s
    let fault := bufferFault s h.sid buf.toNat 3 hoff ((last - first) * stride + tRec tab)
    let bad := !tTier tab || decide (last < first) || decide (tLrows tab ≤ last) || s.tierSources.any fun y => recordsOverlap y id first last
    let odd := stride % 64 ≠ 0 ∨ stride < tRec tab
    (odd → Refused s h 0x02 t) ∧ (¬ odd → bad = true → Refused s h 0x78 t) ∧
      (¬ odd → bad = false → fault ≠ 0 → Refused s h fault t) ∧
      (¬ odd → bad = false → fault = 0 →
        t = okReply h { served s h with tierSources := s.tierSources ++ [⟨h.sid, id, first, last, buf, hoff, stride⟩] }) := by
  intro t fault bad odd
  have ht : t = if odd then refuse h 0x02 (served s h) else if bad then refuse h 0x78 (served s h)
      else if fault ≠ 0 then refuse h fault (served s h)
      else okReply h { served s h with tierSources := s.tierSources ++ [⟨h.sid, id, first, last, buf, hoff, stride⟩] } := by
    simp only [t, tierSrc]
    rw [onSession_serves hs, show tableOf (served s h) id = some tab from htab]
    dsimp only
    rw [bufferFault_served]
    rfl
  rw [ht]
  refine ⟨fun hodd => ?_, fun hodd hbad => ?_, fun hodd hbad hfault => ?_, fun hodd hbad hfault => ?_⟩
  · rw [if_pos hodd]
    exact refused_refuse hatt _
  · rw [if_neg hodd, if_pos hbad]
    exact refused_refuse hatt _
  · rw [if_neg hodd, if_neg (by simp [hbad]), if_pos hfault]
    exact refused_refuse hatt _
  · rw [if_neg hodd, if_neg (by simp [hbad]), if_neg (not_not_intro hfault)]

/-- CKPT_DEST takes a buffer that passes its check, and refuses another (R420). -/
theorem ckptDestMsg_spec {s : State} {h : ShlHead} (buf : BitVec 8) (off : Nat) (hs : Serves s h 0x23 3 1)
    (hatt : (s.session h.sid).st = .attached) :
    let t := ckptDestMsg h buf off s
    let fault := bufferFault s h.sid buf.toNat 4 off 0
    if fault ≠ 0 then Refused s h fault t else t = okReply h { served s h with ckptDest := some (h.sid, buf, off) } := by
  intro t fault
  have ht : t = if fault ≠ 0 then refuse h fault (served s h) else okReply h { served s h with ckptDest := some (h.sid, buf, off) } := by
    simp only [t, ckptDestMsg]
    rw [onSession_serves hs, bufferFault_served]
  split
  case isTrue hbad =>
    rw [ht, if_pos hbad]
    exact refused_refuse hatt _
  case isFalse hgood => rw [ht, if_neg hgood]

/-- Settles O45: each command of the transfers by what its session's open transfers and buffers let it do. -/
theorem hostTransfers : Obligations.HostTransfers := by
  unfold Obligations.HostTransfers
  intro s h b u v f data tab first last hoff stride buf off x ok refuses idle dup ended tin tout s1 bad sends srcFault place moved
  refine ⟨fun hs => ?_, fun hs hqp hdup hidle hsrc hdst hu => ?_, fun hlive hatt hidle hf hstarted hdoubt => ?_, fun hs => ?_, fun hs id htab => ?_,
    fun hs => ?_⟩
  · have hlive := hs.1
    have hatt : x.st = .attached := hs.2.2.2.2.1
    have hexec : exec (.xferIn h b) s = .next (openXfer h b false s) := congrArg Host.Outcome.next (if_pos hlive)
    obtain ⟨hplace, htaken, haccept⟩ := openXfer_in b hs hatt
    refine ⟨fun hqp => (hplace hqp).exec hexec, fun hqp hdup => (htaken hqp hdup).exec hexec, fun hqp hdup hidle hsrc hdst hv => ?_⟩
    refine ⟨_, hexec, ?_⟩
    rw [haccept v hqp hdup hsrc hdst hv, startXfers_opened hatt hidle ⟨rfl, rfl⟩]
    obtain ⟨hside, hsession⟩ := opened_spec s h (inXfer b v.addr) hatt
    split
    · obtain ⟨hframe, hsent, hleft⟩ := startXfer_in (opened s h (inXfer b v.addr)) h.sid (inXfer b v.addr) rfl
      refine ⟨?_, ?_, ?_⟩
      · rw [hframe.eq, hside]
        rfl
      · rw [hleft, hsession]
        exact map_last_xfer (Bool.or_eq_false_iff.1 hdup).1 _
      · rw [hsent, hside]
        exact List.append_assoc _ _ _
    · refine ⟨?_, ?_, ?_⟩
      · rw [hside]
        rfl
      · rw [hsession]
        rfl
      · rw [hside]
        rfl
  · have hlive := hs.1
    have hatt : x.st = .attached := hs.2.2.2.2.1
    refine ⟨openXfer h b true s, congrArg Host.Outcome.next (if_pos hlive), ?_⟩
    rw [openXfer_out b hs hqp hdup hsrc hdst hu, startXfers_opened hatt hidle ⟨rfl, rfl⟩]
    split
    · obtain ⟨hsent, hleft, hbite⟩ := startXfer_opened_out (f := outXfer b u.addr) hatt hdup rfl
      refine ⟨hsent, ⟨_, hleft ▸ List.mem_append_right _ (List.mem_singleton_self _), rfl, rfl, rfl, ?_⟩, fun hbad => ?_⟩
      · exact Option.isSome_map
      · exact (hbite hbad).exists_rec
    · obtain ⟨hside, hsession⟩ := opened_spec s h (outXfer b u.addr) hatt
      refine ⟨?_, ?_⟩
      · rw [hsession]
        rfl
      · rw [hside]
        rfl
  · obtain ⟨hdone, hplaced⟩ := xferComplete_spec data hatt hidle hf ⟨hstarted, hdoubt⟩
    have hexec : exec (.xferComplete h.sid f.xid data) s = .next (xferComplete h.sid f.xid data s) := congrArg Host.Outcome.next (if_pos hlive)
    refine ⟨fun hout => ⟨_, hexec, ?_⟩, fun hin hgo hlen => ⟨_, hexec, ?_⟩⟩
    · rw [hdone hout]
      obtain ⟨hframe, hended⟩ := endXfer_spec hatt f (if f.poisonAt.isSome then 0x13 else 0) f.moved
      exact ⟨hended, by rw [hframe.eq]⟩
    · rw [hplaced hin hgo hlen]
      have hspec := placeSegment_spec data hatt (List.mem_of_find?_eq_some hf)
      split
      case isTrue hhit =>
        rw [if_pos hhit] at hspec
        obtain ⟨hended, hmem, hrec⟩ := hspec
        exact ⟨hended, hmem, hrec.exists_rec⟩
      case isFalse hmiss => rwa [if_neg hmiss] at hspec
  · have hlive := hs.1
    have hexec : exec (.resolveResend h f.xid) s = .next (resolve h f.xid true s) := congrArg Host.Outcome.next (if_pos hlive)
    have hexec' : exec (.resolveAbort h f.xid) s = .next (resolve h f.xid false s) := congrArg Host.Outcome.next (if_pos hlive)
    obtain ⟨hnone, hsome⟩ := resolve_spec f hs hs.2.2.2.2.1
    refine ⟨fun hno => ⟨(hnone hno true).exec hexec, (hnone hno false).exec hexec'⟩, fun hf => ?_⟩
    obtain ⟨hagain, hended, hrec⟩ := hsome hf
    exact ⟨⟨_, hexec, hagain⟩, _, hexec', hended, hrec.exists_rec⟩
  · intro i fault bad
    have hexec : exec i s = .next (tierSrc h id first last buf hoff stride s) := congrArg Host.Outcome.next (if_pos hs.1)
    obtain ⟨hodd, hbad, hfault, haccept⟩ := tierSrc_spec id first last buf hoff stride hs hs.2.2.2.2.1 htab
    refine ⟨fun h' => (hodd h').exec hexec, fun halign hlong => ?_⟩
    have heven : ¬ (stride % 64 ≠ 0 ∨ stride < tRec tab) := by omega
    refine ⟨fun h' => (hbad heven h').exec hexec, fun h' h'' => (hfault heven h' h'').exec hexec, fun h' h'' => ⟨_, hexec, ?_⟩⟩
    rw [haccept heven h' h'', okReply_hostSide]
    exact ⟨rfl, rfl⟩
  · have hexec : exec (.ckptDest h buf off) s = .next (ckptDestMsg h buf off s) := congrArg Host.Outcome.next (if_pos hs.1)
    have hspec := ckptDestMsg_spec buf off hs hs.2.2.2.2.1
    split
    case isTrue hbad =>
      rw [if_pos hbad] at hspec
      exact hspec.exec hexec
    case isFalse hgood =>
      rw [if_neg hgood] at hspec
      refine ⟨_, hexec, ?_⟩
      rw [hspec, okReply_hostSide]
      exact ⟨rfl, rfl⟩

end Sys2Proof.Machine

/-! ## What the steps of an exchange leave (O39) -/

namespace Sys2Proof.Machine

/-! ### Operations, descriptors and tokens (R133, R160, R336) -/

/-- What a core keeps of its descriptors and tokens. -/
def Core.posted (k : Core) : List PlacedDesc × SMap (BitVec 32) := (k.descs, k.tokens)

/-- The name of an operation (R336). -/
def XOp.name (o : XOp) : BitVec 32 × BitVec 16 := (o.step, o.descId)

/-- The name of an operation and what it was opened with. -/
def XOp.ident (o : XOp) : (BitVec 32 × BitVec 16) × Nat × Desc × Nat × Nat := (o.name, o.kind, o.desc, o.eng, o.core)

theorem isFor_iff (o : XOp) (st : BitVec 32) (id : BitVec 16) : o.isFor st id = true ↔ o.name = (st, id) := by
  simp [XOp.isFor, XOp.name]

/-- The operations and what the cores keep have stayed, and records have only been added. -/
structure EngineFrame (s t : State) : Prop where
  xops : t.xops = s.xops
  posted : ∀ c, (t.core c).posted = (s.core c).posted
  ring : RingGrows s t

namespace EngineFrame

theorem refl (s : State) : EngineFrame s s := ⟨rfl, fun _ => rfl, RingGrows.refl s⟩

theorem trans {s t u : State} (h : EngineFrame s t) (h' : EngineFrame t u) : EngineFrame s u :=
  ⟨h'.xops.trans h.xops, fun c => (h'.posted c).trans (h.posted c), h.ring.trans h'.ring⟩

theorem foldl {β : Type} (f : State → β → State) (hf : ∀ s x, EngineFrame s (f s x)) (l : List β) (s : State) :
    EngineFrame s (l.foldl f s) := foldl_rel refl trans f hf l s

/-- A change of other parts of the state. -/
theorem of_eq {s t : State} (hx : t.xops = s.xops) (hc : t.cores = s.cores) (hr : t.errRing = s.errRing) : EngineFrame s t :=
  ⟨hx, fun c => by rw [State.core, hc, State.core], RingGrows.of_eq hr⟩

theorem of_fabricFrame {s t : State} (h : FabricFrame s t) : EngineFrame s t := by
  rw [h.eq]
  exact of_eq rfl rfl rfl

theorem ship (s : State) (m : OutMsg) : EngineFrame s (ship s m) := of_fabricFrame (FabricFrame.ship s m)

theorem emit (s : State) (i : RecInfo) : EngineFrame s (s.emit i) := ⟨rfl, fun _ => rfl, RingGrows.emit s i⟩

theorem fetchRange (s : State) (a n : Nat) : EngineFrame s (fetchRange s a n) := by
  have hframe := (StoreFrame.fetchRange s a n).eq
  refine ⟨by rw [hframe], fun c => ?_, (MemoryFrame.fetchRange s a n).ring⟩
  rw [hframe]
  rfl

theorem modCore (s : State) (c : Nat) (f : Core → Core) (hf : ∀ k, (f k).posted = k.posted) : EngineFrame s (s.modCore c f) := by
  refine ⟨rfl, fun d => ?_, RingGrows.of_eq rfl⟩
  rw [core_modCore]
  split
  · exact hf _
  · rfl

theorem outsideStore (s : State) (a : Nat) (bs : List PByte) : EngineFrame s (outsideStore s a bs) := by
  have hframe := OutsideFrame.outsideStore s a bs
  refine ⟨by rw [hframe.state], fun c => ?_, hframe.ring⟩
  have hstored : ∀ t : State, StoreFrame s t → (t.core c).posted = (s.core c).posted := fun t ht => by
    rw [ht.eq]
    rfl
  unfold Machine.outsideStore
  split
  · unfold tileWrite
    dsimp only
    split
    · rfl
    · split
      · refine (modCore s _ _ ?_).posted c
        exact fun _ => rfl
      · exact hstored _ (StoreFrame.writeP s a bs)
  · exact hstored _ (StoreFrame.store s a bs)

/-- The open operations are the same. -/
theorem xopOf {s t : State} (h : EngineFrame s t) (st : BitVec 32) (id : BitVec 16) : xopOf t st id = xopOf s st id := by
  unfold Machine.xopOf
  rw [h.xops]

/-! Reservations -/

theorem reserve {s : State} {src size : Nat} {use : LandingUse} {x : State × Nat} (h : reserve s src size use = some x) :
    EngineFrame s x.1 := by
  unfold Machine.reserve at h
  split at h
  · obtain rfl := Option.some.inj h
    exact of_eq rfl rfl rfl
  · exact absurd h (by simp)

theorem grantSegment {s t : State} {o : XOp} {peer : Nat} {spent : Bool} (h : grantSegment s o peer spent = some t) : EngineFrame s t := by
  unfold Machine.grantSegment at h
  obtain ⟨x, hx, rfl⟩ := Option.map_eq_some_iff.1 h
  have hspent : EngineFrame x.1 { x.1 with landings := mmod none x.1.landings x.2 fun l => l.map fun l => { l with spent := spent } } :=
    of_eq rfl rfl rfl
  exact ((reserve hx).trans hspent).trans (ship _ _)

theorem countMessage (m : CountMsg) (s : State) : EngineFrame s (countMessage m s) := by
  have hreleased : ∀ t : State, EngineFrame t (releaseTo t m.requester 64) := fun t => of_fabricFrame (FabricFrame.releaseTo t _ _)
  have hkept : ∀ t : State, EngineFrame t { t with counts := t.counts ++ [m] } := fun _ => of_eq rfl rfl rfl
  unfold Machine.countMessage
  split
  · exact refl s
  · dsimp only
    split
    · exact (hkept s).trans (hreleased _)
    · split
      · exact of_eq rfl rfl rfl
      · rename_i t tag hres
        exact (((reserve hres).trans (hkept t)).trans (ship _ _)).trans (hreleased _)

theorem lookupGrant (g : GrantPkt) (s : State) : EngineFrame s (lookupGrant g s) := by
  unfold Machine.lookupGrant
  split
  · exact refl s
  · split
    · exact refl s
    · split
      · exact refl s
      · dsimp only
        split
        · exact of_eq rfl rfl rfl
        · rename_i u tag hres
          have hmod : ∀ (v : State) b i f, EngineFrame v (modLookup v b i f) := fun _ _ _ _ => of_eq rfl rfl rfl
          exact ((reserve hres).trans (ship _ _)).trans (hmod _ _ _ _)

theorem retryTags (s : State) : EngineFrame s (retryTags s) := by
  have hnone : EngineFrame s { s with tagWait := [] } := of_eq rfl rfl rfl
  refine hnone.trans (foldl _ (fun t w => ?_) _ _)
  cases w with
  | count m => exact countMessage m t
  | grant g => exact lookupGrant g t

/-! Folding and output -/

theorem countConvs (s : State) (o : XOp) (cs : List Conv) : EngineFrame s (countConvs s o cs) := of_eq rfl rfl rfl

theorem spendFull (s : State) (k : Packet) : EngineFrame s (spendFull s k) := by
  unfold Machine.spendFull
  split
  · exact of_eq rfl rfl rfl
  · exact refl s

theorem spendStage (s : State) (o : XOp) (peer : Nat) : EngineFrame s (spendStage s o peer) := of_eq rfl rfl rfl

theorem writeElems (s : State) (o : XOp) (pos idx : Nat) (ts : List XLane) : EngineFrame s (writeElems s o pos idx ts).1 :=
  (countConvs s o _).trans (outsideStore _ _ _)

theorem grantPiece (s : State) (o : XOp) (peer n : Nat) : EngineFrame s (grantPiece s o peer n) := by
  refine foldl _ (fun t _ => ?_) _ s
  cases h : Machine.grantSegment t o peer true with
  | none => exact refl t
  | some u => exact grantSegment h

theorem grantPieces (s : State) (o : XOp) (p : Program) : EngineFrame s (grantPieces s o p) := by
  unfold Machine.grantPieces
  split
  · exact refl s
  · exact foldl _ (fun t r => grantPiece t o r _) _ s

theorem freeXopOutput (s : State) (o : XOp) : EngineFrame s (freeXopOutput s o) := by
  have hdraw : ∀ n, EngineFrame s { s with fresh := n } := fun _ => of_eq rfl rfl rfl
  unfold Machine.freeXopOutput
  dsimp only
  split
  · exact refl s
  · exact (hdraw _).trans (outsideStore _ _ _)

end EngineFrame

/-! ### The operation that an engine works on (R339 to R342) -/

/-- A step of an engine on an operation: the state's operations stay, and the operation keeps what it was opened with. -/
structure WorkStep (x y : State × XOp) : Prop where
  frame : EngineFrame x.1 y.1
  ident : y.2.ident = x.2.ident

namespace WorkStep

theorem refl (x : State × XOp) : WorkStep x x := ⟨EngineFrame.refl _, rfl⟩

theorem trans {x y z : State × XOp} (h : WorkStep x y) (h' : WorkStep y z) : WorkStep x z :=
  ⟨h.frame.trans h'.frame, h'.ident.trans h.ident⟩

theorem foldl {β : Type} (f : State × XOp → β → State × XOp) (hf : ∀ x b, WorkStep x (f x b)) (l : List β) (x : State × XOp) :
    WorkStep x (l.foldl f x) := foldl_rel refl trans f hf l x

theorem flushOut (s : State) (o : XOp) : WorkStep (s, o) (flushOut s o) := by
  have hempty : WorkStep (s, o) (s, { o with outbox := [] }) := ⟨EngineFrame.refl _, rfl⟩
  refine hempty.trans (foldl _ (fun x w => ?_) _ _)
  dsimp only
  split
  · exact ⟨EngineFrame.refl _, rfl⟩
  · have hused : ∀ g, EngineFrame x.1 { x.1 with grants := g } := fun _ => EngineFrame.of_eq rfl rfl rfl
    exact ⟨(hused _).trans (EngineFrame.ship _ _), rfl⟩

theorem sendPartials (s : State) (o : XOp) (p : Program) (axis chunk folds first : Nat) (ts : List XLane) :
    WorkStep (s, o) (sendPartials s o p axis chunk folds first ts) := ⟨EngineFrame.countConvs s o _, rfl⟩

theorem passOn (s : State) (o : XOp) (p : Program) (axis n chunk folds first : Nat) (ts : List XLane) :
    WorkStep (s, o) (passOn s o p axis n chunk folds first ts) := by
  have hhandled : WorkStep (s, o) (s, { o with handled := o.handled + ts.length }) := ⟨EngineFrame.refl _, rfl⟩
  unfold Machine.passOn
  dsimp only
  split
  · exact ⟨EngineFrame.refl _, rfl⟩
  · exact hhandled.trans (sendPartials _ _ _ _ _ _ _ _)

theorem beginStage (s : State) (o : XOp) (p : Program) : WorkStep (s, o) (beginStage s o p) := by
  unfold Machine.beginStage
  split
  · exact refl _
  · exact foldl _ (fun y c => passOn y.1 y.2 _ _ _ _ _ _ _) _ _

theorem absorb (p : Program) (x : State × XOp) (k : Packet) : WorkStep x (absorb p x k) := by
  have hspent : WorkStep x (spendFull x.1 k, x.2) := ⟨EngineFrame.spendFull _ _, rfl⟩
  unfold Machine.absorb
  dsimp only
  split
  · exact ⟨EngineFrame.refl _, rfl⟩
  · split <;> exact hspent.trans (passOn _ _ _ _ _ _ _ _ _)

theorem startGather (s : State) (o : XOp) (p : Program) : WorkStep (s, o) (startGather s o p) :=
  ⟨EngineFrame.writeElems s o _ _ _, rfl⟩

theorem finishReduce (s : State) (o : XOp) (p : Program) : WorkStep (s, o) (finishReduce s o p) := by
  unfold Machine.finishReduce
  split
  · exact ⟨EngineFrame.writeElems s o _ _ _, rfl⟩
  · exact startGather s o p

theorem nextStage (s : State) (o : XOp) (p : Program) : (nextStage s o p).ident = o.ident := by
  unfold Machine.nextStage
  split <;> rfl

theorem advanceStages (p : Program) (n : Nat) (x : State × XOp) : WorkStep x (advanceStages p n x) := by
  induction n generalizing x with
  | zero => exact refl x
  | succ n ih =>
    obtain ⟨s, o⟩ := x
    unfold Machine.advanceStages
    dsimp -zeta only
    split
    · exact refl _
    · extract_lets kept s' o'
      have hspent : WorkStep (s, o) (s', o') := by
        refine ⟨?_, nextStage s' o p⟩
        unfold s'
        split
        · exact EngineFrame.spendStage _ _ _
        · exact EngineFrame.refl _
      split
      · exact hspent.trans (finishReduce s' o' p)
      · exact ((hspent.trans (beginStage s' o' p)).trans (foldl _ (absorb p) kept _)).trans (ih _)

end WorkStep

end Sys2Proof.Machine

/-! ## Exchange operations (O39) -/

namespace Sys2Proof.Machine

/-! ### Operations that stay open (R336, R341) -/

/-- Operations have kept their names and what they were opened with, the cores what they keep, and records have only been added. -/
structure OpsFrame (s t : State) : Prop where
  names : t.xops.map XOp.name = s.xops.map XOp.name
  idents : ∀ y ∈ t.xops, ∃ x ∈ s.xops, x.ident = y.ident
  posted : ∀ c, (t.core c).posted = (s.core c).posted
  ring : RingGrows s t

/-- One round of the grants that an engine owes (R341). The reduction must not look into a reservation, which searches all tags. -/
theorem grantOwed_succ (e n : Nat) (s : State) :
    grantOwed e (n + 1) s = match s.xops.find? fun o => o.eng == e && !o.owed.isEmpty with
      | none => s
      | some o =>
        if (s.landings.filter fun x => x.2.any (inBuffer s e)).length < bufferSegments then
          match o.owed with
          | [] => s
          | (peer, m) :: rest =>
            match grantSegment s o peer false with
            | none => s
            | some t => grantOwed e n (putXop t { o with owed := if m ≤ 1 then rest else (peer, m - 1) :: rest })
        else s := by
  delta grantOwed grantOwed._f
  generalize grantSegment = grant
  rfl

namespace OpsFrame

theorem of_engineFrame {s t : State} (h : EngineFrame s t) : OpsFrame s t :=
  ⟨by rw [h.xops], fun y hy => ⟨y, h.xops ▸ hy, rfl⟩, h.posted, h.ring⟩

theorem refl (s : State) : OpsFrame s s := of_engineFrame (EngineFrame.refl s)

theorem trans {s t u : State} (h : OpsFrame s t) (h' : OpsFrame t u) : OpsFrame s u := by
  refine ⟨h'.names.trans h.names, fun z hz => ?_, fun c => (h'.posted c).trans (h.posted c), h.ring.trans h'.ring⟩
  obtain ⟨y, hy, hyz⟩ := h'.idents z hz
  obtain ⟨x, hx, hxy⟩ := h.idents y hy
  exact ⟨x, hx, hxy.trans hyz⟩

/-- An operation put back by one opened with the same. -/
theorem putXop {s : State} {o : XOp} (ho : ∃ x ∈ s.xops, x.ident = o.ident) : OpsFrame s (putXop s o) := by
  refine ⟨?_, fun y hy => ?_, fun _ => rfl, RingGrows.of_eq rfl⟩
  · show (s.xops.map fun x => if x.isFor o.step o.descId then o else x).map XOp.name = _
    rw [List.map_map]
    refine List.map_congr_left fun x _ => ?_
    by_cases hx : x.isFor o.step o.descId = true
    · rw [Function.comp_apply, if_pos hx]
      exact ((isFor_iff x _ _).1 hx).symm
    · rw [Function.comp_apply, if_neg hx]
  · obtain ⟨x, hx, rfl⟩ := List.mem_map.1 hy
    split
    · exact ho
    · exact ⟨x, hx, rfl⟩

theorem grantOwed (e n : Nat) (s : State) : OpsFrame s (grantOwed e n s) := by
  induction n generalizing s with
  | zero => exact refl s
  | succ n ih =>
    rw [grantOwed_succ]
    split
    · exact refl s
    · rename_i o ho
      split
      · split
        · exact refl s
        · split
          · exact refl s
          · rename_i t ht
            have hgranted := EngineFrame.grantSegment ht
            have hmem : o ∈ t.xops := hgranted.xops ▸ List.mem_of_find?_eq_some ho
            refine ((of_engineFrame hgranted).trans (putXop ⟨o, hmem, ?_⟩)).trans (ih _)
            rfl
      · exact refl s

/-- An engine's operation goes on. -/
theorem settle (p : Program) {x : State × XOp} (ho : ∃ y ∈ x.1.xops, y.ident = x.2.ident) : OpsFrame x.1 (settle p x) := by
  unfold Machine.settle
  extract_lets y o' o z
  have hy : WorkStep x y := WorkStep.advanceStages p 5 x
  have ho' : WorkStep x (y.1, o) := by
    refine ⟨hy.frame, ?_⟩
    unfold o
    split <;> exact hy.ident
  have hz : WorkStep x z := ho'.trans (WorkStep.flushOut y.1 o)
  obtain ⟨w, hw, hident⟩ := ho
  exact ((of_engineFrame hz.frame).trans (putXop ⟨w, hz.frame.xops ▸ hw, hident.trans hz.ident.symm⟩)).trans (grantOwed _ _ _)

end OpsFrame

/-! ### Operations that open (R336, R337, R345) -/

/-- A collective that starts stands beside the operations before it. -/
theorem startCollective_opens (s : State) (o : XOp) (p : Program) : OpsFrame { s with xops := s.xops ++ [o] } (startCollective s o p) := by
  unfold startCollective
  extract_lets d s1 o1 s2
  have h1 : EngineFrame s s1 := EngineFrame.fetchRange s _ _
  have hopen : OpsFrame { s with xops := s.xops ++ [o] } { s1 with xops := s1.xops ++ [o1] } := by
    refine ⟨by simp only [h1.xops, List.map_append]; rfl, fun y hy => ?_, h1.posted, h1.ring⟩
    rcases List.mem_append.1 hy with hold | hnew
    · exact ⟨y, List.mem_append_left _ (h1.xops ▸ hold), rfl⟩
    · exact ⟨o, by simp, by rw [List.mem_singleton.1 hnew]; rfl⟩
  have h2 : EngineFrame { s1 with xops := s1.xops ++ [o1] } s2 := EngineFrame.grantPieces _ o1 p
  have hstarted : ∀ x, WorkStep (s2, o1) x → OpsFrame { s with xops := s.xops ++ [o] } (settle p x) := fun x hx =>
    ((hopen.trans (OpsFrame.of_engineFrame h2)).trans (OpsFrame.of_engineFrame hx.frame)).trans
      (OpsFrame.settle p ⟨o1, hx.frame.xops ▸ h2.xops ▸ List.mem_append_right _ (List.mem_singleton_self _), hx.ident.symm⟩)
  refine hstarted _ ?_
  split
  · have hlast : WorkStep (s2, o1) (s2, { o1 with stage := (selectedAxes d).length }) := ⟨EngineFrame.refl _, rfl⟩
    exact hlast.trans (WorkStep.startGather _ _ p)
  · exact WorkStep.beginStage s2 o1 p

/-- A PUT that starts stands beside the operations before it. -/
theorem startPut_opens (s : State) (o : XOp) : OpsFrame { s with xops := s.xops ++ [o] } (startPut s o) := by
  unfold startPut
  extract_lets d peer s1 pieces rtok s2
  have h1 : EngineFrame s s1 := EngineFrame.fetchRange s _ _
  have hopen : EngineFrame { s with xops := s.xops ++ [o] } s2 :=
    ⟨congrArg (· ++ [o]) h1.xops, h1.posted, h1.ring⟩
  exact OpsFrame.of_engineFrame (hopen.trans (EngineFrame.foldl _ (fun t x => EngineFrame.ship t _) _ _))

/-- The operation of a name is one that has it. -/
theorem xopOf_isSome (s : State) (st : BitVec 32) (id : BitVec 16) : (xopOf s st id).isSome = true ↔ (st, id) ∈ s.xops.map XOp.name := by
  unfold xopOf
  rw [List.find?_isSome, List.mem_map]
  exact ⟨fun ⟨x, hx, h⟩ => ⟨x, hx, (isFor_iff x st id).1 h⟩, fun ⟨x, hx, h⟩ => ⟨x, hx, (isFor_iff x st id).2 h⟩⟩

/-- A new operation is found afterwards, as it was opened. -/
theorem OpsFrame.opened {s t : State} {o : XOp} (h : OpsFrame { s with xops := s.xops ++ [o] } t) (hnew : xopOf s o.step o.descId = none) :
    ∃ x, xopOf t o.step o.descId = some x ∧ x.ident = o.ident := by
  have hsome : (xopOf t o.step o.descId).isSome = true := by
    rw [xopOf_isSome, h.names]
    simp [XOp.name]
  obtain ⟨y, hy⟩ := Option.isSome_iff_exists.1 hsome
  refine ⟨y, hy, ?_⟩
  have hname : y.name = o.name := (isFor_iff y _ _).1 (List.find?_some (p := fun x : XOp => x.isFor o.step o.descId) hy)
  obtain ⟨x, hx, hident⟩ := h.idents y (List.mem_of_find?_eq_some hy)
  rcases List.mem_append.1 hx with hold | hlast
  · have hx : (xopOf s o.step o.descId).isSome = true :=
      (xopOf_isSome s _ _).2 (List.mem_map.2 ⟨x, hold, (congrArg Prod.fst hident).trans hname⟩)
    rw [hnew] at hx
    exact absurd hx (by decide)
  · rw [← hident, List.mem_singleton.1 hlast]

/-! ### Operations that close (R242, R343, R345) -/

/-- Of the operations of s those but o's are open in t, the cores keep what they had, and records have only been added. -/
structure XopClosed (s t : State) (o : XOp) : Prop where
  gone : xopOf t o.step o.descId = none
  others : ∀ st id, st ≠ o.step ∨ id ≠ o.descId → (xopOf t st id).isSome = (xopOf s st id).isSome
  posted : ∀ c, (t.core c).posted = (s.core c).posted
  ring : RingGrows s t

/-- What closes an operation and leaves the others. -/
theorem XopClosed.followed {s t u : State} {o : XOp} (h : XopClosed s t o) (h' : OpsFrame t u) : XopClosed s u o := by
  have hsame : ∀ st id, (xopOf u st id).isSome = (xopOf t st id).isSome := fun st id => by
    rw [Bool.eq_iff_iff, xopOf_isSome, xopOf_isSome, h'.names]
  refine ⟨?_, fun st id hne => (hsame st id).trans (h.others st id hne), fun c => (h'.posted c).trans (h.posted c), h.ring.trans h'.ring⟩
  rw [← Option.not_isSome_iff_eq_none, hsame, h.gone]
  decide

/-- What comes before the close and leaves the operations. -/
theorem XopClosed.after {s t u : State} {o : XOp} (h : OpsFrame s t) (h' : XopClosed t u o) : XopClosed s u o := by
  have hsame : ∀ st id, (xopOf t st id).isSome = (xopOf s st id).isSome := fun st id => by
    rw [Bool.eq_iff_iff, xopOf_isSome, xopOf_isSome, h.names]
  exact ⟨h'.gone, fun st id hne => (h'.others st id hne).trans (hsame st id), fun c => (h'.posted c).trans (h.posted c), h.ring.trans h'.ring⟩

/-- Closing an operation takes it away and leaves the others. -/
theorem closeXop_closed (s : State) (o : XOp) (failed : Bool) : XopClosed s (closeXop s o failed) o := by
  let left := s.xops.filter fun x => !x.isFor o.step o.descId
  have hleft : ∀ t : State, t.xops = left → t.cores = s.cores → t.errRing = s.errRing → XopClosed s t o := fun t ht hc hr => by
    have hmem : ∀ st id, (xopOf t st id).isSome = true ↔ ∃ x ∈ s.xops, x.name = (st, id) ∧ x.name ≠ o.name := fun st id => by
      rw [xopOf_isSome, ht, List.mem_map]
      have hiff : ∀ x : XOp, (!x.isFor o.step o.descId) = true ↔ x.name ≠ o.name := fun x => by
        rw [Bool.not_eq_true', ← Bool.not_eq_true, isFor_iff]
        rfl
      simp only [left, List.mem_filter, hiff]
      exact ⟨fun ⟨x, ⟨hx, hne⟩, hn⟩ => ⟨x, hx, hn, hne⟩, fun ⟨x, hx, hn, hne⟩ => ⟨x, ⟨hx, hne⟩, hn⟩⟩
    refine ⟨?_, fun st id hne => ?_, fun c => by rw [State.core, hc, State.core], RingGrows.of_eq hr⟩
    · rw [← Option.not_isSome_iff_eq_none, hmem]
      exact fun ⟨x, _, hn, hno⟩ => hno hn
    · rw [Bool.eq_iff_iff, hmem, xopOf_isSome, List.mem_map]
      refine ⟨fun ⟨x, hx, hn, _⟩ => ⟨x, hx, hn⟩, fun ⟨x, hx, hn⟩ => ⟨x, hx, hn, fun h => ?_⟩⟩
      obtain ⟨hst, hid⟩ := Prod.mk.inj (hn.symm.trans h)
      exact hne.elim (· hst) (· hid)
  unfold closeXop
  refine XopClosed.followed ?_ ((OpsFrame.of_engineFrame (EngineFrame.retryTags _)).trans (OpsFrame.grantOwed _ _ _))
  exact hleft _ rfl rfl rfl

end Sys2Proof.Machine

namespace Sys2Proof.Machine

/-! ### Packets of the link (R317, R320, R326) -/

/-- A packet that passes every check is taken, and the state is the received one. -/
theorem ctlArrives_received {s : State} {port typ : Nat} {f : Frame} (h : Arrives s port typ f) :
    ctlArrives s port typ f = (received s port f, true) ∧ EngineFrame s (received s port f) := by
  obtain ⟨hup, hcrc, hseq, htyp, hform, hrouted, hlands⟩ := h
  let t : State := { s.modPort port (fun p => { p with rxSeq := p.rxSeq + 1 }) with fabOut := s.fabOut ++ [.ack port f.head.seq] }
  have hlink : linkAccept s port f = (t, true) := by
    have hlistens : portListens (s.port port) = true := by
      unfold portListens
      rw [hup]
    have hgood : linkCheck (s.port port) f = 0 := by
      unfold linkCheck
      rw [hcrc, hseq]
      simp
    unfold linkAccept
    dsimp only
    rw [hlistens, hgood]
    rfl
  have hreceived : received s port f = returnCredits t port f := by
    unfold received
    rw [hlink]
  have hst : ((returnCredits t port f).port port).st = (s.port port).st := by
    have hport : ((s.modPort port fun p => { p with rxSeq := p.rxSeq + 1 }).port port).st = (s.port port).st := by
      rw [port_modPort_self]
    unfold returnCredits
    split <;> exact hport
  have hprog : (returnCredits t port f).prog = s.prog ∧ (returnCredits t port f).rank = s.rank := by
    unfold returnCredits
    split <;> exact ⟨rfl, rfl⟩
  have hrouted' : routed (returnCredits t port f) port f.head = true := by
    rw [← hrouted]
    unfold routed
    rw [hst, hprog.1, hprog.2]
  have hlands' : landsHere (returnCredits t port f) f.head = true := by
    rw [← hlands]
    unfold landsHere
    rw [hprog.1, hprog.2]
  constructor
  · unfold ctlArrives
    dsimp only
    rw [hlink, hreceived]
    dsimp only
    rw [if_neg (by simp), if_neg (by simp [htyp, hform]), if_neg (by simp [hrouted', hlands']), hup]
    rfl
  · rw [hreceived]
    unfold returnCredits
    split <;> exact EngineFrame.of_eq rfl rfl rfl

/-! ### Descriptors (R18, R201, R336, R337) -/

/-- The operation of a descriptor as it is opened. -/
def newXop (kind c e : Nat) (step : BitVec 32) (d : Desc) : XOp :=
  { step := step, descId := dId d, desc := d, core := c, eng := e, adaptive := d.w0.getLsbD 10, kind := kind, stage := 0, lo := 0
    len := 0, vals := [], got := [], early := [], handled := 0, outbox := [], sentCrc := false, gathered := [], gathering := false
    written := false, owed := [] }

section
variable {s : State} {kind c e : Nat} {ad : Bool} {d : Desc}

theorem exchange_poisoned (h : arrives s c (some (e, ad)) d true = true) :
    let x := descPlace s c (some (e, ad)) d
    exchange kind c e ad d true s = (freePlace s c (some (e, ad)) d).bite 9 e (opidDesc (dId d) x.step) x.addr 1 := by
  intro x
  unfold exchange
  dsimp only
  rw [h]
  rfl

theorem exchange_stray (h : arrives s c (some (e, ad)) d false = true) (hstray : xStray d = true) :
    exchange kind c e ad d false s = (freePlace s c (some (e, ad)) d).emit
      { code := 0x02, uclass := 9, uinst := e, opid := opidDesc (dId d) (descPlace s c (some (e, ad)) d).step } := by
  unfold exchange
  dsimp only
  rw [h, hstray]
  rfl

theorem exchange_fault (h : arrives s c (some (e, ad)) d false = true) (hstray : xStray d = false)
    (hfault : xchgFault (freePlace s c (some (e, ad)) d) kind ad d = true) :
    exchange kind c e ad d false s = (freePlace s c (some (e, ad)) d).emit
      { code := 0x5A, uclass := 9, uinst := e, opid := opidDesc (dId d) (descPlace s c (some (e, ad)) d).step } := by
  unfold exchange
  dsimp only
  rw [h, hstray, hfault]
  rfl

theorem exchange_nothing (h : arrives s c (some (e, ad)) d false = true) (hstray : xStray d = false)
    (hfault : xchgFault (freePlace s c (some (e, ad)) d) kind ad d = false) (hcount : xCount d = 0) :
    exchange kind c e ad d false s = (freePlace s c (some (e, ad)) d).addToken (rCore d) (rTok d).toNat 1 := by
  unfold exchange
  dsimp only
  rw [h, hstray, hfault, if_pos hcount]
  rfl

/-- A descriptor without fault opens its operation. -/
theorem exchange_opens (h : arrives s c (some (e, ad)) d false = true) (hstray : xStray d = false)
    (hfault : xchgFault (freePlace s c (some (e, ad)) d) kind ad d = false) (hcount : xCount d ≠ 0) :
    let s0 := freePlace s c (some (e, ad)) d
    let o := newXop kind c e (descPlace s c (some (e, ad)) d).step d
    OpsFrame { s0 with xops := s0.xops ++ [o] } (exchange kind c e ad d false s) := by
  intro s0 o
  obtain ⟨p, hp⟩ : ∃ p, s0.prog = some p := by
    cases hp : s0.prog with
    | some p => exact ⟨p, rfl⟩
    | none =>
      unfold xchgFault at hfault
      rw [show (freePlace s c (some (e, ad)) d).prog = none from hp] at hfault
      exact absurd hfault Bool.noConfusion
  have hrun : exchange kind c e ad d false s = if kind = 1 then startPut s0 o else startCollective s0 o p := by
    unfold exchange
    dsimp only
    rw [h, hstray, hfault, if_neg hcount, show (freePlace s c (some (e, ad)) d).prog = some p from hp]
    rfl
  rw [hrun]
  split
  · exact startPut_opens s0 o
  · exact startCollective_opens s0 o p

end

/-! ### The end of an operation (R242, R343, R345) -/

/-- The token of a closed operation is added behind the close. -/
theorem XopClosed.addToken {s u : State} {o : XOp} (h : XopClosed s u o) (c i : Nat)
    (hroom : ((s.core c).token i).toNat + 1 < 2 ^ 32) :
    let t := u.addToken c i 1
    xopOf t o.step o.descId = none ∧ ((t.core c).token i).toNat = ((s.core c).token i).toNat + 1 ∧
      ∀ st id, st ≠ o.step ∨ id ≠ o.descId → (xopOf t st id).isSome = (xopOf s st id).isSome := by
  intro t
  have htoken : (u.core c).token i = (s.core c).token i := by
    have htokens : (u.core c).tokens = (s.core c).tokens := congrArg Prod.snd (h.posted c)
    unfold Core.token
    rw [htokens]
  have hxops : ∀ st id, xopOf t st id = xopOf u st id := fun st id => by
    unfold xopOf t
    rw [addToken_state]
  refine ⟨(hxops _ _).trans h.gone, ?_, fun st id hne => ?_⟩
  · rw [← htoken] at hroom ⊢
    exact (addToken_adds u c i 1 hroom).1
  · rw [hxops]
    exact h.others st id hne

/-- An operation that fails is closed behind its record. -/
theorem failCollective_closed (s : State) (o : XOp) (code : Nat) :
    XopClosed s (failCollective s o code) o ∧
      ∃ r ∈ (failCollective s o code).errRing.drop s.errRing.length, r.code = BitVec.ofNat 8 code ∧ r.uclass = 9 := by
  let i : RecInfo := { code := code, uclass := 9, uinst := o.eng, opid := opidDesc o.descId o.step }
  have hclosed : XopClosed (s.emit i) (failCollective s o code) o :=
    ((closeXop_closed (s.emit i) o true).followed (OpsFrame.of_engineFrame (EngineFrame.freeXopOutput _ o))).followed
      (OpsFrame.of_engineFrame (EngineFrame.of_fabricFrame (FabricFrame.shipAll _ _)))
  exact ⟨hclosed.after (OpsFrame.of_engineFrame (EngineFrame.emit s i)), s.record i, record_mem_drop hclosed.ring, rfl, rfl⟩

/-- Settles O39: a descriptor opens by what its place and its bits let it do; an operation ends by its packets or by its last write. -/
theorem exchangeOperations : Obligations.ExchangeOperations := by
  unfold Obligations.ExchangeOperations
  intro s c e ad d o port f code eng step s0 tok closes opens hlive
  have hopens : s.stopped = false → ∀ kind (i : Bool → Instr),
      (∀ b, exec (i b) s = .next (if s.live && !s.stopped then exchange kind c.val e.val ad d b s else s)) → opens kind i := by
    intro hgo kind i hexec
    have hexec : ∀ b, exec (i b) s = .next (exchange kind c.val e.val ad d b s) := fun b =>
      (hexec b).trans (congrArg Host.Outcome.next (if_runs hlive hgo _))
    refine ⟨fun harr hstray => ⟨fun hfault hcount hnew => ?_, fun hfault hcount hroom => ?_, fun hfault => ?_⟩,
      fun harr hstray => ?_, fun harr => ?_⟩
    · have hframe := exchange_opens harr hstray hfault hcount
      obtain ⟨x, hx, hident⟩ := hframe.opened (o := newXop kind c.val e.val step d) hnew
      simp only [XOp.ident, Prod.mk.injEq] at hident
      obtain ⟨-, hkind, hdesc, heng, hcore⟩ := hident
      exact ⟨_, x, hexec false, hx, hkind, hdesc, heng, hcore, congrArg Prod.fst (hframe.posted c.val)⟩
    · refine ⟨_, hexec false, ?_⟩
      rw [exchange_nothing harr hstray hfault hcount]
      have htoken : (s0.core (rCore d)).token (rTok d).toNat = (s.core (rCore d)).token (rTok d).toNat := by
        unfold s0 freePlace
        rw [core_modCore]
        split <;> rfl
      refine ⟨by rw [addToken_state]; rfl, ?_⟩
      have hadds := (addToken_adds s0 (rCore d) (rTok d).toNat 1 (by rw [htoken]; exact hroom)).1
      rwa [htoken] at hadds
    · rw [hexec false, exchange_fault harr hstray hfault]
      exact ⟨_, _, rfl, rfl, rfl, rfl, rfl, rfl⟩
    · rw [hexec false, exchange_stray harr hstray]
      exact ⟨_, _, rfl, rfl, rfl, rfl⟩
    · rw [hexec true, exchange_poisoned harr]
      exact ⟨_, _, rfl, rfl, rfl, rfl⟩
  refine ⟨fun hgo => ⟨hopens hgo 1 _ fun _ => rfl, hopens hgo 2 _ fun _ => rfl, hopens hgo 3 _ fun _ => rfl, hopens hgo 4 _ fun _ => rfl⟩,
    fun hfound hroom => ⟨fun hgo hwritten hempty hlanded => ?_, fun harr hkind => ?_⟩, fun hfound harr => ?_⟩
  · have hrun : exchangeComplete o.step o.descId s = (closeXop s o false).addToken (rCore o.desc) (rTok o.desc).toNat 1 := by
      unfold exchangeComplete
      rw [hfound]
      dsimp only
      rw [if_pos (by simp [hwritten, hempty, hlanded])]
    refine ⟨_, (congrArg Host.Outcome.next (if_runs hlive hgo _)).trans (congrArg Host.Outcome.next hrun), ?_⟩
    exact (closeXop_closed s o false).addToken _ _ hroom
  · obtain ⟨harrives, hframe⟩ := ctlArrives_received harr
    have hrun : donePkt port f o.step o.descId s =
        (closeXop (received s port f) o false).addToken (rCore o.desc) (rTok o.desc).toNat 1 := by
      unfold donePkt
      dsimp only
      rw [harrives, hframe.xopOf, hfound]
      dsimp only
      rw [if_pos (by simp [hkind])]
    refine ⟨_, (congrArg Host.Outcome.next (if_pos hlive)).trans (congrArg Host.Outcome.next hrun), ?_⟩
    exact ((closeXop_closed (received s port f) o false).after (OpsFrame.of_engineFrame hframe)).addToken _ _ hroom
  · obtain ⟨harrives, hframe⟩ := ctlArrives_received harr
    have hrun : failPkt port f o.step o.descId code s = failCollective (received s port f) o code.toNat := by
      unfold failPkt
      dsimp only
      rw [harrives, hframe.xopOf, hfound]
      rfl
    have hexec : exec (.failPacket ⟨port, f⟩ o.step o.descId code) s = .next (failCollective (received s port f) o code.toNat) :=
      (congrArg Host.Outcome.next (if_pos hlive)).trans (congrArg Host.Outcome.next hrun)
    obtain ⟨hclosed, r, hr, hcode, hclass⟩ := failCollective_closed (received s port f) o code.toNat
    obtain ⟨hgone, hothers, hposted, -⟩ := hclosed.after (OpsFrame.of_engineFrame hframe)
    refine ⟨⟨_, hexec, hgone, ?_, hothers⟩, _, hexec, r, ?_, hcode.trans (by simp), hclass⟩
    · have htokens := congrArg Prod.snd (hposted (rCore o.desc))
      exact congrArg (fun m : SMap (BitVec 32) => (mget 0 m (rTok o.desc).toNat).toNat) htokens
    · exact List.drop_subset_drop_left _ (List.IsPrefix.length_le hframe.ring) hr

end Sys2Proof.Machine
